-- ==== Sys2Proof/Word.lean ====
section
/-!
DEFINITION. The word types of the part and their plainest arithmetic (R4: little-endian everywhere, bit 0 least significant).
-/
namespace Sys2Proof

/-- One byte. -/
abbrev Byte := BitVec 8
/-- A 32-bit register or record word. -/
abbrev Word := BitVec 32
/-- A 64-bit quantity: scalar registers, SRF addresses, rack time, step ids. -/
abbrev DWord := BitVec 64
/-- A byte string, lowest address first (R4). -/
abbrev Bytes := List (BitVec 8)
/-- An instruction word (R105). -/
abbrev Insn := BitVec 64
/-- A visible core, by logical core number (R18). -/
abbrev CoreId := Fin 4096
/-- A hardware context of a core (R67). -/
abbrev CtxId := Fin 8
/-- A compute die W0 to W3 (R16). -/
abbrev Wing := Fin 4
/-- One of the 16 hardware partitions (R265). -/
abbrev Part := Fin 16
/-- A model slot (R301). -/
abbrev SlotIdx := Fin 64
/-- An HBM3 stack (R358). -/
abbrev Stack := Fin 12
/-- One of the 88 link lanes (R441). -/
abbrev Lane := Fin 88
/-- An index of the sequence table (R233). -/
abbrev SeqIdx := Fin 65536
/-- A byte offset in the 64 MiB PF BAR0 (R273). -/
abbrev BarOff := BitVec 26
/-- A 16-bit code of R532. -/
abbrev Code := BitVec 16
/-- A package: bit [6] rack, bits [5:0] slot, as HOME of R236 writes it. -/
abbrev PkgId := BitVec 7
/-- A vector register: 32 lanes of 32 bits (R67). -/
abbrev VReg := List (BitVec 32)

end Sys2Proof
end

