-- ==== Sys2Proof/Machine/Types.lean ====
section
/-!
DEFINITION. The data that travels: requesters, packets, contributions, mirrors, result entries and the observations a command carries.
-/
namespace Sys2Proof

/-- Who makes a register access (R559): the PF, a VF (by partition, VF n + 1), or Wainil. -/
inductive Requester where
  | pf
  | vf (p : Part)
  | wainil
  deriving DecidableEq, Repr

/-- What the code of a protected word shows when it is read (R80, R82, R364). -/
inductive Ecc where
  | clean
  | corrected
  /-- A corrected error that the code of a cellar line locates on DQ lane `dq` of its channel (R364, R367). -/
  | correctedLane (dq : Fin 64)
  /-- A correction that an HBM stack has made itself and reports (R359). -/
  | onDie
  | uncorrectable
  deriving DecidableEq, Repr

/-- What the codes of the words of one read show (R80) or of the lines of one read (R364): the words or lines, counted from the first that the
read touches, whose code does not show clean. -/
abbrev Errs := List (Nat × Ecc)

/-- What the code of word or line `k` of a read shows. -/
def Errs.at (es : Errs) (k : Nat) : Ecc := ((es.find? fun e => decide (e.1 = k)).map (·.2)).getD Ecc.clean

/-- What a read shows from its word `k` on. -/
def Errs.after (es : Errs) (k : Nat) : Errs := es.filterMap fun e => if k ≤ e.1 then some (e.1 - k, e.2) else none

/-- The kinds of on-package link of R415. -/
inductive LinkKind where
  /-- A mesh link of the router at a physical position of the wing (R383). -/
  | mesh (x : Fin 33) (y : Fin 32)
  /-- A lane of the lintel direction that leaves the wing along its rows (east or west) or along its columns (R385). -/
  | lintel (rows : Bool)
  | hallLink
  deriving DecidableEq, Repr

/-- The monitored rails of R464. -/
inductive Rail where
  | core
  | boost
  | hall
  deriving DecidableEq, Repr

/-- Wainil's two MCTP bindings (R484). -/
inductive Binding where
  | i3c
  | pcie
  deriving DecidableEq, Repr

/-- A packet (R402): its header fields and its payload. -/
structure Packet where
  /-- ADDRESS [127:64]. -/
  address : BitVec 64
  /-- VC [63:62]. -/
  vc : BitVec 2
  /-- TYPE [61:58]. -/
  type : BitVec 4
  /-- SRC_RACK and SRC_SLOT [57:51]. -/
  src : PkgId
  /-- NODE [50:38]. -/
  node : BitVec 13
  /-- SINK [37:30]. -/
  sink : BitVec 8
  /-- LENGTH [29:17]. -/
  length : BitVec 13
  /-- WING [16:15]. -/
  wing : BitVec 2
  /-- EPOCH [14:7]. -/
  epoch : BitVec 8
  /-- ARG [6:0]. -/
  arg : BitVec 7
  /-- LENGTH bytes of payload. -/
  payload : Bytes
  /-- Of a response, and no part of its header: the node that sends it, and the plane and lane of its request, 2 × plane + lane, which it takes
  (R405). -/
  sender : Option (Nat × Nat) := none
  deriving DecidableEq, Repr

/-- A link codeword as the decoder hands it over (R411, R412): whether it decodes, the symbols corrected,
its link header, and the flits of packets among its ten flit slots. -/
structure Codeword where
  /-- False for an uncorrectable codeword. -/
  decodes : Bool
  /-- Ten-bit symbols corrected. -/
  corrected : Nat
  /-- The 20-bit link header of R412. -/
  header : BitVec 20
  /-- The virtual channels of its flits of packets, ten at most; with none it is a control codeword (R413). -/
  flits : List (Fin 4)
  deriving DecidableEq, Repr

/-- What PCIe reports of one partition's accesses at a boundary: what the read of its consumer word returned, `none` when it failed (R283), and the stamps of the QUERY and
SLOT_QUERY records whose copy could not be written (R282, R300). -/
structure ConsWord where
  part : Part
  value : Option Word
  failed : List Word := []
  deriving DecidableEq, Repr

/-- The arithmetic flag record of R60, as counts and lowest layers, in the order
SATURATION, WINDOW_LOW, OUTLIER_OVERFLOW, SCALE_CLAMP, NONFINITE. -/
structure ArithRec where
  sat : Nat := 0
  wlow : Nat := 0
  ovf : Nat := 0
  clamp : Nat := 0
  nonf : Nat := 0
  satLayer : Nat := 0xFF
  wlowLayer : Nat := 0xFF
  ovfLayer : Nat := 0xFF
  clampLayer : Nat := 0xFF
  nonfLayer : Nat := 0xFF
  deriving DecidableEq, Repr

/-- The expert record of R230. -/
structure ExpertRec where
  count : Nat := 0
  layer : Nat := 0xFF
  hotId : Nat := 0x3FF
  rows : Nat := 0
  deriving DecidableEq, Repr

/-- A vocabulary shard of one sequence (R166): its core, its first token id, and the logits in ascending token id as FP32 words. -/
structure Shard where
  src : PkgId
  core : CoreId
  first : Nat
  logits : List Word
  deriving DecidableEq, Repr

/-- The shards of one sequence, with the layer tag of the vocabulary projection (R166). -/
structure Sample where
  seq : Nat
  layer : Nat
  shards : List Shard
  deriving DecidableEq, Repr

/-- A token of a contribution (R244), with the end reason of R242. -/
structure TokenRec where
  handle : Word
  token : Word
  endReason : Nat
  deriving DecidableEq, Repr

/-- A sequence to be made ERRORED, with its code (R244). -/
structure FaultRec where
  handle : Word
  code : Code
  deriving DecidableEq, Repr

/-- An accepted porch record (R277, R244): its partition, its stamp, the rack time of acceptance, whether it was
accepted as TORN, and its 128 bytes. -/
structure CmdRec where
  part : Part
  stamp : Word
  time : Nat
  torn : Bool
  bytes : Bytes
  /-- The partition's bit of MDL_CTL.ADMIN_MASK of the home when it was accepted (R314). -/
  admin : Bool := true
  deriving DecidableEq, Repr

/-- A change of a client's settings by the PF or by BUDGET (R261); `none` leaves the field. -/
structure CliChange where
  client : Nat
  owner : Option Nat := none
  rate : Option Nat := none
  burst : Option Nat := none
  deriving DecidableEq, Repr

/-- A package's report on a load phase (R315): the slot, the phase (0 MANIFEST, 1 SPACE, 2 SHARDS, 3 VERIFYING), and 0
for complete or the failing code. -/
structure LoadReport where
  slot : Nat
  phase : Nat
  code : Code
  /-- MODEL_ID and VERSION at phase 0; the number of evictions the package needs at phase 1 (R323). -/
  modelId : DWord := 0
  version : Word := 0
  need : Nat := 0
  /-- The eligible slots, in rank order, by which `need` was found (R322, R323). -/
  order : List Nat := []
  deriving DecidableEq, Repr

/-- A boundary contribution (R244). -/
structure Contribution where
  home : PkgId
  step : DWord
  doneTime : Nat
  tokens : List TokenRec
  faults : List FaultRec
  commands : List CmdRec
  arith : ArithRec
  expert : ExpertRec
  cfgGo : Bool
  cfgDigest : DWord
  /-- ROOM of the home's 16 partitions (R290). -/
  room : List Nat
  clients : List CliChange
  reports : List LoadReport
  /-- Sequence indices whose prompt copy completed, whose move to the loft reached step 5, whose copy back
  completed, or whose copy back failed with a code (R241, R193, R197, R199). -/
  promptReady : List Nat
  moved : List Nat
  movedFailed : List Nat
  resumed : List Nat
  resumeFailed : List (Nat × Code)
  deriving DecidableEq, Repr

/-- A result entry (R286) by its byte offsets: KIND at 0x00, `a` at 0x01, `code` at 0x02, HANDLE at 0x04, `x` at 0x08,
`y` at 0x0C, USER_TAG at 0x10, STEP_LO at 0x18, `z` at 0x1C. -/
structure ResEntry where
  kind : Byte
  a : Byte
  code : BitVec 16
  handle : Word
  x : Word
  y : Word
  tag : DWord
  stepLo : Word
  z : Word
  /-- Of a PROGRAM_LOAD whose outcome is still to come (R142): its batch is written once it has. -/
  wait : Bool := false
  deriving DecidableEq, Repr

/-- A batch to be written or a part of one held in the hall buffer (R284, R289). -/
structure Batch where
  part : Part
  stepId : DWord
  time : Nat
  /-- KIND 0x01 STEP or 0x02 COMMAND. -/
  kind : Byte
  replay : Bool
  arith : ArithRec
  expert : ExpertRec
  entries : List ResEntry
  /-- It stands for deferred entries alone (R296), and is written only with some. -/
  alone : Bool := false
  deriving DecidableEq, Repr

/-- A deferred entry (R296): its table index and the entry. -/
structure Deferred where
  part : Part
  seq : Nat
  entry : ResEntry
  deriving DecidableEq, Repr

/-- A loft move in progress (R193): its sequence, the units taken, and whether step 5 has rewritten the entries. The frames
are those the entries named before step 5. -/
structure LoftMove where
  seq : Nat
  units : List Nat
  rewritten : Bool
  frames : List Nat
  /-- Members whose step 5 has been reported in a contribution. -/
  told : List PkgId
  deriving DecidableEq, Repr

/-- The boundary mirror (R424): the data items and the check items; or one record, mirrored at its acceptance. -/
structure Mirror where
  step : DWord
  /-- Data items. -/
  records : List CmdRec
  producers : List Nat
  held : List Batch
  deferred : List Deferred
  confirmed : List (Nat × DWord)
  unconfirmed : List Batch
  accounts : List (Nat × List Nat)
  /-- Loft moves in progress, and the sequences whose prompt frames are being filled, with their frames. -/
  moves : List LoftMove
  promptFill : List (Nat × List Nat)
  /-- Check items: the state digest and the CRC-32C of each chain's appended rows. -/
  digest : DWord
  kvCrc : List Word
  atAcceptance : Bool := false
  deriving DecidableEq, Repr

/-- A FORM report (R520). -/
structure FormReport where
  src : PkgId
  mask : List PkgId
  ready : Bool
  hhAbi : BitVec 16
  pairNum : Nat
  rackTime : Nat
  kvSize : Nat
  loftSize : Nat
  cfgDigest : DWord
  /-- Every wing of the member has a carrying lane on every plane and the pair link carries 8 lanes or more (check 7). -/
  linksGood : Bool
  /-- In the answer of a household's leader to a join (R522): its verdict, the packages declared lost, and the pair numbers. -/
  verdict : Option Code
  lost : List PkgId
  pairNums : List (PkgId × Nat)
  /-- The household's EPOCH (R398). -/
  epoch : Nat := 0
  deriving DecidableEq, Repr

/-- What bring-up meets (R511, R512): the sampled straps, whether the flash image passes R488, and a stopping fault with
the stage at which it arose. -/
structure BringUp where
  rack : Bool
  slot : BitVec 6
  fault : Option (Nat × Code)
  /-- Cores found failed in stage 4, in ascending order (R512). -/
  failedCores : List CoreId
  /-- Rows, as 32 × wing + row, whose spare is found failed (R93). -/
  failedSpares : List (Fin 128)
  deriving DecidableEq, Repr

end Sys2Proof
end

