-- ==== Sys2Proof/Machine/Map.lean ====
section
/-!
DEFINITION. Sparse maps in one canonical form (keys strictly rising, no entry equal to what an unlisted key reads as), byte
memories over them, little-endian accesses (R4), and bit fields.
-/
namespace Sys2Proof.Machine

/-- A sparse map from numbers. What an unlisted key reads as is an argument of every operation. -/
abbrev SMap (α : Type) := List (Nat × α)

/-- The value at a key; `d` is what an unlisted key reads as. -/
def SMap.get {α : Type} (d : α) : SMap α → Nat → α
  | [], _ => d
  | (k, v) :: m, i => if i = k then v else SMap.get d m i

/-- Insert an entry before the first of larger key. -/
def SMap.ins {α : Type} (i : Nat) (x : α) : SMap α → SMap α
  | [] => [(i, x)]
  | (k, v) :: m => if i < k then (i, x) :: (k, v) :: m else (k, v) :: SMap.ins i x m

/-- The map without a key. -/
def SMap.drop {α : Type} (m : SMap α) (i : Nat) : SMap α := m.filter fun e => decide (e.1 ≠ i)

/-- Write a value and keep the canonical form: the former entry goes, and the default is never listed. -/
def SMap.set {α : Type} [DecidableEq α] (d : α) (m : SMap α) (i : Nat) (x : α) : SMap α :=
  if x = d then SMap.drop m i else SMap.ins i x (SMap.drop m i)

/-- Change the value at a key. -/
def SMap.upd {α : Type} [DecidableEq α] (d : α) (m : SMap α) (i : Nat) (f : α → α) : SMap α :=
  SMap.set d m i (f (SMap.get d m i))

/-- Every key is at least `lo`, keys rise strictly, and no value is the default. -/
def SMap.okFrom {α : Type} [DecidableEq α] (d : α) : Nat → SMap α → Bool
  | _, [] => true
  | lo, (k, v) :: m => decide (lo ≤ k) && decide (v ≠ d) && SMap.okFrom d (k + 1) m

/-- The canonical form. -/
def SMap.wf {α : Type} [DecidableEq α] (d : α) (m : SMap α) : Bool := SMap.okFrom d 0 m

/-- Change every listed value, dropping those that become the default. -/
def SMap.mapVals {α : Type} [DecidableEq α] (d : α) (f : Nat → α → α) (m : SMap α) : SMap α :=
  m.filterMap fun e => if f e.1 e.2 = d then none else some (e.1, f e.1 e.2)

/-- Keep the entries whose key is outside `[lo, lo + n)`. -/
def SMap.dropRange {α : Type} (m : SMap α) (lo n : Nat) : SMap α :=
  m.filter fun e => decide (e.1 < lo) || decide (lo + n ≤ e.1)

/-- A byte memory: the canonical list of cells that differ from zero. -/
abbrev Memory := List (Nat × BitVec 8)

/-- The canonical form of a memory. -/
def Memory.wf (m : Memory) : Bool := SMap.wf (0 : BitVec 8) m

/-- Read one byte; an unlisted byte reads zero (DESIGN CHOICE, notes/assumptions/57.md). -/
def Memory.byte (m : Memory) (a : Nat) : Byte := SMap.get 0 m a

/-- Write one byte. -/
def Memory.setByte (m : Memory) (a : Nat) (b : Byte) : Memory := SMap.set 0 m a b

/-- Read `n` bytes from `a` up. -/
def Memory.read (m : Memory) (a n : Nat) : Bytes := (List.range n).map fun i => Memory.byte m (a + i)

/-- Write bytes from `a` up. -/
def Memory.write (m : Memory) (a : Nat) : Bytes → Memory
  | [] => m
  | b :: bs => Memory.write (Memory.setByte m a b) (a + 1) bs

/-- Clear `n` bytes from `a` up to zero. -/
def Memory.zero (m : Memory) (a n : Nat) : Memory := SMap.dropRange m a n

/-- Fill `n` bytes from `a` up, a whole number of 64-byte packs, with zero packs: 63 zero bytes and the tag 0x02 each (R31). -/
def Memory.zeroPacks (m : Memory) (a n : Nat) : Memory :=
  (m.filter fun e => decide (e.1 < a)) ++ ((List.range (n / 64)).map fun k => (a + 64 * k + 63, (0x02 : Byte))) ++
    m.filter fun e => decide (a + n ≤ e.1)

/-- The number a byte string spells, lowest byte first (R4). -/
def leNat : Bytes → Nat
  | [] => 0
  | b :: bs => b.toNat + 256 * leNat bs

/-- The `n` bytes of a number, lowest byte first (R4). -/
def leBytes : Nat → Nat → Bytes
  | 0, _ => []
  | n + 1, v => BitVec.ofNat 8 v :: leBytes n (v / 256)

/-- The little-endian field of `n` bytes at offset `o` of a byte string. -/
def fieldAt (b : Bytes) (o n : Nat) : Nat := leNat ((b.drop o).take n)

/-- Bits `[hi:lo]` of a number. -/
def bitsN (v hi lo : Nat) : Nat := v / 2 ^ lo % 2 ^ (hi - lo + 1)

/-- The number with bits `[hi:lo]` replaced. -/
def setBitsN (v hi lo x : Nat) : Nat :=
  v - bitsN v hi lo * 2 ^ lo + (x % 2 ^ (hi - lo + 1)) * 2 ^ lo

/-- Bits `[hi:lo]` of a 64-bit word, as a number. -/
def bits64 (v : BitVec 64) (hi lo : Nat) : Nat := bitsN v.toNat hi lo

/-- Sign-extend the low `n` bits of a number. -/
def signN (n v : Nat) : Int := if v % 2 ^ n < 2 ^ (n - 1) then (v % 2 ^ n : Nat) else ((v % 2 ^ n : Nat) : Int) - 2 ^ n

/-- The quotient rounded up. -/
def ceilDiv (a b : Nat) : Nat := (a + b - 1) / b

/-- The first entry of a list that satisfies a test, with its place. -/
def findIdx {α : Type} (p : α → Bool) : List α → Nat → Option (Nat × α)
  | [], _ => none
  | x :: xs, i => if p x then some (i, x) else findIdx p xs (i + 1)

/-- Replace the entries of a list that satisfy a test. -/
def mapWhere {α : Type} (p : α → Bool) (f : α → α) (l : List α) : List α := l.map fun x => if p x then f x else x

/-- Insert by a strict order, before the first entry that does not precede it. -/
def insertBy {α : Type} (lt : α → α → Bool) (x : α) : List α → List α
  | [] => [x]
  | y :: ys => if lt y x then y :: insertBy lt x ys else x :: y :: ys

/-- Insertion sort by an order that says which of two comes first. -/
def sortBy {α : Type} (lt : α → α → Bool) : List α → List α
  | [] => []
  | x :: xs => insertBy lt x (sortBy lt xs)

/-- Split a list into pieces of `n`, the last possibly shorter; `fuel` bounds the pieces. -/
def chunks {α : Type} (n : Nat) : Nat → List α → List (List α)
  | 0, _ => []
  | _, [] => []
  | f + 1, l => l.take n :: chunks n f (l.drop n)

end Sys2Proof.Machine
end

