-- ==== Sys2Proof/Machine/Tables.lean ====
section
/-!
DEFINITION. The replicated tables as data (R236, R174 to R200, R254, R261, R311): sequence entries, the KV pool, clients, model slots, and the copy a rejoining package
receives.
-/
namespace Sys2Proof.Machine

/-- The states of a sequence-table entry (R238). -/
inductive SeqState where
  | free | queued | prefill | decode | paused | expired | errored
  deriving DecidableEq, Repr

/-- A sequence-table entry (R236). -/
structure SeqEntry where
  st : SeqState
  prio : Nat
  part : Nat
  home : PkgId
  cls : Nat
  gen : Nat
  client : Nat
  slot : Nat
  topK : Nat
  lastSkip : Nat
  inLast : Bool
  moving : Bool
  promptReady : Bool
  promptLen : Nat
  position : Nat
  maxNew : Nat
  generated : Nat
  stopToken : Word
  lastToken : Word
  dirFrame : Nat
  temperature : Word
  topP : Word
  key : DWord
  counter : DWord
  userTag : DWord
  admitTime : Nat
  lastStep : Nat
  ttlEnd : Nat
  promptAddr : Nat
  waitFrom : Nat
  errorCode : Code
  deriving DecidableEq, Repr

/-- A FREE entry that has never been used. -/
def SeqEntry.blank : SeqEntry :=
  { st := .free, prio := 0, part := 0, home := 0, cls := 0, gen := 0, client := 0, slot := 0, topK := 0, lastSkip := 0,
    inLast := false, moving := false, promptReady := false, promptLen := 0, position := 0, maxNew := 0, generated := 0,
    stopToken := 0, lastToken := 0, dirFrame := 0, temperature := 0, topP := 0, key := 0, counter := 0, userTag := 0,
    admitTime := 0, lastStep := 0, ttlEnd := 0, promptAddr := 0, waitFrom := 0, errorCode := 0 }

/-- A page-table entry (R175): FILL, and FRAME as a cellar frame or, in the loft, a loft unit with the page's CRC. -/
structure PageEnt where
  fill : Nat
  frame : Nat
  crc : Word
  deriving DecidableEq, Repr

/-- What a sequence owns in the KV pool (R174 to R177): directory frames, prompt frames, chunk pieces by 32 × chain + chunk,
and pages by 16,384 × chain + page. -/
structure SeqKv where
  dir : List Nat
  prompt : List Nat
  pieces : SMap (Option Nat)
  pages : SMap (Option PageEnt)
  deriving DecidableEq, Repr

/-- Nothing owned. -/
def SeqKv.none : SeqKv := { dir := [], prompt := [], pieces := [], pages := [] }

/-- How far a RESUME has come (R197, R297). -/
inductive ResumeSt where
  /-- Too few frames; tried again at each boundary. -/
  | short
  /-- Copying back into these frames (item 2). -/
  | copying (frames : List Nat)
  /-- Item 3 done; joins at the next boundary. -/
  | copied
  /-- The copy ended in this code; the sequence stays PAUSED or becomes ERRORED. -/
  | failed (code : Code)
  deriving DecidableEq, Repr

/-- A RESUME that awaits its final RESULT. -/
structure ResumeRec where
  seq : Nat
  part : Nat
  stamp : Word
  tag : DWord
  st : ResumeSt
  /-- Members whose copy back has been reported complete in a contribution. -/
  told : List PkgId
  deriving DecidableEq, Repr

/-- The KV pool and the loft (R174 to R200): the frames and pieces in use or reserved, and the loft. -/
structure KvSt where
  /-- Frames allocated or reserved, whatever for, ascending. -/
  frames : List Nat
  /-- Pages and chunks reserved for the step the last boundary opened (R178): (sequence, chain, page, frame) and
  (sequence, chain, chunk, piece). Their frames and pieces stand among the frames and pieces in use. -/
  reservedPages : List (Nat × Nat × Nat × Nat)
  reservedPieces : List (Nat × Nat × Nat × Nat)
  /-- Frames cut into pieces, and the pieces in use (piece = 16 × frame + k), ascending. -/
  pieceFrames : List Nat
  pieces : List Nat
  seqs : SMap SeqKv
  loftUnits : List Nat
  moves : List LoftMove
  resumes : List ResumeRec
  inLoft : List Nat
  /-- Slot record of R191: (core, slot, seq, chain, page). -/
  slots : List (Nat × Nat × Nat × Nat × Nat)
  deriving DecidableEq, Repr

/-- An empty pool. -/
def KvSt.empty : KvSt :=
  { frames := [], reservedPages := [], reservedPieces := [], pieceFrames := [], pieces := [], seqs := [], loftUnits := [],
    moves := [], resumes := [], inLoft := [], slots := [] }

/-- A client (R261, R262, R264): what its credit lacks of a full burst, in nanotokens, and the six counters of R264 in order. -/
structure Client where
  owner : Nat
  rate : Nat
  burst : Nat
  owed : Nat
  acct : List Nat
  deriving DecidableEq, Repr

/-- A client at reset (R271). -/
def Client.reset : Client := { owner := 0, rate := 0xFFFFF, burst := 0x400, owed := 0, acct := [0, 0, 0, 0, 0, 0] }

/-- The states of a model slot (R311). -/
inductive SlotState where
  | evicted | loadManifest | loadSpace | loadShards | verifying | ready | draining
  deriving DecidableEq, Repr

/-- A model slot (R301 to R331). -/
structure Slot where
  st : SlotState
  modelId : DWord
  version : Word
  wait : Bool
  repl : Option Nat
  /-- Home of the LOAD, its source, and what it named. -/
  home : PkgId
  peer : Bool
  peerRack : Bool
  manifestBus : DWord
  manifestLen : Nat
  manifest : Bytes
  base : Nat
  extents : Nat
  /-- Boundary times of the steps served in the last 60 s (R322). -/
  uses : List Nat
  lastUse : Nat
  lastCode : Code
  steps : Nat
  /-- Shard entries checked and written, read or digest failures so far, and shards marked bad (R318, R330). -/
  done : List Nat
  failedOnce : List Nat
  bad : List Nat
  /-- Object index of the current image (R328). -/
  image : Option Nat
  /-- This package's report of the phase in progress, and the reports held of others: (package, phase, code). -/
  report : Option LoadReport
  reports : List (PkgId × LoadReport)
  /-- Shards first in the re-check order (R314) and the rack time of each shard's last check. -/
  recheckFirst : List Nat
  checkedAt : SMap Nat
  /-- No member of the pair holds a checked copy of some shard (R330). -/
  noCopy : Bool
  /-- Place of its manifest in the manifest area (R302). -/
  area : Nat := 0
  /-- Reads made in vain for each bad shard: which copy is asked for next (R330). -/
  tried : SMap Nat := []
  deriving DecidableEq, Repr

/-- An EVICTED slot. -/
def Slot.evicted : Slot :=
  { st := .evicted, modelId := 0, version := 0, wait := false, repl := none, home := 0, peer := false, peerRack := false,
    manifestBus := 0, manifestLen := 0, manifest := [], base := 0, extents := 0, uses := [], lastUse := 0, lastCode := 0,
    steps := 0, done := [], failedOnce := [], bad := [], image := none, report := none, reports := [], recheckFirst := [],
    checkedAt := [], noCopy := false }

/-- An item of the work list (R254), with what its sequence held at the boundary. -/
structure Item where
  index : Nat
  slotMark : Bool
  sample : Bool
  prefill : Bool
  part : Nat
  firstPos : Nat
  tokens : Nat
  input : Word
  deriving DecidableEq, Repr

/-- The work list as the leader broadcasts it (R247, R254): the fields of its header and its items. -/
structure ListHeader where
  stepId : DWord
  time : Nat
  digest : DWord
  tokens : Nat
  attempt : Nat
  modelSlot : Nat
  leader : PkgId
  check : Word
  items : List Item
  deriving DecidableEq, Repr

/-- What a rejoining package receives from its partner (R437, items 1 to 3): the boundary it stands at, the sequence table, the KV pool, the clients, the
bytes of the pool's frames, and every READY and DRAINING slot with its shards as they come from a source (DEDUCED, notes/assumptions/81.md). -/
structure RejoinCopy where
  step : Nat
  boundary : Nat
  digest : DWord
  /-- Whether a step is in progress, whose id `step` then is, with its list. -/
  active : Bool
  items : List Item
  modelSlot : Nat
  table : List (Nat × SeqEntry)
  kv : KvSt
  clients : List (Nat × Client)
  cells : List (Nat × Byte)
  slots : List (Nat × Slot)
  shards : List (Nat × Nat × Bytes)
  /-- The attempt of the step, the household's EPOCH (R398), and the partner's own digest, which the copied state's must equal (R437, item 5). -/
  attempt : Nat
  epoch : Nat
  peerDigest : DWord
  /-- The data items of R424, and whether position 1 has handed its work over for a repeated MIRROR_MISMATCH (R425). -/
  mirror : Option Mirror
  mirrorFault : Bool
  /-- The partner holds a slot still LOADING, which it sends once it is READY (R437, item 2). -/
  loading : Bool
  deriving DecidableEq, Repr

end Sys2Proof.Machine
end

