-- ==== Sys2Proof/Syntax.lean ====
section
/-!
DEFINITION. The commands of the part: one constructor per row of the table of operations and events. An instruction of a core
carries the core and its 64-bit word (R105); a packet row carries the packet; a timed event carries nothing but what it observes.
-/
namespace Sys2Proof

/-- The rows of the table. Each docstring gives the row's mnemonic, its rule and its summary. -/
inductive Instr where
  /-- REGISTER_WRITE, R10: A host write to a register field that has no row of its own, applied according to the field's access code. -/
  | registerWrite (q : Requester) (off : BarOff) (v : Word)
  /-- REG_MISALIGNED_ACCESS, R12: An access to a register page that is not a naturally aligned 32-bit access returns all ones to a read or discards a write. -/
  | regMisalignedAccess (q : Requester) (off : BarOff) (isWrite : Bool)
  /-- UNASSIGNED_PAGE_ACCESS, R556: An access to an unassigned BAR0 page returns all ones to a read, discards a write and logs REG_ACCESS. -/
  | unassignedPageAccess (q : Requester) (off : BarOff) (isWrite : Bool)
  /-- LOW_WORD_READ, R13: A read of the low word of a 64-bit pair returns it and latches the high word in the requester's latch. -/
  | lowWordRead (q : Requester) (off : BarOff)
  /-- LOW_WORD_WRITE, R13: A write of the low word of a 64-bit pair is held without effect until the high word is written. -/
  | lowWordWrite (q : Requester) (off : BarOff) (v : Word)
  /-- HIGH_WORD_WRITE, R13: A write of the high word makes the whole 64-bit value take effect, or refuses it and discards the held low word. -/
  | highWordWrite (q : Requester) (off : BarOff) (v : Word)
  /-- PG_IRQ_WRITE, R550: A write to PG_IRQ_STS, PG_IRQ_EN or PG_CTL that leaves the enabled pending sources nonzero sends a new MSI-X message. -/
  | pgIrqWrite (q : Requester) (off : BarOff) (v : Word)
  /-- ERR_CLR, R549: Writing PG_CTL.ERR_CLR clears PG_ERR_CNT and PG_ERR_FIRST of the page. -/
  | errClr (q : Requester) (off : BarOff) (v : Word)
  /-- PTB_CTL_WRITE, R548: A write to PG_PTB_CTL arms or disarms perturbation, or is refused with PTB_LOCKED or TRIG_LAND. -/
  | ptbCtlWrite (q : Requester) (off : BarOff) (v : Word)
  /-- DBG_TRIG_EDGE, R548: An edge on the debug trigger starts the perturbations armed with TRIGGER 2. -/
  | dbgTrigEdge
  /-- ADD, R106: Scalar add instruction. -/
  | add (c : CoreId) (w : Insn)
  /-- SUB, R106: Scalar subtract instruction. -/
  | sub (c : CoreId) (w : Insn)
  /-- AND, R106: Scalar bitwise AND instruction. -/
  | andI (c : CoreId) (w : Insn)
  /-- OR, R106: Scalar bitwise OR instruction. -/
  | orI (c : CoreId) (w : Insn)
  /-- XOR, R106: Scalar bitwise XOR instruction. -/
  | xorI (c : CoreId) (w : Insn)
  /-- SHL, R106: Scalar shift-left instruction. -/
  | shl (c : CoreId) (w : Insn)
  /-- SHR, R106: Scalar logical shift-right instruction. -/
  | shr (c : CoreId) (w : Insn)
  /-- SAR, R106: Scalar arithmetic shift-right instruction. -/
  | sar (c : CoreId) (w : Insn)
  /-- MUL, R106: Scalar multiply instruction. -/
  | mul (c : CoreId) (w : Insn)
  /-- MULH, R106: Scalar high-half multiply instruction. -/
  | mulh (c : CoreId) (w : Insn)
  /-- MIN, R106: Scalar minimum instruction. -/
  | minI (c : CoreId) (w : Insn)
  /-- MAX, R106: Scalar maximum instruction. -/
  | maxI (c : CoreId) (w : Insn)
  /-- CMP, R106: Scalar compare instruction. -/
  | cmp (c : CoreId) (w : Insn)
  /-- LI, R107: Writes the sign-extended immediate into RD. -/
  | li (c : CoreId) (w : Insn)
  /-- LIH, R107: Writes the immediate into RD[63:32] and keeps RD[31:0]. -/
  | lih (c : CoreId) (w : Insn)
  /-- BR, R110: Unconditional relative branch. -/
  | br (c : CoreId) (w : Insn)
  /-- BEQ, R110: Relative branch taken if RA equals RB. -/
  | beq (c : CoreId) (w : Insn)
  /-- BNE, R110: Relative branch taken if RA differs from RB. -/
  | bne (c : CoreId) (w : Insn)
  /-- BLT, R110: Relative branch taken if RA is less than RB, signed. -/
  | blt (c : CoreId) (w : Insn)
  /-- BGE, R110: Relative branch taken if RA is greater than or equal to RB, signed. -/
  | bge (c : CoreId) (w : Insn)
  /-- JMP, R110: Jumps to the byte address in RA, or faults on a bad target. -/
  | jmp (c : CoreId) (w : Insn)
  /-- REP, R111: Starts a counted loop whose body runs the number of times read from RA, zero included. -/
  | rep (c : CoreId) (w : Insn)
  /-- LD_1, R108: Loads 1 byte from local store. -/
  | ld1 (c : CoreId) (w : Insn) (e : Ecc)
  /-- LD_2, R108: Loads 2 bytes from local store. -/
  | ld2 (c : CoreId) (w : Insn) (e : Ecc)
  /-- LD_4, R108: Loads 4 bytes from local store. -/
  | ld4 (c : CoreId) (w : Insn) (e : Ecc)
  /-- LD_8, R108: Loads 8 bytes from local store. -/
  | ld8 (c : CoreId) (w : Insn) (e : Ecc)
  /-- ST_1, R108: Stores 1 byte to local store. -/
  | st1 (c : CoreId) (w : Insn)
  /-- ST_2, R108: Stores 2 bytes to local store. -/
  | st2 (c : CoreId) (w : Insn)
  /-- ST_4, R108: Stores 4 bytes to local store. -/
  | st4 (c : CoreId) (w : Insn)
  /-- ST_8, R108: Stores 8 bytes to local store. -/
  | st8 (c : CoreId) (w : Insn)
  /-- VLD, R108: Loads 128 bytes from local store into a vector register. -/
  | vld (c : CoreId) (w : Insn) (es : Errs)
  /-- VST, R108: Stores a vector register to 128 bytes of local store. -/
  | vst (c : CoreId) (w : Insn)
  /-- VADD, R162: Vector add. -/
  | vadd (c : CoreId) (w : Insn)
  /-- VSUB, R162: Vector subtract. -/
  | vsub (c : CoreId) (w : Insn)
  /-- VMUL, R162: Vector multiply. -/
  | vmul (c : CoreId) (w : Insn)
  /-- VFMA, R162: Vector fused multiply-add with one rounding. -/
  | vfma (c : CoreId) (w : Insn)
  /-- VMIN, R162: Vector minimum, where a NaN operand yields the other. -/
  | vmin (c : CoreId) (w : Insn)
  /-- VMAX, R162: Vector maximum, where a NaN operand yields the other. -/
  | vmax (c : CoreId) (w : Insn)
  /-- VCMP, R162: Vector compare producing INT32 0 or 1. -/
  | vcmp (c : CoreId) (w : Insn)
  /-- VSEL, R162: Vector select by the RC lanes. -/
  | vsel (c : CoreId) (w : Insn)
  /-- VCVT, R162: Vector format conversion. -/
  | vcvt (c : CoreId) (w : Insn)
  /-- VEXP2, R164: Vector base-2 exponential. -/
  | vexp2 (c : CoreId) (w : Insn)
  /-- VLOG2, R164: Vector base-2 logarithm. -/
  | vlog2 (c : CoreId) (w : Insn)
  /-- VRSQRT, R164: Vector reciprocal square root. -/
  | vrsqrt (c : CoreId) (w : Insn)
  /-- VRCP, R164: Vector reciprocal. -/
  | vrcp (c : CoreId) (w : Insn)
  /-- VSUM, R164: Lane-tree sum placed in every lane. -/
  | vsum (c : CoreId) (w : Insn)
  /-- VMAXR, R164: Maximum over lanes placed in every lane. -/
  | vmaxr (c : CoreId) (w : Insn)
  /-- VBCAST, R162: Broadcasts one lane of RA to every lane. -/
  | vbcast (c : CoreId) (w : Insn)
  /-- VLANE, R162: Writes each lane's number into the lane. -/
  | vlane (c : CoreId) (w : Insn)
  /-- VTOPK, R165: Merges 32 new values into the running list of the 32 largest values. -/
  | vtopk (c : CoreId) (w : Insn)
  /-- ACC_CLR, R149: Clears the accumulator file. -/
  | accClr (c : CoreId) (w : Insn)
  /-- MMA4, R147: Adds the exact 4-bit block products of two tiles to the accumulator file. -/
  | mma4 (c : CoreId) (w : Insn) (es : Errs)
  /-- MMAB, R148: Adds the BF16 products of two tiles to the FP32 accumulator entries. -/
  | mmab (c : CoreId) (w : Insn) (es : Errs)
  /-- WOUT, R157: Writes the accumulator file out to BF16 or FP8, releasing the file when RELEASE is set. -/
  | wout (c : CoreId) (w : Insn)
  /-- ACC_SAVE, R152: Writes a 16 KiB image of the accumulator file, releasing the file when RELEASE is set. -/
  | accSave (c : CoreId) (w : Insn)
  /-- ACC_LOAD, R153: Replaces the accumulator file with a consistent image. -/
  | accLoad (c : CoreId) (w : Insn) (es : Errs)
  /-- PACK, R158: Encodes seven accumulator images into a pack tile with a sidecar. -/
  | pack (c : CoreId) (w : Insn) (es : Errs)
  /-- DEC, R350: Decodes a run of compressed blocks into local store, refetching a failing block once. -/
  | dec (c : CoreId) (w : Insn) (far farAgain : Bytes) (es : Errs)
  /-- STREAM_SHARD_REHASH, R352: The shard holding a failing block in a footprint is re-hashed to decide between a bad shard and STREAM_DATA. -/
  | streamShardRehash (c : CoreId) (x : CtxId) (es : Errs)
  /-- ENC, R353: Encodes local-store data into compressed blocks, or values into pack tiles. -/
  | enc (c : CoreId) (w : Insn) (es : Errs)
  /-- SYNC_S, R349: Waits until the context's stream command has completed. -/
  | syncS (c : CoreId) (w : Insn)
  /-- STREAM_COMPLETE, R125: A stream command ends by writing its completion word and releasing its table-slot reference. -/
  | streamComplete (c : CoreId) (x : CtxId)
  /-- SEND, R112: Sends a message from local store to a receive queue. -/
  | send (c : CoreId) (w : Insn) (es : Errs)
  /-- RQCFG, R113: Configures a receive-queue ring. -/
  | rqcfg (c : CoreId) (w : Insn)
  /-- RECV, R115: Returns the header of the oldest unreceived message, or waits in WAIT_RECV. -/
  | recv (c : CoreId) (w : Insn)
  /-- RELEASE, R116: Frees the lines and header entry of the oldest received message of a queue. -/
  | release (c : CoreId) (w : Insn)
  /-- DMA, R123: Starts a local-store DMA pull or push as 4 KiB bulk transfers. -/
  | dma (c : CoreId) (w : Insn) (es : Errs)
  /-- DMA_COMPLETE, R125: A DMA ends by writing its completion word, and faults its context on REMOTE_ERR. -/
  | dmaComplete (c : CoreId) (id : Nat) (failed : Bool)
  /-- RLD_4, R118: Remote 4-byte load; the context waits in WAIT_REMOTE. -/
  | rld4 (c : CoreId) (w : Insn)
  /-- RLD_8, R118: Remote 8-byte load; the context waits in WAIT_REMOTE. -/
  | rld8 (c : CoreId) (w : Insn)
  /-- RLD_V, R118: Remote 128-byte load into a vector register. -/
  | rldV (c : CoreId) (w : Insn)
  /-- RST_4, R118: Remote 4-byte store; the context continues. -/
  | rst4 (c : CoreId) (w : Insn)
  /-- RST_8, R118: Remote 8-byte store; the context continues. -/
  | rst8 (c : CoreId) (w : Insn)
  /-- RST_V, R118: Remote 128-byte store of a vector register. -/
  | rstV (c : CoreId) (w : Insn)
  /-- RAMO, R119: Remote atomic performed at the home, returning the old value. -/
  | ramo (c : CoreId) (w : Insn)
  /-- TAKE, R138: Requests the next tile descriptor from the wing's tile list. -/
  | take (c : CoreId) (w : Insn)
  /-- FENCE, R126: Waits until the context's earlier remote stores, DMAs and sends have completed. -/
  | fence (c : CoreId) (w : Insn)
  /-- BAR_A, R132: Arrives at a barrier after an implied fence and continues; the member-count-th arrival completes the phase. -/
  | barA (c : CoreId) (w : Insn)
  /-- BAR_W, R132: Waits until the phase of the context's last arrival has completed. -/
  | barW (c : CoreId) (w : Insn)
  /-- BAR, R132: BAR.A followed by BAR.W. -/
  | bar (c : CoreId) (w : Insn)
  /-- YIELD, R72: Returns the context to READY and frees the issue slot. -/
  | yield (c : CoreId) (w : Insn)
  /-- HALT, R68: Puts the context in HALTED and frees the hearth if the context holds it. -/
  | halt (c : CoreId) (w : Insn)
  /-- TIME, R102: Reads rack time from the wing's rack-time register. -/
  | time (c : CoreId) (w : Insn)
  /-- RDCSR, R109: Reads a core value selected by IMM into RD. -/
  | rdcsr (c : CoreId) (w : Insn)
  /-- SCHEDULER_SELECT, R72: With the issue slot free, the next READY context in rotation is given the slot after a two-cycle switch. -/
  | schedulerSelect (c : CoreId)
  /-- CTX_START, R68: A steward START makes a HALTED context READY at a start address. -/
  | ctxStart (c : CoreId) (x : CtxId) (start : BitVec 18)
  /-- CTX_STOP, R70: A steward STOP halts a context, at once or once its remote response arrives. -/
  | ctxStop (c : CoreId) (x : CtxId)
  /-- IMEM_UNCORRECTABLE_FETCH, R82: A fetch of an uncorrectable instruction word puts the context in WAIT_IMEM and asks the steward to rewrite the word. -/
  | imemUncorrectableFetch (c : CoreId) (e : Ecc)
  /-- IMEM_WORD_REWRITE, R82: The steward's rewrite of the word from the cellar image completes and the waiting context becomes READY. -/
  | imemWordRewrite (c : CoreId) (line : BitVec 15)
  /-- LOAD_PACKET, R120: A remote load request arriving at its home is answered with DATA. -/
  | loadPacket (p : Packet) (es : Errs)
  /-- STORE_PACKET, R121: A remote store arriving at its home is written and acknowledged. -/
  | storePacket (p : Packet)
  /-- ATOMIC_PACKET, R120: A remote atomic is performed at its home and its old value is returned. -/
  | atomicPacket (p : Packet) (es : Errs)
  /-- MESSAGE_PACKET, R88: An arriving message is written into its receive ring, and the tail advances after its last byte. -/
  | messagePacket (p : Packet)
  /-- HELD_MESSAGE_DELIVER, R89: A message held for want of ring room is written once room appears. -/
  | heldMessageDeliver (c : CoreId) (q : Fin 4)
  /-- TAKE_PACKET, R204: The wing steward completes the context's last descriptor and hands out the available descriptor of smallest (STAGE, GROUP, INDEX), or STEP_END. -/
  | takePacket (p : Packet)
  /-- DESCRIPTOR_AVAILABLE, R205: A descriptor becomes available and a waiting TAKE receives it. -/
  | descriptorAvailable (w : Wing)
  /-- BULK_WRITE_PACKET, R403: A bulk write is written at its home and acknowledged. -/
  | bulkWritePacket (p : Packet)
  /-- BULK_READ_PACKET, R403: A bulk read is answered with 4 KiB of BULK_DATA. -/
  | bulkReadPacket (p : Packet) (es : Errs)
  /-- DATA_PACKET, R68: A load, atomic or TAKE result arrives and makes its waiting context READY. -/
  | dataPacket (p : Packet)
  /-- ACK_PACKET, R121: A store or write acknowledgement arrives and completes the outstanding store. -/
  | ackPacket (p : Packet)
  /-- BULK_DATA_PACKET, R124: Bulk read data is written into the reserved response sink. -/
  | bulkDataPacket (p : Packet)
  /-- ERROR_PACKET, R122: An error response completes the request and faults the context with REMOTE_ERR. -/
  | errorPacket (p : Packet)
  /-- FAB_TYPE, R403: A packet of reserved TYPE is discarded at its first router and logged. -/
  | fabType (p : Packet)
  /-- FAB_TIMEOUT, R401: A request with no response after 2 ms is answered with an error response by its sender's gateway or hall link. -/
  | fabTimeout (p : Packet)
  /-- RQ_OVERRUN, R397: A message held 1 ms for want of ring room aborts the step, and a recurrence errors the step's sequences. -/
  | rqOverrun (c : CoreId) (q : Fin 4)
  /-- XRACK_TRANSFER_COMPLETE, R409: A cross-rack transfer completes and is reported to its issuer. -/
  | xrackTransferComplete (w : Wing) (id : Nat) (failed : Bool)
  /-- CODEWORD_RECEIVE, R413: A link codeword is decoded and its link header taken; a good data codeword in sequence is accepted, otherwise NAK is sent. -/
  | codewordReceive (l : Lane) (cw : Codeword)
  /-- SPARE_LANE_RETRAIN, R414: A spare lane retrained in place of a failed lane starts carrying, and replay-buffer codewords are resent on it. -/
  | spareLaneRetrain (w : Wing) (spare : Fin 2)
  /-- MESH_UNCORRECTABLE, R415: An uncorrectable word on a mesh link, lintel lane or hall link withholds the packet and hands the work over;
  a corrected one is counted. -/
  | meshUncorrectable (k : LinkKind) (w : Wing) (header : Bytes) (e : Ecc)
  /-- LANE_TRAINED, R442: A trained lane's received identity is checked against the cabling plan and takes an outcome. -/
  | laneTrained (l : Lane) (identity : Word)
  /-- LANE_IDENTITY_TIMEOUT, R442: A lane with no identity within 100 ms of training start is held down as MISSING. -/
  | laneIdentityTimeout (l : Lane)
  /-- STEP_BOUNDARY, R243: With every contribution held, the package applies outcomes, expiry, commands, configuration, credit and the build of the next work list. -/
  | stepBoundary (cons : List ConsWord)
  /-- IDLE_BOUNDARY, R246: With no step in progress, the leader opens a boundary that closes an empty step. -/
  | idleBoundary (cons : List ConsWord) (reported : Bool)
  /-- EXPIRY_CHECK, R196: With no step running, a hall steward checks expiry every 1 ms of rack time. -/
  | expiryCheck
  /-- PACKAGE_PART_COMPLETE, R425: The package's part of the step completes, and it sends its mirror, or as a survivor its contribution. -/
  | packagePartComplete (samples : List Sample)
  /-- MIRROR_RECEIVE, R424: The partner stores the mirror's data items, compares its checks and acknowledges. -/
  | mirrorReceive (m : Mirror)
  /-- MIRROR_ACK_RECEIVE, R425: The partner's acknowledgement lets the member send its boundary contribution and write results. -/
  | mirrorAckReceive (step : DWord)
  /-- BOUNDARY_CONTRIBUTION_RECEIVE, R244: A member's boundary contribution is taken, and the boundary opens once all have arrived. -/
  | boundaryContributionReceive (k : Contribution)
  /-- WORK_LIST_RECEIVE, R255: A package compares the leader's broadcast header with its own before it starts the step. -/
  | workListReceive (h : Machine.ListHeader) (pairs : List Nat)
  /-- MANTEL_SLOT_START, R257: A valid mantel slot starts, becoming due and opening an idle boundary if no step runs. -/
  | mantelSlotStart (n : Fin 64)
  /-- PAGE_WALK, R182: Wing stewards walk the chains of the step's sequences and emit one ATTEND_PAGE descriptor per visible page. -/
  | pageWalk
  /-- LOFT_MOVE_CONFIRM, R193: A pause's copy to the loft is confirmed and the page-table entries are rewritten to loft units. -/
  | loftMoveConfirm (e : SeqIdx) (back : Option Bytes)
  /-- LOFT_MOVE_ABANDON, R194: A failed loft write or read-back abandons the move and keeps the pages in the cellar. -/
  | loftMoveAbandon (e : SeqIdx)
  /-- RESUME_COPY_BACK, R197: A resumed sequence's pages are copied back, checked, and given new frames. -/
  | resumeCopyBack (e : SeqIdx) (pages : List Bytes) (again : List Bytes) (reachable : Bool)
  /-- ROUTE_RECORD_CHECK, R210: Once a layer's ROUTE group completes, hall stewards check every routing record. -/
  | routeRecordCheck (layer : Byte) (half : Bool)
  /-- DISPATCH_HEADER_SEND, R216: After every DISPATCH descriptor for a destination completes, the source sends it a dispatch header. -/
  | dispatchHeaderSend (layer : Byte) (half : Bool) (dest : Nat)
  /-- DISPATCH_HEADER_RECEIVE, R218: A receiver checks and takes a dispatch header, and on holding all P headers knows the expert counts. -/
  | dispatchHeaderReceive (from_ : PkgId) (bytes : Bytes)
  /-- COMBINE_HEADER_SEND, R224: A receiver returns a combine header once its COMBINE descriptors for a source have completed. -/
  | combineHeaderSend (layer : Byte) (half : Bool) (src : Nat)
  /-- COMBINE_HEADER_RECEIVE, R224: A source takes a combine header and has its combined rows once all expected headers are held. -/
  | combineHeaderReceive (from_ : PkgId) (bytes : Bytes)
  /-- NOP, R280: Porch command that returns OK. -/
  | nop (p : Part) (rec : Bytes)
  /-- ADMIT, R241: Porch command that admits a sequence into the lowest FREE entry at the next boundary, or refuses it. -/
  | admitSeq (p : Part) (rec : Bytes)
  /-- CANCEL, R240: Porch command that frees a sequence's entry at the next boundary. -/
  | cancel (p : Part) (rec : Bytes)
  /-- PAUSE, R193: Porch command that pauses a sequence at the next boundary and moves its pages to the loft. -/
  | pause (p : Part) (rec : Bytes)
  /-- RESUME, R197: Porch command that resumes a paused sequence, or frees an EXPIRED or ERRORED entry. -/
  | resume (p : Part) (rec : Bytes)
  /-- SET_PRIORITY, R240: Porch command that sets a sequence's priority, clamped to PRIO_MAX. -/
  | setPriority (p : Part) (rec : Bytes)
  /-- BUDGET, R261: Porch command that sets RATE and BURST of a client the partition owns. -/
  | budget (p : Part) (rec : Bytes)
  /-- QUERY, R282: Porch command that writes a copy of a sequence-table entry to host memory. -/
  | query (p : Part) (rec : Bytes)
  /-- PROGRAM_LOAD, R142: Porch command that loads a program image into the cores at the next boundary. -/
  | programLoad (p : Part) (rec : Bytes)
  /-- PROGRAM_LOAD_HALT_TIMEOUT, R142: Cores not HALTED within 50 µs refuse the load with IMEM_BUSY and restart the previous image. -/
  | programLoadHaltTimeout
  /-- LOAD, R315: Model-slot command that takes an EVICTED slot and loads a signed model version into it. -/
  | load (p : Part) (rec : Bytes)
  /-- DRAIN, R314: Model-slot command that moves a READY slot to DRAINING. -/
  | drain (p : Part) (rec : Bytes)
  /-- EVICT, R314: Model-slot command that evicts a loading slot, or an unpinned and unseated READY slot. -/
  | evict (p : Part) (rec : Bytes)
  /-- SLOT_QUERY, R314: Model-slot command that writes the slot's registers to host memory. -/
  | slotQuery (p : Part) (rec : Bytes)
  /-- RECHECK, R314: Model-slot command that puts every shard of a slot first in the re-check order. -/
  | recheck (p : Part) (rec : Bytes)
  /-- BAD_OPCODE, R280: A porch record with an undefined opcode is accepted and returns BAD_OPCODE. -/
  | badOpcode (p : Part) (rec : Bytes)
  /-- TORN, R279: A slot showing the expected stamp whose check still fails after 10 µs is consumed as TORN. -/
  | torn (p : Part)
  /-- PROMPT_FETCH_COMPLETE, R241: The home hall's copy of the prompt ids to both members completes, or fails and errors the sequence. -/
  | promptFetchComplete (e : SeqIdx) (ids : Option Bytes)
  /-- PORCH_UNBACKED_ACCESS, R274: An access to the unbacked part of a porch aperture is discarded or returns all ones, and is logged once. -/
  | porchUnbackedAccess (q : Requester) (p : Part) (off : BitVec 24) (w : Option Word)
  /-- RESULT_BATCH_WRITE, R287: After the mirror is acknowledged, the hall writes a result batch as entries, header and PHASE_WORD, holding what does not fit. -/
  | resultBatchWrite
  /-- IRQ_MODERATION_TIMEOUT, R292: TIME_US after the first unsignalled batch, the held RESULT vector is raised. -/
  | irqModerationTimeout (p : Part)
  /-- BATCH_CONFIRM, R298: A read of the ring completing after a PHASE_WORD write confirms the batch to the partner. -/
  | batchConfirm (p : Part) (step : DWord) (peer : Bool)
  /-- RING_RESET, R293: POR_CTL.RING_RESET sets the producer index to zero, or is refused while the ring is enabled. -/
  | ringReset (q : Requester) (p : Part) (v : Word)
  /-- PORCH_RESET, R299: POR_CTL.PORCH_RESET sets NEXT to 1, or is refused while the porch is enabled. -/
  | porchReset (q : Requester) (p : Part) (v : Word)
  /-- MANIFEST_READ_COMPLETE, R315: The home package has read and checked the manifest and sends it to every member. -/
  | manifestReadComplete (m : SlotIdx) (bytes : Option Bytes) (fields : List DWord)
  /-- MANIFEST_RECEIVE, R315: A member receives the manifest, checks its signature and reports. -/
  | manifestReceive (m : SlotIdx) (bytes : Bytes)
  /-- SHARD_ARRIVAL, R318: An arriving shard is hashed and checked, then written and sent to the partner, or fetched again. -/
  | shardArrival (m : SlotIdx) (k : Nat) (data : Option Bytes)
  /-- OBJECT_VERIFY_COMPLETE, R319: A package finishes checking its objects in VERIFYING, applies relocations and reports. -/
  | objectVerifyComplete (m : SlotIdx)
  /-- TABLE_SLOT_LOAD, R344: A pending table load is written into its wing slot once the slot's in-flight count reaches zero. -/
  | tableSlotLoad (w : Wing) (n : Fin 16)
  /-- SHARD_RECHECK, R329: Sweep work re-hashes a resident shard within its interval. -/
  | shardRecheck (m : SlotIdx) (k : Nat) (es : Errs)
  /-- SHARD_REPAIR, R330: A bad shard is read from the partner or the hosts and checked, and the package rejoins. -/
  | shardRepair (m : SlotIdx) (k : Nat) (copy : Option Bytes)
  /-- HBM_LANE_REMAP, R367: An implicated DQ lane is remapped to a redundant lane and the channel retrained. -/
  | hbmLaneRemap (st : Stack) (ch : Fin 16) (dq : Fin 64)
  /-- ROW_PPR, R368: Marked rows are spared by post-package repair while the package is out or at bring-up. -/
  | rowPpr (st : Stack) (bank row : Nat)
  /-- SCRUB_READ, R369: Scrub reads and corrects lines of its stack as sweep work. -/
  | scrubRead (line : BitVec 34) (e : Ecc)
  /-- SCRUB_LATE, R370: A scrub interval ending before its pass completes sets LATE and is logged. -/
  | scrubLate
  /-- CEL_PROBE_WRITE, R361: Writing CEL_PROBE maps the address to stack, pseudo-channel and plane in CEL_PROBE_RES. -/
  | celProbeWrite (q : Requester) (v : Word)
  /-- GATHER, R375: A larder command gathers embedding rows by key and pools them per bag. -/
  | gather (w : Wing) (far : Bytes) (es : Errs)
  /-- LARDER_COMPLETE, R377: With every output written, the larder sends its completion message. -/
  | larderComplete (w : Wing)
  /-- HEARTBEAT_SEND, R427: Every 10 µs a member sends a heartbeat on the pair link. -/
  | heartbeatSend
  /-- HEARTBEAT_RECEIVE, R427: A heartbeat from the partner is taken. -/
  | heartbeatReceive
  /-- PAIR_ALIVE_TOGGLE, R421: Every 10 µs the package toggles PAIR_ALIVE_OUT while it is PAIRED, ALONE or REJOINING. -/
  | pairAliveToggle
  /-- PAIR_ALIVE_EDGE, R427: An edge on PAIR_ALIVE_IN shows the partner alive. -/
  | pairAliveEdge
  /-- PAIR_LINK_SILENT, R427: No heartbeat for 200 µs: with PAIR_ALIVE toggling, PAIR_LINK_DOWN; with both silent, the partner is declared lost. -/
  | pairLinkSilent
  /-- PAIR_ALIVE_SILENT, R427: PAIR_ALIVE silent for 200 µs: with the link alive, PAIR_ALIVE_FAULT; with both silent, the partner is declared lost. -/
  | pairAliveSilent
  /-- PAIR_LINK_DOWN, R420: A pair link left with fewer than 8 lanes is down, and position 1 hands its work over. -/
  | pairLinkDown
  /-- CLAIM, R428: The arbiter grants the first claim for a pair in an attempt and denies later ones. -/
  | claim (from_ : PkgId) (pair : Nat) (attempt : Nat)
  /-- CLAIM_GRANT, R428: A claimant granted the claim broadcasts TAKEOVER. -/
  | claimGrant
  /-- CLAIM_DENY, R428: A claimant denied the claim goes OUT with PAIR_SPLIT. -/
  | claimDeny
  /-- CLAIM_TIMEOUT, R428: A claimant with no answer within 100 µs goes OUT with PAIR_SPLIT. -/
  | claimTimeout
  /-- HANDOVER, R429: A package stops issue, sends HANDOVER, holds PAIR_ALIVE low and enters OUT. -/
  | handover (code : Code)
  /-- HANDOVER_RECEIVE, R429: A partner receiving HANDOVER takes over at once without a claim. -/
  | handoverReceive
  /-- TAKEOVER, R431: A member receiving TAKEOVER treats LOST as lost, reassigns its work to SURVIVOR and restarts from the last complete boundary. -/
  | takeover (bytes : Bytes)
  /-- STEP_ABORT, R534: A member accepting STEP_ABORT aborts the attempt and restarts the step from its boundary. -/
  | stepAbort (bytes : Bytes)
  /-- STEP_ABORT_RESEND, R533: STEP_ABORT is resent to a member that has not acknowledged within 20 µs. -/
  | stepAbortResend (dest : PkgId)
  /-- REJOIN, R436: PAIR_MAINT.REJOIN starts a rejoin from OUT while the partner is ALONE. -/
  | rejoin (q : Requester)
  /-- REJOIN_COPY_COMPLETE, R437: The rejoiner has copied and rewritten all state and reloaded its cores. -/
  | rejoinCopyComplete (copy : Machine.RejoinCopy)
  /-- LEAVE, R436: PAIR_MAINT.LEAVE takes a package from OUT or HALTED to OUTSIDE. -/
  | leave (q : Requester)
  /-- RELEASE_LANE, R443: PAIR_MAINT.RELEASE releases a mapped-out lane to retrain and repeat the cabling check. -/
  | releaseLane (q : Requester) (lane : BitVec 7)
  /-- FORCE, R428: PAIR_MAINT.FORCE makes position 1 of a one-pair household take over. -/
  | force (q : Requester)
  /-- ARM, R439: PAIR_RTIME_CTL.ARM arms the load of rack time T at the next FRAME_SYNC. -/
  | arm (q : Requester)
  /-- FRAME_SYNC_EDGE, R440: A FRAME_SYNC rising edge loads an armed rack time or corrects a slip. -/
  | frameSyncEdge
  /-- FRAME_SYNC_LOST, R440: Three FRAME_SYNC edges missed in a row are logged, and counting continues. -/
  | frameSyncLost
  /-- REFCLK_LOST, R440: With no REFCLK_RACK edge for 1 µs, the hall counts from its internal oscillator and logs. -/
  | refclkLost
  /-- PHASE_CLASS_EXPIRE, R450: A phase class with no cause for 2 µs becomes inactive and the target point is recomputed. -/
  | phaseClassExpire
  /-- RAIL_MOVE_COMPLETE, R448: A rail reaches its target point at 10 mV/µs. -/
  | railMoveComplete
  /-- DAMPER_TOKEN_GRANT, R453: Every 100 ns the damper grants each wing a token budget from P_allow. -/
  | damperTokenGrant
  /-- DAMPER_CORRECTION, R453: Every 10 µs the energy estimate is corrected against the measured draw. -/
  | damperCorrection (draw core mv : Nat)
  /-- CAP_CEILING_UPDATE, R454: Every millisecond C_cap is set to the highest point whose predicted draw fits the cap. -/
  | capCeilingUpdate
  /-- PWR_CAP_WRITE, R456: A write of PWR_CAP sets the cap, ends any safe cap, and records the lag. -/
  | pwrCapWrite (q : Requester) (v : Word)
  /-- KICK, R458: PWR_HB.KICK restarts the 5 s rack-manager heartbeat timer. -/
  | kick (q : Requester)
  /-- HB_LOST, R458: Five seconds without a kick apply the safe cap and log HB_LOST. -/
  | hbLost
  /-- BRAKE_ASSERT, R459: BRAKE_N falling holds the draw to 25 % of the cap within 20 µs. -/
  | brakeAssert
  /-- BRAKE_RELEASE, R459: BRAKE_N rising lets P_allow rise at 150 W/µs. -/
  | brakeRelease
  /-- PWR_WARN_ASSERT, R460: PWR_WARN_N asserted applies the brake action at the preset target and logs PWR_WARN. -/
  | pwrWarnAssert
  /-- PWR_WARN_RELEASE, R460: PWR_WARN_N deasserted releases its hold. -/
  | pwrWarnRelease
  /-- PWR_PACE_WRITE, R462: A write of PWR_PACE sets pace-locked mode and its rates, or is refused with PACE_RANGE. -/
  | pwrPaceWrite (q : Requester) (v : Word)
  /-- RAIL_UNDERVOLT, R464: A rail below 0.50 V for 2 µs stops issue and hands the work over. -/
  | railUndervolt (r : Rail) (mv : Nat)
  /-- INPUT_UV, R465: Input below 56 V for 10 µs applies the preset brake and logs. -/
  | inputUv (mv : Nat)
  /-- INPUT_UV_RELEASE, R465: Input back above 57 V releases the undervoltage brake. -/
  | inputUvRelease
  /-- INPUT_CUT, R465: Input below 50 V or above 70 V cuts issue, saves the ledger, records INPUT_CUT and disconnects. -/
  | inputCut (mv : Nat)
  /-- SENSOR_READ, R466: Each junction sensor is read every 10 µs and the thermal levels are applied. -/
  | sensorRead (n : Fin 72) (reading : Option Int)
  /-- THROTTLE_STEP, R467: Every 100 µs in THROTTLE, or after it clears, C_thm moves one point. -/
  | throttleStep
  /-- TRIP_RECOVER, R467: Every sensor below 85 °C for 60 s raises a tripped package from Smoored. -/
  | tripRecover
  /-- GLOW_ENTRY, R470: Idle for GLOW_US, the package enters Glow. -/
  | glowEntry
  /-- WORK_DUE_WAKE, R470: Work becoming due raises a package from Glow, Ember or Banked toward Burning. -/
  | workDueWake
  /-- EMBER_IDLE_ENTRY, R470: An OUTSIDE or OUT package idle for EMBER_MS enters Ember. -/
  | emberIdleEntry
  /-- BANKED_IDLE_ENTRY, R470: An OUTSIDE or OUT package in Ember for BANKED_S enters Banked. -/
  | bankedIdleEntry
  /-- IDLE_REPORT, R471: The leader takes a member's IDLE packet and sends REST once every member has been idle for EMBER_MS. -/
  | idleReport (from_ : PkgId) (floor : BitVec 3) (idle : Bool)
  /-- REST, R471: A member receiving REST schedules its Ember and Banked entry times. -/
  | rest (entry : DWord) (banked : Option DWord)
  /-- REST_EMBER_ENTRY, R471: At REST's first entry time every member enters Ember. -/
  | restEmberEntry
  /-- REST_BANKED_ENTRY, R471: At REST's second entry time every member not woken moves to Banked. -/
  | restBankedEntry
  /-- SCHEDULED_WAKE, R472: At the computed wake time W each resting member rises to Glow. -/
  | scheduledWake
  /-- WAKE_N_FALL, R472: A falling edge on WAKE_N raises every member of a resting household to Glow. -/
  | wakeNFall
  /-- PORCH_WATCH, R473: Every 2 µs at rest, Wainil checks each enabled porch and drives WAKE_N when the expected stamp appears. -/
  | porchWatch
  /-- PWR_WAKE, R470: PWR_STATE_CTL.WAKE wakes the package, and its household through WAKE_N. -/
  | pwrWake (q : Requester)
  /-- SMOOR, R470: PWR_STATE_CTL.SMOOR enters Smoored outside service, or is refused with SMOORED_MEMBER. -/
  | smoor (q : Requester)
  /-- WEAR_LEDGER_ACCRUE, R95: Every 1 ms Wainil adds stress to each boost-capable core's ledger and warns at the threshold. -/
  | wearLedgerAccrue
  /-- LEDGER_SAVE, R96: Every 60 s Wainil writes the wear ledger to flash. -/
  | ledgerSave
  /-- KINDLING_ROLE_REASSIGN, R98: At the first boundary after 3,600 s or a retirement, boost roles go to the lowest ledgers. -/
  | kindlingRoleReassign
  /-- IN_SERVICE_REMAP, R92: Wainil remaps a failed core, records it in flash and reloads the shifted cores before the package rejoins. -/
  | inServiceRemap (c : CoreId)
  /-- LOG_FLASH_APPEND, R483: Within 100 ms of logging, records of grave events are appended to flash. -/
  | logFlashAppend
  /-- MGT_LOG_SEL_HI_WRITE, R482: Writing MGT_LOG_SEL_HI selects a log record for reading. -/
  | mgtLogSelHiWrite (q : Requester) (v : Word)
  /-- SET_ENDPOINT_ID, R484: MCTP control command that sets the endpoint ID. -/
  | setEndpointId (b : Binding) (eid : Byte)
  /-- GET_ENDPOINT_ID, R484: MCTP control command that returns the endpoint ID. -/
  | getEndpointId (b : Binding)
  /-- GET_ENDPOINT_UUID, R484: MCTP control command that returns the endpoint UUID. -/
  | getEndpointUuid (b : Binding)
  /-- GET_MCTP_VERSION_SUPPORT, R484: MCTP control command that returns the supported versions. -/
  | getMctpVersionSupport (b : Binding)
  /-- GET_MESSAGE_TYPE_SUPPORT, R484: MCTP control command that returns the supported message types. -/
  | getMessageTypeSupport (b : Binding)
  /-- MCTP_UNSUPPORTED_TYPE, R484: An MCTP message of an unsupported type is discarded. -/
  | mctpUnsupportedType (b : Binding) (kind : Byte)
  /-- GET_TID, R485: PLDM Type 0 command that returns the terminus ID. -/
  | getTid (b : Binding)
  /-- SET_TID, R485: PLDM Type 0 command that sets the terminus ID. -/
  | setTid (b : Binding) (tid : Byte)
  /-- GET_PLDM_VERSION, R485: PLDM Type 0 command that returns the PLDM version. -/
  | getPldmVersion (b : Binding)
  /-- GET_PLDM_TYPES, R485: PLDM Type 0 command that returns the supported types. -/
  | getPldmTypes (b : Binding)
  /-- GET_PLDM_COMMANDS, R485: PLDM Type 0 command that returns the supported commands. -/
  | getPldmCommands (b : Binding)
  /-- GET_PDR_REPOSITORY_INFO, R485: PLDM Type 2 command that returns repository information. -/
  | getPdrRepositoryInfo (b : Binding)
  /-- GET_PDR, R485: PLDM Type 2 command that returns a PDR. -/
  | getPdr (b : Binding) (record : Nat)
  /-- GET_SENSOR_READING, R485: PLDM Type 2 command that returns a numeric sensor reading. -/
  | getSensorReading (b : Binding) (sensor : BitVec 16)
  /-- GET_STATE_SENSOR_READINGS, R485: PLDM Type 2 command that returns state sensor readings. -/
  | getStateSensorReadings (b : Binding) (sensor : BitVec 16)
  /-- SET_EVENT_RECEIVER, R486: PLDM Type 2 command that sets the event receiver. -/
  | setEventReceiver (b : Binding) (eid : Byte)
  /-- POLL_FOR_PLATFORM_EVENT_MESSAGE, R486: PLDM Type 2 command that returns a pollable event. -/
  | pollForPlatformEventMessage (b : Binding)
  /-- PLDM_SENSOR_REFRESH, R485: Every 10 ms the readings are refreshed and a PlatformEventMessage is sent for each crossing or change. -/
  | pldmSensorRefresh (temps : List Int)
  /-- PLATFORM_EVENT_RESEND, R486: An unacknowledged event message is resent at 250 ms, and after three tries left pollable and logged. -/
  | platformEventResend (n : Nat)
  /-- QUERY_DEVICE_IDENTIFIERS, R491: PLDM Type 5 command that returns the device descriptors. -/
  | queryDeviceIdentifiers (b : Binding)
  /-- GET_FIRMWARE_PARAMETERS, R491: PLDM Type 5 command that returns the firmware parameters. -/
  | getFirmwareParameters (b : Binding)
  /-- REQUEST_UPDATE, R494: PLDM Type 5 command that starts an update, or returns ALREADY_IN_UPDATE_MODE. -/
  | requestUpdate (b : Binding) (maxTransfer : Nat)
  /-- PASS_COMPONENT_TABLE, R491: PLDM Type 5 command that passes the component table. -/
  | passComponentTable (b : Binding)
  /-- UPDATE_COMPONENT, R492: PLDM Type 5 command that begins staging the image into the update buffer. -/
  | updateComponent (b : Binding) (size : Nat)
  /-- REQUEST_FIRMWARE_DATA_RESPONSE, R491: Firmware data answering the device's RequestFirmwareData is staged, and the next request is issued. -/
  | requestFirmwareDataResponse (b : Binding) (data : Bytes)
  /-- APPLY_COMPLETE, R492: Apply of the image to flash completes and is reported, setting PENDING_ACT. -/
  | applyComplete (good : Bool)
  /-- ACTIVATE_FIRMWARE, R493: PLDM Type 5 command that resets into the new image outside service, or defers activation to the next reset. -/
  | activateFirmware (b : Binding)
  /-- GET_STATUS, R491: PLDM Type 5 command that returns the update status. -/
  | getStatus (b : Binding)
  /-- CANCEL_UPDATE_COMPONENT, R491: PLDM Type 5 command that cancels the component transfer. -/
  | cancelUpdateComponent (b : Binding)
  /-- CANCEL_UPDATE, R494: PLDM Type 5 command that cancels the update, answered only after any apply has ended. -/
  | cancelUpdate (b : Binding)
  /-- FW_UPDATE_TIMEOUT, R494: An update idle for 120 s before apply is cancelled and its buffer discarded. -/
  | fwUpdateTimeout
  /-- GET_VERSION, R498: SPDM request that returns the supported version. -/
  | getVersion (b : Binding)
  /-- GET_CAPABILITIES, R498: SPDM request that returns the capabilities. -/
  | getCapabilities (b : Binding)
  /-- NEGOTIATE_ALGORITHMS, R498: SPDM request that negotiates the algorithms. -/
  | negotiateAlgorithms (b : Binding)
  /-- GET_DIGESTS, R498: SPDM request that returns the certificate digests. -/
  | getDigests (b : Binding)
  /-- GET_CERTIFICATE, R498: SPDM request that returns the slot 0 certificate chain. -/
  | getCertificate (b : Binding) (offset length : Nat)
  /-- CHALLENGE, R498: SPDM request that is answered with a response signed by the device key. -/
  | challenge (b : Binding) (nonce : Bytes)
  /-- GET_MEASUREMENTS, R499: SPDM request that returns the measurement blocks. -/
  | getMeasurements (b : Binding) (index : Byte) (nonce : Bytes)
  /-- SPDM_UNSUPPORTED_REQUEST, R498: An unsupported SPDM request returns ERROR with UnsupportedRequest. -/
  | spdmUnsupportedRequest (b : Binding) (kind : Byte)
  /-- RECOVERY_REQUEST, R490: A partner receiving RECOVERY_REQUEST sends its image if its own is valid. -/
  | recoveryRequest
  /-- RECOVERY_IMAGE_RECEIVE, R490: A complete recovery image is checked, programmed, read back and booted, or refused. -/
  | recoveryImageReceive (image : Bytes) (readBackGood : Bool)
  /-- RECOVERY_PARTNER_TIMEOUT, R490: After 2 s the partner source ends and host and sideband sources are offered. -/
  | recoveryPartnerTimeout
  /-- RECOVERY_GO, R490: MGT_RECOVERY.GO checks the image in the update buffer while in recovery. -/
  | recoveryGo (q : Requester) (readBackGood : Bool)
  /-- OWNER_RECORD, R502: A submitted OWNER record, once checked, burns the owner key digest into the fuses. -/
  | ownerRecord (q : Requester)
  /-- MODEL_KEY_RECORD, R503: A submitted MODEL_KEY record, once checked, writes a model-signing key and its sequence to flash. -/
  | modelKeyRecord (q : Requester)
  /-- DEBUG_AUTH_RECORD, R507: A submitted DEBUG_AUTH record, once checked, grants a debug scope and consumes the nonce. -/
  | debugAuthRecord (q : Requester)
  /-- RECORD_CHECK_COMPLETE, R501: Checking a submitted record ends, BUSY clears and RESULT is set. -/
  | recordCheckComplete
  /-- GEN, R505: SEC_NONCE_CTL.GEN draws a fresh nonce and invalidates the earlier one. -/
  | gen (q : Requester)
  /-- REVOKE, R507: SEC_DEBUG.REVOKE ends the debug grant. -/
  | revoke (q : Requester)
  /-- DEBUG_GRANT_EXPIRE, R507: Rack time reaching NOT_AFTER ends the grant and locks perturbation. -/
  | debugGrantExpire
  /-- COMMIT, R495: SEC_SVN.COMMIT raises the fused minimum SVN after 24 h of running, or is refused with SVN_EARLY. -/
  | commit (q : Requester)
  /-- MGT_HANDOVER, R496: MGT_MAINT.HANDOVER hands the work over from PAIRED, or is refused. -/
  | mgtHandover (q : Requester)
  /-- RETIRE, R496: MGT_MAINT.RETIRE names a logical core as failed for remap while OUT or OUTSIDE. -/
  | retire (q : Requester) (v : Word)
  /-- POWER_UP, R511: A cold power-up runs ROM, image, rails, cellar and cores to OUTSIDE in Glow. -/
  | powerUp (b : BringUp)
  /-- PAIR_LINK_TRAIN_START, R513: Once stage 4 is done and every pair-link plan entry is VALID, the pair link trains. -/
  | pairLinkTrainStart
  /-- FAB_ENABLE_WRITE, R513: Setting FAB_CTL.ENABLE starts training and checking of the wing's rack lanes. -/
  | fabEnableWrite (q : Requester) (w : Wing) (v : Word)
  /-- PERST_ASSERT, R517: PERST# asserted resets the endpoint and partitions' porch state without resetting the package. -/
  | perstAssert
  /-- PERST_DEASSERT, R516: PERST# deasserted lets the LTSSM leave Detect.Quiet once t3 is reached. -/
  | perstDeassert
  /-- PF_FLR, R517: A Function Level Reset of PF0 performs an endpoint reset. -/
  | pfFlr
  /-- VF_FLR, R518: A Function Level Reset of a VF resets its partition and cancels its sequences at the next boundary. -/
  | vfFlr (p : Part)
  /-- GO, R519: HAL_FORM.GO sends FORM packets to start household formation, or a join. -/
  | go (q : Requester)
  /-- FORM, R520: The leader takes FORM reports and runs the formation checks in order. -/
  | form (r : FormReport)
  /-- FORM_TIMEOUT, R520: Reports missing 1 s after the leader's GO fail formation. -/
  | formTimeout
  /-- PACKAGE, R524: HAL_RESET.PACKAGE resets the package outside service, or is refused with RESET_STATE. -/
  | package (q : Requester)
  /-- WING, R525: A HAL_RESET.WING bit resets a wing outside service. -/
  | wing (q : Requester) (w : Wing)
  /-- WING_RESET_COMPLETE, R525: A wing reset completes, the wing reaches READY and its bit clears. -/
  | wingResetComplete (w : Wing)
  /-- CORE_RESET, R526: A wing steward resets a core's contexts, queues, file and status registers. -/
  | coreReset (c : CoreId)
  /-- CORE_CHUNK, R539: Between steps the sweep stops a core, runs BIST and golden vectors for up to 14,400 cycles, then resets and restarts it. -/
  | coreChunk (c : CoreId) (good : Bool)
  /-- LANE_BER_TEST, R537: An idle lane runs PRBS31 for 1 ms through the decoder. -/
  | laneBerTest (l : Lane) (uncorrectable corrected : Nat)
  /-- SWEEP_LATE, R541: A core not swept within its interval is logged once per missed interval. -/
  | sweepLate (c : CoreId)
  /-- MATE_DET_BREAK, R575: On withdrawal the package cuts issue, saves the ledger and disconnects V64. -/
  | mateDetBreak
  /-- JTAG_EXTEST, R573: JTAG EXTEST, acting as BYPASS unless OUTSIDE in Glow or Burning. -/
  | jtagExtest
  /-- JTAG_EXTEST_PULSE, R573: JTAG EXTEST_PULSE, with the same restriction. -/
  | jtagExtestPulse
  /-- JTAG_EXTEST_TRAIN, R573: JTAG EXTEST_TRAIN, with the same restriction. -/
  | jtagExtestTrain
  /-- JTAG_IDCODE, R573: JTAG IDCODE, returning the revision and part number. -/
  | jtagIdcode
  /-- JTAG_PRIVATE_INSTRUCTION, R506: A Lezotra private JTAG instruction, acting as BYPASS without a JTAG_PRIVATE grant. -/
  | jtagPrivateInstruction
  /-- HEARTH_INSTRUCTION_COMPLETE, R159: The hearth finishes a queued instruction, starts the next in its queue, and on a releasing write-out frees the hearth so that contexts waiting in WAIT_SYNC for it become READY. -/
  | hearthInstructionComplete (c : CoreId)
  /-- SEND_COMPLETE, R126: The message unit has read a send's payload from local store, completing the send, freeing its descriptor and letting a FENCE that waits on it proceed. -/
  | sendComplete (c : CoreId) (id : Nat)
  /-- REFCLK_RESTORED, R440: REFCLK_RACK returns after a loss, REFCLK_OK sets again and rack time is again counted from the rack reference instead of the internal oscillator. -/
  | refclkRestored
  /-- PCIE_LINK_TRAINING, R516: The PCIe endpoint's link training ends, either reaching L0 in Flit mode, after which configuration space becomes ready, or holding in training and logging PCIE_NO_FLIT. -/
  | pcieLinkTraining (gtps width : Nat) (bme : Bool)
  /-- ENTDAA, R484: The I3C bus owner's ENTDAA assigns Wainil its dynamic address, shown in MGT_MCTP.I3C_DA. -/
  | entdaa (address : BitVec 7)
  deriving DecidableEq, Repr

end Sys2Proof
end

