-- ==== Sys2Proof/Decode.lean ====
section
/-!
DEFINITION. The part has no instruction decoder of a processor's kind: its table gives no row any bits. A command reaches the
block as a command (notes/assumptions/2.md); an instruction word travels as an operand of its row and its fields are read in
Machine/Operands.lean.
-/
namespace Sys2Proof

/-- The command that a word spells by the table's bits: the table gives bits to no row, so none. -/
def decodeTableWord (_nbits _w : Nat) : Option Instr := none

end Sys2Proof
end

