-- ==== Sys2Proof/Config.lean ====
section
/-!
DEFINITION. What the spec leaves open and no rule fixes: opaque constants that no proof can see through. A claim holds whatever they are.
-/
namespace Sys2Proof

/-- Free value number `n` of the run: what the spec leaves undefined, drawn in order (notes/assumptions/1.md). -/
opaque Config.freeWord (n : Nat) : BitVec 64
/-- A signature under the device key (R498, R499) (DESIGN CHOICE, notes/assumptions/111.md). -/
opaque Config.deviceSign (msg : List (BitVec 8)) : List (BitVec 8)
/-- The certificate chain of the identity sector (R480, R499) (DESIGN CHOICE, notes/assumptions/111.md). -/
opaque Config.certChain (n : Nat) : List (BitVec 8)
/-- The endpoint UUID of a package (R484) (DESIGN CHOICE, notes/assumptions/111.md). -/
opaque Config.endpointUuid (serial : Nat) : List (BitVec 8)
/-- Draw `n` of the true random number generator (R479, R505): 16 bytes (DESIGN CHOICE, notes/assumptions/111.md). -/
opaque Config.random (n : Nat) : List (BitVec 8)
/-- The vector functions of R164 on FP32 words that none of its special cases decides: the choice among the values its bound allows (DESIGN CHOICE, notes/assumptions/17.md). -/
opaque Config.vfun (op : Nat) (x : BitVec 32) : BitVec 32
/-- A choice between two readings that the spec leaves open: 0 whether MIN and MAX are signed, 1 whether MULH is signed, 2 whether VMIN and
VMAX take the first of two zeros that differ in sign, 3 whether a short local load is sign-extended (DESIGN CHOICE, notes/assumptions/15.md). -/
opaque Config.choice (n : Nat) : Bool
/-- Scalar results that the spec does not state (R106): 0 CMP, 1 SHL, 2 SHR and 3 SAR by 64 or more (DESIGN CHOICE, notes/assumptions/15.md). -/
opaque Config.scalar (op : Nat) (a b : BitVec 64) : BitVec 64
/-- What a wing steward chooses for a descriptor and the spec does not state (R221 to R223): list and record addresses, the count
queue, the offset of a slice's weights. By kind of choice, layer, half and a number within them (DESIGN CHOICE, notes/assumptions/46.md). -/
opaque Config.area (kind layer half n : Nat) : BitVec 64
/-- The extent at which another package placed the footprint of a slot (R303), which this model does not hold (DESIGN CHOICE, notes/assumptions/132.md). -/
opaque Config.peerBase (pkg slot : Nat) : BitVec 16
/-- The energy coefficients of the damper (R452): picojoules of a token class, and the baseline watts, of the part (DESIGN CHOICE, notes/assumptions/111.md). -/
opaque Config.energy (n : Nat) : Nat
/-- Encodings of the management protocols that the spec takes from their standards (R484 to R499): the reply to a request (DESIGN CHOICE, notes/assumptions/29.md; PRESUMED, notes/assumptions/41.md). -/
opaque Config.wire (command : Nat) (fields : List Nat) : List (BitVec 8)
/-- The low bits of a unit that select bank groups and banks: R361 leaves their number to the stack (DESIGN CHOICE, notes/assumptions/107.md). -/
opaque Config.bankBits : Nat
/-- The row of a bank in which a controller places a unit, by the unit's bits above those of the bank (R361) (DESIGN CHOICE, notes/assumptions/107.md). -/
opaque Config.dramRow (upper : Nat) : Nat
/-- The code under which a stack's own corrections are logged (R359): the spec gives none (DESIGN CHOICE, notes/assumptions/129.md). -/
opaque Config.onDieCode : BitVec 16
/-- Chimney packets that the receive area of a member holds for one sender, beyond the first (R394) (DESIGN CHOICE, notes/assumptions/130.md). -/
opaque Config.chimneyArea (pkg : Nat) : Nat
/-- Spares the part left manufacture with (R379, fused): kind 0 redundant lanes of channel `n`, kind 1 spare rows of bank `n`, kind 2 the
fewest spare rows of any bank (DESIGN CHOICE, notes/assumptions/99.md). -/
opaque Config.spares (kind n : Nat) : Nat
/-- SHA-512 of the firmware-signing key, fused at manufacture (R488) (DESIGN CHOICE, notes/assumptions/111.md). -/
opaque Config.fwKeyDigest : List (BitVec 8)
/-- Bits [11:0] of IDCODE, which the supplied BSDL file gives (R573) (DESIGN CHOICE, notes/assumptions/111.md). -/
opaque Config.idcodeLow : BitVec 12
/-- The retention voltage of the core rails in Ember, mV (R469) (DESIGN CHOICE, notes/assumptions/88.md). -/
opaque Config.retentionMv : Nat
/-- What the larder takes for element `e` of a malformed pack, which the spec does not decode (R32, R371) (DESIGN CHOICE, notes/assumptions/70.md). -/
opaque Config.badElem (pack : List (BitVec 8)) (e : Nat) : BitVec 32

end Sys2Proof
end

