-- ==== Sys2Proof/Machine/Codes.lean ====
section
/-!
DEFINITION. The code numbers of R532: class in bits [15:8], place in the class's list in bits [7:0].
-/
namespace Sys2Proof.Machine

/-- Success. -/
def Err.OK : Code := 0x0000
/-- Command results (R532). -/
def Err.NO_SEQUENCE : Code := 0x0101
/-- Command results (R532). -/
def Err.CLIENT_DENIED : Code := 0x0102
/-- Command results (R532). -/
def Err.PARAM : Code := 0x0103
/-- Command results (R532). -/
def Err.LENGTH : Code := 0x0104
/-- Command results (R532). -/
def Err.MODEL_NOT_READY : Code := 0x0105
/-- Command results (R532). -/
def Err.QUOTA_FULL : Code := 0x0106
/-- Command results (R532). -/
def Err.NO_KV_PAGE : Code := 0x0107
/-- Command results (R532). -/
def Err.NOT_PAUSED : Code := 0x0108
/-- Command results (R532). -/
def Err.EXPIRED : Code := 0x0109
/-- Command results (R532). -/
def Err.ERRORED : Code := 0x010A
/-- Command results (R532). -/
def Err.TORN : Code := 0x010B
/-- Command results (R532). -/
def Err.BAD_OPCODE : Code := 0x010C
/-- Command results (R532). -/
def Err.QUERY_WRITE : Code := 0x010D
/-- Command results (R532). -/
def Err.LOFT_FULL : Code := 0x010E
/-- Command results (R532). -/
def Err.LOFT_UNREACHABLE : Code := 0x010F
/-- Command results (R532). -/
def Err.IMAGE_FORMAT : Code := 0x0110
/-- Command results (R532). -/
def Err.IMAGE_NOT_READY : Code := 0x0111
/-- Command results (R532). -/
def Err.IMEM_BUSY : Code := 0x0112
/-- Command results (R532). -/
def Err.IMAGE_UNKNOWN : Code := 0x0113
/-- Command results (R532). -/
def Err.REPAUSED : Code := 0x0114
/-- Model slots (R532). -/
def Err.MODEL_DENIED : Code := 0x0201
/-- Model slots (R532). -/
def Err.NO_FREE_SLOT : Code := 0x0202
/-- Model slots (R532). -/
def Err.LOAD_BUSY : Code := 0x0203
/-- Model slots (R532). -/
def Err.SLOT_STATE : Code := 0x0204
/-- Model slots (R532). -/
def Err.SLOT_BUSY : Code := 0x0205
/-- Model slots (R532). -/
def Err.MANIFEST_FORMAT : Code := 0x0206
/-- Model slots (R532). -/
def Err.MANIFEST_SIG : Code := 0x0207
/-- Model slots (R532). -/
def Err.PAIRS_MISMATCH : Code := 0x0208
/-- Model slots (R532). -/
def Err.ALREADY_LOADED : Code := 0x0209
/-- Model slots (R532). -/
def Err.NO_SPACE : Code := 0x020A
/-- Model slots (R532). -/
def Err.LOAD_SOURCE : Code := 0x020B
/-- Model slots (R532). -/
def Err.SHARD_DIGEST : Code := 0x020C
/-- Model slots (R532). -/
def Err.TILE_PLAN : Code := 0x020D
/-- Model slots (R532). -/
def Err.CANCELLED : Code := 0x020E
/-- Model slots (R532). -/
def Err.ATTN_MAP : Code := 0x020F
/-- Model slots (R532). -/
def Err.EXPERT_MAP : Code := 0x0210
/-- Model slots (R532). -/
def Err.TABLE_SET : Code := 0x0211
/-- Context faults (R532). -/
def Err.ILLEGAL_OP : Code := 0x0301
/-- Context faults (R532). -/
def Err.LS_RANGE : Code := 0x0302
/-- Context faults (R532). -/
def Err.LS_ALIGN : Code := 0x0303
/-- Context faults (R532). -/
def Err.LOOP_DEPTH : Code := 0x0304
/-- Context faults (R532). -/
def Err.REMOTE_ADDR : Code := 0x0305
/-- Context faults (R532). -/
def Err.REMOTE_RACK : Code := 0x0306
/-- Context faults (R532). -/
def Err.REMOTE_ALIGN : Code := 0x0307
/-- Context faults (R532). -/
def Err.REMOTE_ERR : Code := 0x0308
/-- Context faults (R532). -/
def Err.DMA_RANGE : Code := 0x0309
/-- Context faults (R532). -/
def Err.RQ_CONFIG : Code := 0x030A
/-- Context faults (R532). -/
def Err.RELEASE_EMPTY : Code := 0x030B
/-- Context faults (R532). -/
def Err.BAR_UNSET : Code := 0x030C
/-- Context faults (R532). -/
def Err.MSG_SIZE : Code := 0x030D
/-- Context faults (R532). -/
def Err.HEARTH_RANGE : Code := 0x030E
/-- Context faults (R532). -/
def Err.ACC_IMAGE : Code := 0x030F
/-- Context faults (R532). -/
def Err.STREAM_RANGE : Code := 0x0310
/-- Step faults (R532). -/
def Err.PACK_FORMAT : Code := 0x0401
/-- Step faults (R532). -/
def Err.ACC_MODE : Code := 0x0402
/-- Step faults (R532). -/
def Err.ACC_WINDOW : Code := 0x0403
/-- Step faults (R532). -/
def Err.ROUTE_RECORD : Code := 0x0404
/-- Step faults (R532). -/
def Err.DISPATCH_HEADER : Code := 0x0405
/-- Step faults (R532). -/
def Err.STALE_TABLE : Code := 0x0406
/-- Step faults (R532). -/
def Err.STREAM_CHECK : Code := 0x0407
/-- Step faults (R532). -/
def Err.STREAM_DATA : Code := 0x0408
/-- Step faults (R532). -/
def Err.LAR_CMD : Code := 0x0409
/-- Step faults (R532). -/
def Err.LAR_KEY : Code := 0x040A
/-- Step faults (R532). -/
def Err.RQ_OVERRUN : Code := 0x040B
/-- Step faults (R532). -/
def Err.MIRROR_MISMATCH : Code := 0x040C
/-- Step faults (R532). -/
def Err.LIST_MISMATCH : Code := 0x040D
/-- Step faults (R532). -/
def Err.PROMPT_FETCH : Code := 0x040E
/-- Step faults (R532). -/
def Err.LOFT_CHECK : Code := 0x040F
/-- Step faults (R532). -/
def Err.STEP_RETRY_LIMIT : Code := 0x0410
/-- Cores (R532). -/
def Err.CTX_BUSY : Code := 0x0501
/-- Cores (R532). -/
def Err.RESP_ORPHAN : Code := 0x0502
/-- Cores (R532). -/
def Err.RQ_UNSET : Code := 0x0503
/-- Cores (R532). -/
def Err.LS_UNCORRECTABLE : Code := 0x0504
/-- Cores (R532). -/
def Err.IMEM_UNCORRECTABLE : Code := 0x0505
/-- Cores (R532). -/
def Err.CORE_UNREPAIRABLE : Code := 0x0506
/-- Cores (R532). -/
def Err.WEAR_WARN : Code := 0x0507
/-- Cores (R532). -/
def Err.KINDLING_DEGRADED : Code := 0x0508
/-- Cellar (R532). -/
def Err.CEL_UNCORRECTABLE : Code := 0x0601
/-- Cellar (R532). -/
def Err.CEL_LANE_EXHAUSTED : Code := 0x0602
/-- Cellar (R532). -/
def Err.CEL_PPR_EXHAUSTED : Code := 0x0603
/-- Cellar (R532). -/
def Err.SCRUB_LATE : Code := 0x0604
/-- Cellar (R532). -/
def Err.CELLAR_ERR : Code := 0x0605
/-- Cellar (R532). -/
def Err.CEL_TRAIN_FAIL : Code := 0x0606
/-- Fabric (R532). -/
def Err.FAB_ADDR : Code := 0x0701
/-- Fabric (R532). -/
def Err.FAB_TIMEOUT : Code := 0x0702
/-- Fabric (R532). -/
def Err.FAB_TYPE : Code := 0x0703
/-- Fabric (R532). -/
def Err.LANE_FAILED : Code := 0x0704
/-- Fabric (R532). -/
def Err.MESH_UNCORRECTABLE : Code := 0x0705
/-- Fabric (R532). -/
def Err.MESH_FAULT : Code := 0x0706
/-- Fabric (R532). -/
def Err.DISPATCH_DUP : Code := 0x0707
/-- Fabric (R532). -/
def Err.ABORT_BAD : Code := 0x0708
/-- Pairs and rack (R532). -/
def Err.PAIR_LOST : Code := 0x0801
/-- Pairs and rack (R532). -/
def Err.HANDOVER : Code := 0x0802
/-- Pairs and rack (R532). -/
def Err.PAIR_LINK_DOWN : Code := 0x0803
/-- Pairs and rack (R532). -/
def Err.PAIR_ALIVE_FAULT : Code := 0x0804
/-- Pairs and rack (R532). -/
def Err.PAIR_SPLIT : Code := 0x0805
/-- Pairs and rack (R532). -/
def Err.TAKEOVER_BAD : Code := 0x0806
/-- Pairs and rack (R532). -/
def Err.HOUSEHOLD_HALT : Code := 0x0807
/-- Pairs and rack (R532). -/
def Err.FRAME_SLIP : Code := 0x0808
/-- Pairs and rack (R532). -/
def Err.FRAME_SYNC_LOST : Code := 0x0809
/-- Pairs and rack (R532). -/
def Err.REFCLK_LOST : Code := 0x080A
/-- Pairs and rack (R532). -/
def Err.CABLE_SWAPPED : Code := 0x080B
/-- Pairs and rack (R532). -/
def Err.CABLE_WRONG_PEER : Code := 0x080C
/-- Pairs and rack (R532). -/
def Err.CABLE_MISSING : Code := 0x080D
/-- Power and thermal (R532). -/
def Err.HB_LOST : Code := 0x0901
/-- Power and thermal (R532). -/
def Err.PWR_WARN : Code := 0x0902
/-- Power and thermal (R532). -/
def Err.PACE_BROKEN : Code := 0x0903
/-- Power and thermal (R532). -/
def Err.INPUT_UV : Code := 0x0904
/-- Power and thermal (R532). -/
def Err.INPUT_CUT : Code := 0x0905
/-- Power and thermal (R532). -/
def Err.RAIL_UNDERVOLT : Code := 0x0906
/-- Power and thermal (R532). -/
def Err.THM_HARD : Code := 0x0907
/-- Power and thermal (R532). -/
def Err.THM_TRIP : Code := 0x0908
/-- Power and thermal (R532). -/
def Err.THM_SENSOR : Code := 0x0909
/-- Management (R532). -/
def Err.FW_UPDATE_TIMEOUT : Code := 0x0A01
/-- Management (R532). -/
def Err.FW_APPLY : Code := 0x0A02
/-- Management (R532). -/
def Err.FW_ACTIVATE : Code := 0x0A03
/-- Management (R532). -/
def Err.FW_RECOVERY : Code := 0x0A04
/-- Management (R532). -/
def Err.RECOVERY_FAIL : Code := 0x0A05
/-- Management (R532). -/
def Err.MGT_EVENT_UNDELIVERED : Code := 0x0A06
/-- Management (R532). -/
def Err.DEBUG_GRANT : Code := 0x0A07
/-- Management (R532). -/
def Err.DEBUG_END : Code := 0x0A08
/-- Formation (R532). -/
def Err.FORM_MASK : Code := 0x0B01
/-- Formation (R532). -/
def Err.FW_ABI_MISMATCH : Code := 0x0B02
/-- Formation (R532). -/
def Err.PAIR_NUM_MISMATCH : Code := 0x0B03
/-- Formation (R532). -/
def Err.RTIME_MISMATCH : Code := 0x0B04
/-- Formation (R532). -/
def Err.KV_POOL_MISMATCH : Code := 0x0B05
/-- Formation (R532). -/
def Err.CFG_MISMATCH : Code := 0x0B06
/-- Formation (R532). -/
def Err.FORM_LINKS : Code := 0x0B07
/-- Formation (R532). -/
def Err.FORM_TIMEOUT : Code := 0x0B08
/-- Sweep (R532). -/
def Err.SWEEP_CORE_FAIL : Code := 0x0C01
/-- Sweep (R532). -/
def Err.SWEEP_LANE_FAIL : Code := 0x0C02
/-- Sweep (R532). -/
def Err.SWEEP_LATE : Code := 0x0C03
/-- Refused writes (R532). -/
def Err.KV_LIVE : Code := 0x0D01
/-- Refused writes (R532). -/
def Err.QUOTA_OVERCOMMIT : Code := 0x0D02
/-- Refused writes (R532). -/
def Err.TABLE_LIVE : Code := 0x0D03
/-- Refused writes (R532). -/
def Err.RING_LIVE : Code := 0x0D04
/-- Refused writes (R532). -/
def Err.PORCH_LIVE : Code := 0x0D05
/-- Refused writes (R532). -/
def Err.REGION_OVERLAP : Code := 0x0D06
/-- Refused writes (R532). -/
def Err.MODEL_LIVE : Code := 0x0D07
/-- Refused writes (R532). -/
def Err.LARDER_LIVE : Code := 0x0D08
/-- Refused writes (R532). -/
def Err.REJOIN_STATE : Code := 0x0D09
/-- Refused writes (R532). -/
def Err.PAIR_LIVE : Code := 0x0D0A
/-- Refused writes (R532). -/
def Err.RTIME_LIVE : Code := 0x0D0B
/-- Refused writes (R532). -/
def Err.PLAN_LIVE : Code := 0x0D0C
/-- Refused writes (R532). -/
def Err.PACE_RANGE : Code := 0x0D0D
/-- Refused writes (R532). -/
def Err.SMOORED_MEMBER : Code := 0x0D0E
/-- Refused writes (R532). -/
def Err.FW_ABI : Code := 0x0D0F
/-- Refused writes (R532). -/
def Err.SVN_EARLY : Code := 0x0D10
/-- Refused writes (R532). -/
def Err.HANDOVER_STATE : Code := 0x0D11
/-- Refused writes (R532). -/
def Err.REMAP_STATE : Code := 0x0D12
/-- Refused writes (R532). -/
def Err.RECORD_BUSY : Code := 0x0D13
/-- Refused writes (R532). -/
def Err.FORM_STATE : Code := 0x0D14
/-- Refused writes (R532). -/
def Err.RESET_STATE : Code := 0x0D15
/-- Refused writes (R532). -/
def Err.TRIG_LAND : Code := 0x0D16
/-- Refused writes (R532). -/
def Err.PTB_LOCKED : Code := 0x0D17
/-- Host interface (R532). -/
def Err.REG_ACCESS : Code := 0x0E01
/-- Host interface (R532). -/
def Err.POR_UNBACKED : Code := 0x0E02
/-- Host interface (R532). -/
def Err.CONS_INDEX_BAD : Code := 0x0E03
/-- Host interface (R532). -/
def Err.PCIE_NO_FLIT : Code := 0x0E04

/-- The class of a code. -/
def Err.cls (c : Code) : Nat := c.toNat / 256

end Sys2Proof.Machine
end

