-- ==== Sys2Proof/Machine/RegTable.lean ====
section
/-!
DEFINITION. The register map: the block types and pages of R554, the common header of R549, and every register table of the spec as data:
offsets, fields, access codes (R10), reset values and stated ranges (R6); and a name for each field the machine itself uses.
-/
namespace Sys2Proof.Machine

/-- Access codes (R10). -/
inductive Acc where
  | ro | rw | w1c | w1s | rwl
  deriving DecidableEq, Repr

/-- The stated range of a field or quantity (R6). -/
inductive Legal where
  | any
  | range (lo hi : Nat)
  | multiple (n : Nat)
  deriving DecidableEq, Repr

/-- Whether a value lies in the stated range. -/
def Legal.ok : Legal → Nat → Bool
  | .any, _ => true
  | .range lo hi, v => decide (lo ≤ v) && decide (v ≤ hi)
  | .multiple n, v => decide (v % n = 0)

/-- A field of a register: bits `[hi:lo]`. -/
structure FieldDesc where
  hi : Nat
  lo : Nat
  acc : Acc
  rst : Nat
  legal : Legal
  deriving DecidableEq, Repr

/-- Whether a register is one word, or the low or high word of a pair read under R13. -/
inductive Pairing where
  | single | low | high
  deriving DecidableEq, Repr

/-- A register array: `count` words from `off`, `stride` apart. -/
structure RegDesc where
  off : Nat
  stride : Nat
  count : Nat
  pairing : Pairing
  fields : List FieldDesc
  deriving DecidableEq, Repr

/-- The block types (R554). -/
inductive Block where
  | dir | hal | mgt | sec | pwr | thm | swp | pair | cel | seq | mdl | por | wng | lar | cmp | fab | core
  deriving DecidableEq, Repr

/-- TYPE of a block (R554). -/
def Block.code : Block → Nat
  | .dir => 0
  | .hal => 1
  | .mgt => 14
  | .sec => 15
  | .pwr => 12
  | .thm => 13
  | .swp => 16
  | .pair => 7
  | .cel => 4
  | .seq => 8
  | .mdl => 10
  | .por => 9
  | .wng => 2
  | .lar => 5
  | .cmp => 11
  | .fab => 6
  | .core => 3

/-- First page and number of pages of a block in PF BAR0 (R554). -/
def Block.pages : Block → Nat × Nat
  | .dir => (0, 1)
  | .hal => (1, 1)
  | .mgt => (2, 1)
  | .sec => (3, 1)
  | .pwr => (4, 1)
  | .thm => (5, 1)
  | .swp => (6, 1)
  | .pair => (7, 1)
  | .cel => (8, 1)
  | .seq => (9, 1)
  | .mdl => (10, 1)
  | .por => (16, 16)
  | .wng => (32, 4)
  | .lar => (36, 4)
  | .cmp => (40, 4)
  | .fab => (44, 4)
  | .core => (4096, 4096)

/-- Every block, in ascending order of page (R553). -/
def Block.all : List Block := [.dir, .hal, .mgt, .sec, .pwr, .thm, .swp, .pair, .cel, .seq, .mdl, .por, .wng, .lar, .cmp, .fab, .core]

/-- The common header (R549): PG_CONFLICT, PG_PTB_CTL, PG_PTB_DELAY, PG_PTB_BP, PG_PTB_INJ, PG_PTB_ADDR_LO, PG_PTB_ADDR_HI, PG_PTB_SEED, PG_PTB_STS, PG_ID, PG_REV, PG_CAP, PG_CTL, PG_STS, PG_IRQ_STS, PG_IRQ_EN, PG_IRQ_VEC, PG_ERR_CNT, PG_ERR_FIRST_LO, PG_ERR_FIRST_HI. -/
def headerRegs : List RegDesc := [
  ⟨0x060, 0, 1, .single, [⟨31, 31, .w1c, 0x0, .any⟩, ⟨27, 16, .ro, 0x0, .any⟩, ⟨15, 0, .ro, 0x0, .any⟩]⟩,
  ⟨0x040, 0, 1, .single, [⟨31, 31, .rwl, 0x0, .any⟩, ⟨30, 29, .rwl, 0x0, (.range 0 2)⟩, ⟨28, 28, .rwl, 0x0, .any⟩, ⟨23, 16, .rwl, 0x0, .any⟩, ⟨15, 0, .rwl, 0x0, .any⟩]⟩,
  ⟨0x044, 0, 1, .single, [⟨31, 24, .rwl, 0x0, .any⟩, ⟨15, 0, .rwl, 0x0, .any⟩]⟩,
  ⟨0x048, 0, 1, .single, [⟨31, 24, .rwl, 0x0, .any⟩, ⟨23, 20, .rwl, 0x0, .any⟩, ⟨15, 0, .rwl, 0x0, .any⟩]⟩,
  ⟨0x04C, 0, 1, .single, [⟨31, 28, .rwl, 0x0, (.range 0 5)⟩, ⟨23, 16, .rwl, 0x0, .any⟩, ⟨15, 8, .rwl, 0x0, .any⟩, ⟨5, 0, .rwl, 0x0, .any⟩]⟩,
  ⟨0x050, 0, 1, .low, [⟨31, 0, .rwl, 0x0, .any⟩]⟩,
  ⟨0x054, 0, 1, .high, [⟨31, 0, .rwl, 0x0, .any⟩]⟩,
  ⟨0x058, 0, 1, .single, [⟨31, 0, .rwl, 0x1, (.range 1 0xFFFFFFFF)⟩]⟩,
  ⟨0x05C, 0, 1, .single, [⟨31, 31, .ro, 0x0, .any⟩, ⟨23, 16, .ro, 0x0, .any⟩, ⟨15, 0, .ro, 0x0, .any⟩]⟩,
  ⟨0x000, 0, 1, .single, [⟨31, 24, .ro, 0x0, .any⟩, ⟨19, 8, .ro, 0x0, .any⟩, ⟨7, 0, .ro, 0x1, .any⟩]⟩,
  ⟨0x004, 0, 1, .single, [⟨31, 24, .ro, 0xB0, .any⟩, ⟨23, 16, .ro, 0x1, .any⟩]⟩,
  ⟨0x008, 0, 1, .single, [⟨31, 31, .ro, 0x0, .any⟩, ⟨15, 0, .ro, 0x0, .any⟩]⟩,
  ⟨0x00C, 0, 1, .single, [⟨1, 1, .w1s, 0x0, .any⟩, ⟨0, 0, .rw, 0x1, .any⟩]⟩,
  ⟨0x010, 0, 1, .single, [⟨31, 31, .ro, 0x1, .any⟩, ⟨30, 30, .ro, 0x0, .any⟩, ⟨29, 29, .ro, 0x0, .any⟩]⟩,
  ⟨0x014, 0, 1, .single, [⟨15, 0, .w1c, 0x0, .any⟩]⟩,
  ⟨0x018, 0, 1, .single, [⟨15, 0, .rw, 0x0, .any⟩]⟩,
  ⟨0x01C, 0, 1, .single, [⟨15, 0, .rw, 0x3, .any⟩]⟩,
  ⟨0x020, 0, 1, .single, [⟨31, 24, .ro, 0x0, .any⟩, ⟨23, 0, .ro, 0x0, .any⟩]⟩,
  ⟨0x024, 0, 1, .low, [⟨31, 0, .ro, 0x0, .any⟩]⟩,
  ⟨0x028, 0, 1, .high, [⟨31, 0, .ro, 0x0, .any⟩]⟩]

/-- The DIR page: DIR_COUNT, DIR_FUNC. -/
def dirRegs : List RegDesc := [
  ⟨0x100, 0, 1, .single, [⟨7, 0, .ro, 0x11, .any⟩]⟩,
  ⟨0x104, 0, 1, .single, [⟨31, 31, .ro, 0x0, .any⟩, ⟨3, 0, .ro, 0x0, .any⟩]⟩]

/-- The HAL page: HAL_BOOT_STS, HAL_RESET, HAL_FORM, HAL_FORM_MASK_RACK0_LO, HAL_FORM_MASK_RACK1_LO, HAL_FORM_MASK_RACK0_HI, HAL_FORM_MASK_RACK1_HI. -/
def halRegs : List RegDesc := [
  ⟨0x100, 0, 1, .single, [⟨31, 29, .ro, 0x0, .any⟩, ⟨28, 28, .ro, 0x0, .any⟩, ⟨27, 24, .ro, 0x0, .any⟩, ⟨15, 0, .ro, 0x0, .any⟩]⟩,
  ⟨0x104, 0, 1, .single, [⟨31, 31, .w1s, 0x0, .any⟩, ⟨3, 0, .w1s, 0x0, .any⟩]⟩,
  ⟨0x108, 0, 1, .single, [⟨31, 31, .w1s, 0x0, .any⟩, ⟨30, 30, .ro, 0x0, .any⟩, ⟨15, 0, .ro, 0x0, .any⟩]⟩,
  ⟨0x10C, 0, 1, .single, [⟨31, 0, .rw, 0x0, .any⟩]⟩,
  ⟨0x114, 0, 1, .single, [⟨31, 0, .rw, 0x0, .any⟩]⟩,
  ⟨0x110, 0, 1, .single, [⟨3, 0, .rw, 0x0, .any⟩]⟩,
  ⟨0x118, 0, 1, .single, [⟨3, 0, .rw, 0x0, .any⟩]⟩]

/-- The MGT page: MGT_STS, MGT_FW_VER, MGT_FW_PEND, MGT_MAINT, MGT_LOG_NEXT_LO, MGT_LOG_NEXT_HI, MGT_LOG_SEL_LO, MGT_LOG_SEL_HI, MGT_LOG_STS, MGT_LOG_DATAn, MGT_REC_CTL, MGT_RECOVERY, MGT_MCTP, MGT_REC_WIN. -/
def mgtRegs : List RegDesc := [
  ⟨0x100, 0, 1, .single, [⟨31, 30, .ro, 0x0, .any⟩, ⟨29, 29, .ro, 0x0, .any⟩, ⟨23, 16, .ro, 0x0, .any⟩]⟩,
  ⟨0x104, 0, 1, .single, [⟨31, 0, .ro, 0x0, .any⟩]⟩,
  ⟨0x108, 0, 1, .single, [⟨31, 0, .ro, 0x0, .any⟩]⟩,
  ⟨0x10C, 0, 1, .single, [⟨31, 31, .w1s, 0x0, .any⟩, ⟨30, 30, .w1s, 0x0, .any⟩, ⟨11, 0, .rw, 0x0, .any⟩]⟩,
  ⟨0x110, 0, 1, .low, [⟨31, 0, .ro, 0x0, .any⟩]⟩,
  ⟨0x114, 0, 1, .high, [⟨31, 0, .ro, 0x0, .any⟩]⟩,
  ⟨0x118, 0, 1, .single, [⟨31, 0, .rw, 0x0, .any⟩]⟩,
  ⟨0x11C, 0, 1, .single, [⟨31, 0, .rw, 0x0, .any⟩]⟩,
  ⟨0x120, 0, 1, .single, [⟨31, 31, .ro, 0x0, .any⟩, ⟨15, 0, .ro, 0x0, .any⟩]⟩,
  ⟨0x140, 4, 16, .single, [⟨31, 0, .ro, 0x0, .any⟩]⟩,
  ⟨0x180, 0, 1, .single, [⟨31, 31, .w1s, 0x0, .any⟩, ⟨30, 30, .ro, 0x0, .any⟩, ⟨15, 0, .ro, 0x0, .any⟩]⟩,
  ⟨0x184, 0, 1, .single, [⟨31, 31, .w1s, 0x0, .any⟩, ⟨23, 0, .rw, 0x0, .any⟩]⟩,
  ⟨0x188, 0, 1, .single, [⟨31, 24, .ro, 0x0, .any⟩, ⟨23, 16, .ro, 0x0, .any⟩, ⟨6, 0, .ro, 0x0, .any⟩]⟩,
  ⟨0x400, 4, 400, .single, [⟨31, 0, .rw, 0x0, .any⟩]⟩]

/-- The SEC page: SEC_STS, SEC_SERIAL_LO, SEC_SERIAL_HI, SEC_SVN, SEC_NONCE_CTL, SEC_NONCEn, SEC_DEBUG, SEC_DEBUG_END_LO, SEC_DEBUG_END_HI, SEC_MKEYn_SEQ, SEC_OWNER_Dm, SEC_MKEYn_Dm. -/
def secRegs : List RegDesc := [
  ⟨0x100, 0, 1, .single, [⟨31, 31, .ro, 0x0, .any⟩, ⟨7, 0, .ro, 0x0, .any⟩]⟩,
  ⟨0x104, 0, 1, .low, [⟨31, 0, .ro, 0x0, .any⟩]⟩,
  ⟨0x108, 0, 1, .high, [⟨31, 0, .ro, 0x0, .any⟩]⟩,
  ⟨0x10C, 0, 1, .single, [⟨31, 31, .w1s, 0x0, .any⟩, ⟨13, 8, .ro, 0x0, .any⟩, ⟨5, 0, .ro, 0x0, .any⟩]⟩,
  ⟨0x110, 0, 1, .single, [⟨0, 0, .w1s, 0x0, .any⟩]⟩,
  ⟨0x114, 4, 4, .single, [⟨31, 0, .ro, 0x0, .any⟩]⟩,
  ⟨0x124, 0, 1, .single, [⟨31, 31, .ro, 0x0, .any⟩, ⟨30, 30, .w1s, 0x0, .any⟩, ⟨2, 0, .ro, 0x0, .any⟩]⟩,
  ⟨0x128, 0, 1, .low, [⟨31, 0, .ro, 0x0, .any⟩]⟩,
  ⟨0x12C, 0, 1, .high, [⟨31, 0, .ro, 0x0, .any⟩]⟩,
  ⟨0x200, 4, 8, .single, [⟨31, 0, .ro, 0x0, .any⟩]⟩,
  ⟨0x300, 4, 16, .single, [⟨31, 0, .ro, 0x0, .any⟩]⟩,
  ⟨0x400, 4, 128, .single, [⟨31, 0, .ro, 0x0, .any⟩]⟩]

/-- The PWR page: PWR_OP_STS, PWR_OP_CTL, PWR_BOOST, PWR_CAP, PWR_CAP_CTL, PWR_CAP_STS, PWR_DRAW, PWR_INPUT, PWR_BRAKE, PWR_HB, PWR_PACE, PWR_STATE_CTL, PWR_STATE_STS, PWR_EVT, PWR_ENERGY_LO, PWR_ENERGY_HI, PWR_PHASEn. -/
def pwrRegs : List RegDesc := [
  ⟨0x100, 0, 1, .single, [⟨31, 28, .ro, 0xA, .any⟩, ⟨27, 24, .ro, 0xA, .any⟩, ⟨23, 20, .ro, 0xF, .any⟩, ⟨19, 16, .ro, 0xF, .any⟩, ⟨11, 0, .ro, 0x0, .any⟩]⟩,
  ⟨0x104, 0, 1, .single, [⟨3, 0, .rw, 0xA, .any⟩]⟩,
  ⟨0x108, 0, 1, .single, [⟨1, 0, .rw, 0x2, .any⟩]⟩,
  ⟨0x10C, 0, 1, .single, [⟨11, 0, .rw, 0xAF0, (.range 400 2800)⟩]⟩,
  ⟨0x110, 0, 1, .single, [⟨31, 31, .rw, 0x1, .any⟩, ⟨30, 30, .rw, 0x0, .any⟩, ⟨23, 12, .rw, 0x578, (.range 400 2800)⟩, ⟨7, 0, .rw, 0x5, .any⟩]⟩,
  ⟨0x114, 0, 1, .single, [⟨31, 31, .ro, 0x0, .any⟩, ⟨30, 30, .ro, 0x0, .any⟩, ⟨29, 29, .ro, 0x0, .any⟩, ⟨15, 0, .ro, 0x0, .any⟩]⟩,
  ⟨0x118, 0, 1, .single, [⟨31, 16, .ro, 0x0, .any⟩, ⟨15, 0, .ro, 0x0, .any⟩]⟩,
  ⟨0x11C, 0, 1, .single, [⟨31, 16, .ro, 0x0, .any⟩, ⟨15, 0, .ro, 0x0, .any⟩]⟩,
  ⟨0x120, 0, 1, .single, [⟨31, 16, .ro, 0x0, .any⟩, ⟨15, 15, .ro, 0x0, .any⟩, ⟨14, 14, .ro, 0x0, .any⟩, ⟨6, 0, .rw, 0x19, (.range 10 100)⟩]⟩,
  ⟨0x124, 0, 1, .single, [⟨31, 16, .ro, 0x0, .any⟩, ⟨0, 0, .w1s, 0x0, .any⟩]⟩,
  ⟨0x128, 0, 1, .single, [⟨31, 31, .rw, 0x0, .any⟩, ⟨30, 30, .ro, 0x0, .any⟩, ⟨29, 26, .ro, 0x0, .any⟩, ⟨25, 24, .ro, 0x0, .any⟩, ⟨23, 12, .rw, 0x7D0, (.range 500 2300)⟩, ⟨11, 0, .rw, 0x5DC, (.range 500 2000)⟩]⟩,
  ⟨0x12C, 0, 1, .single, [⟨31, 29, .rw, 0x1, (.range 0 3)⟩, ⟨25, 25, .w1s, 0x0, .any⟩, ⟨24, 24, .w1s, 0x0, .any⟩, ⟨23, 16, .rw, 0xA, (.range 1 255)⟩, ⟨15, 8, .rw, 0x3C, (.range 1 255)⟩, ⟨7, 0, .rw, 0x14, (.range 1 255)⟩]⟩,
  ⟨0x130, 0, 1, .single, [⟨31, 29, .ro, 0x1, .any⟩, ⟨28, 26, .ro, 0x0, .any⟩, ⟨15, 0, .ro, 0x0, .any⟩]⟩,
  ⟨0x134, 0, 1, .single, [⟨7, 7, .w1c, 0x0, .any⟩, ⟨6, 6, .w1c, 0x0, .any⟩, ⟨5, 5, .w1c, 0x0, .any⟩, ⟨4, 4, .w1c, 0x0, .any⟩, ⟨3, 3, .w1c, 0x0, .any⟩, ⟨2, 2, .w1c, 0x0, .any⟩, ⟨1, 1, .w1c, 0x0, .any⟩, ⟨0, 0, .w1c, 0x0, .any⟩]⟩,
  ⟨0x138, 0, 1, .low, [⟨31, 0, .ro, 0x0, .any⟩]⟩,
  ⟨0x13C, 0, 1, .high, [⟨31, 0, .ro, 0x0, .any⟩]⟩,
  ⟨0x180, 4, 7, .single, [⟨31, 31, .rw, 0x0, .any⟩, ⟨3, 0, .rw, 0xA, .any⟩]⟩]

/-- The THM page: THM_STS, THM_COUNTS, THM_FAULTS, THM_LIMITS, THM_SENSORn. -/
def thmRegs : List RegDesc := [
  ⟨0x100, 0, 1, .single, [⟨31, 30, .ro, 0x0, .any⟩, ⟨28, 22, .ro, 0x0, .any⟩, ⟨11, 0, .ro, 0x0, .any⟩]⟩,
  ⟨0x104, 0, 1, .single, [⟨31, 16, .ro, 0x0, .any⟩, ⟨15, 0, .ro, 0x0, .any⟩]⟩,
  ⟨0x108, 0, 1, .single, [⟨31, 16, .ro, 0x0, .any⟩, ⟨15, 0, .ro, 0x0, .any⟩]⟩,
  ⟨0x10C, 0, 1, .single, [⟨31, 24, .ro, 0x5F, .any⟩, ⟨23, 16, .ro, 0x69, .any⟩, ⟨15, 8, .ro, 0x73, .any⟩, ⟨7, 0, .ro, 0x55, .any⟩]⟩,
  ⟨0x200, 4, 72, .single, [⟨31, 31, .ro, 0x0, .any⟩, ⟨11, 0, .ro, 0x0, .any⟩]⟩]

/-- The SWP page: SWP_CTL, SWP_STS, SWP_FAILS, SWP_LAST_CORE. -/
def swpRegs : List RegDesc := [
  ⟨0x100, 0, 1, .single, [⟨31, 31, .rw, 0x1, .any⟩, ⟨23, 16, .rw, 0x14, (.range 16 255)⟩, ⟨15, 8, .rw, 0x4, (.range 1 32)⟩, ⟨7, 0, .rw, 0x18, (.range 1 168)⟩]⟩,
  ⟨0x104, 0, 1, .single, [⟨31, 31, .ro, 0x0, .any⟩, ⟨30, 30, .ro, 0x0, .any⟩, ⟨15, 0, .ro, 0x0, .any⟩]⟩,
  ⟨0x108, 0, 1, .single, [⟨31, 16, .ro, 0x0, .any⟩, ⟨15, 0, .ro, 0x0, .any⟩]⟩,
  ⟨0x10C, 0, 1, .single, [⟨31, 31, .ro, 0x0, .any⟩, ⟨11, 0, .ro, 0x0, .any⟩]⟩]

/-- The PAIR page: PAIR_CTL, PAIR_STS, PAIR_MAINT, PAIR_MIRROR, PAIR_RTIME_SET_LO, PAIR_RTIME_SET_HI, PAIR_RTIME_CTL, PAIR_RTIME_LO, PAIR_RTIME_HI, PAIR_MAPOUTm, PAIR_PLANn, PAIR_PEERn. -/
def pairRegs : List RegDesc := [
  ⟨0x100, 0, 1, .single, [⟨8, 8, .rw, 0x1, .any⟩, ⟨7, 0, .rw, 0x0, (.range 0 35)⟩]⟩,
  ⟨0x104, 0, 1, .single, [⟨31, 29, .ro, 0x0, .any⟩, ⟨28, 28, .ro, 0x0, .any⟩, ⟨27, 27, .ro, 0x0, .any⟩, ⟨26, 26, .ro, 0x0, .any⟩, ⟨20, 16, .ro, 0x0, .any⟩, ⟨15, 0, .ro, 0x0, .any⟩]⟩,
  ⟨0x108, 0, 1, .single, [⟨31, 31, .w1s, 0x0, .any⟩, ⟨30, 30, .w1s, 0x0, .any⟩, ⟨29, 29, .w1s, 0x0, .any⟩, ⟨28, 28, .w1s, 0x0, .any⟩, ⟨6, 0, .rw, 0x0, (.range 0 87)⟩]⟩,
  ⟨0x10C, 0, 1, .single, [⟨31, 16, .ro, 0x0, .any⟩, ⟨15, 0, .ro, 0x0, .any⟩]⟩,
  ⟨0x110, 0, 1, .low, [⟨31, 0, .rw, 0x0, .any⟩]⟩,
  ⟨0x114, 0, 1, .high, [⟨31, 0, .rw, 0x0, .any⟩]⟩,
  ⟨0x118, 0, 1, .single, [⟨31, 31, .w1s, 0x0, .any⟩, ⟨30, 30, .ro, 0x0, .any⟩, ⟨29, 29, .ro, 0x0, .any⟩, ⟨15, 0, .ro, 0x0, .any⟩]⟩,
  ⟨0x11C, 0, 1, .low, [⟨31, 0, .ro, 0x0, .any⟩]⟩,
  ⟨0x120, 0, 1, .high, [⟨31, 0, .ro, 0x0, .any⟩]⟩,
  ⟨0x130, 4, 3, .single, [⟨31, 0, .ro, 0x0, .any⟩]⟩,
  ⟨0x200, 4, 88, .single, [⟨31, 8, .rw, 0x0, .any⟩, ⟨7, 7, .rw, 0x0, .any⟩, ⟨6, 6, .rw, 0x0, .any⟩]⟩,
  ⟨0x400, 4, 88, .single, [⟨31, 8, .ro, 0x0, .any⟩, ⟨7, 5, .ro, 0x0, .any⟩]⟩]

/-- The CEL page: CEL_CAP, CEL_UE, CEL_SCRUB_CTL, CEL_SCRUB_STS, CEL_PPR, CEL_LANE, CEL_PROBE_LO, CEL_PROBE_HI, CEL_PROBE_RES, CEL_CE_STACKs. -/
def celRegs : List RegDesc := [
  ⟨0x100, 0, 1, .single, [⟨31, 24, .ro, 0x0, .any⟩, ⟨23, 16, .ro, 0xC, .any⟩, ⟨15, 0, .ro, 0x0, .any⟩]⟩,
  ⟨0x104, 0, 1, .single, [⟨31, 16, .ro, 0x0, .any⟩, ⟨3, 0, .ro, 0x0, .any⟩]⟩,
  ⟨0x108, 0, 1, .single, [⟨7, 0, .rw, 0x18, (.range 1 168)⟩]⟩,
  ⟨0x10C, 0, 1, .single, [⟨31, 31, .ro, 0x0, .any⟩, ⟨22, 16, .ro, 0x0, .any⟩, ⟨15, 0, .ro, 0x0, .any⟩]⟩,
  ⟨0x110, 0, 1, .single, [⟨31, 16, .ro, 0x0, .any⟩, ⟨15, 0, .ro, 0x0, .any⟩]⟩,
  ⟨0x114, 0, 1, .single, [⟨31, 16, .ro, 0x0, .any⟩, ⟨15, 0, .ro, 0x0, .any⟩]⟩,
  ⟨0x118, 0, 1, .low, [⟨31, 0, .rw, 0x0, .any⟩]⟩,
  ⟨0x11C, 0, 1, .high, [⟨31, 0, .rw, 0x0, .any⟩]⟩,
  ⟨0x120, 0, 1, .single, [⟨31, 28, .ro, 0x0, .any⟩, ⟨27, 23, .ro, 0x0, .any⟩, ⟨22, 20, .ro, 0x0, .any⟩, ⟨19, 19, .ro, 0x1, .any⟩]⟩,
  ⟨0x200, 4, 12, .single, [⟨31, 0, .ro, 0x0, .any⟩]⟩]

/-- The SEQ page: SEQ_KV_BASE, SEQ_KV_SIZE, SEQ_KV_FREE, SEQ_LOFT_CTL, SEQ_LOFT_BASE_LO, SEQ_LOFT_BASE_HI, SEQ_LOFT_SIZE, SEQ_LOFT_TTL, SEQ_LOFT_STS, SEQ_HH_CTL, SEQ_STEP_LIMIT, SEQ_TARGET, SEQ_TABLE_STS, SEQ_STEP_ID_LO, SEQ_STEP_ID_HI, SEQ_BOUNDARY_LO, SEQ_BOUNDARY_HI, SEQ_TABLE_BASE, SEQ_STEP_STS, SEQ_CFG_COMMIT, SEQ_PART_CTLn, SEQ_PART_STSn, SEQ_MANTELn, SEQ_CLI_SEL, SEQ_CLI_CFG, SEQ_CLI_BURST, SEQ_CLI_CREDIT_LO, SEQ_CLI_CREDIT_HI, SEQ_CLI_ACCm_LO, SEQ_CLI_ACCm_HI. -/
def seqRegs : List RegDesc := [
  ⟨0x800, 0, 1, .single, [⟨23, 0, .rw, 0x0, .any⟩]⟩,
  ⟨0x804, 0, 1, .single, [⟨23, 0, .rw, 0x0, .any⟩]⟩,
  ⟨0x808, 0, 1, .single, [⟨23, 0, .ro, 0x0, .any⟩]⟩,
  ⟨0x80C, 0, 1, .single, [⟨8, 8, .rw, 0x0, .any⟩, ⟨7, 7, .rw, 0x0, .any⟩, ⟨6, 6, .rw, 0x0, .any⟩, ⟨5, 0, .rw, 0x0, (.range 0 35)⟩]⟩,
  ⟨0x810, 0, 1, .low, [⟨31, 0, .rw, 0x0, .any⟩]⟩,
  ⟨0x814, 0, 1, .high, [⟨31, 0, .rw, 0x0, .any⟩]⟩,
  ⟨0x818, 0, 1, .single, [⟨31, 0, .rw, 0x0, .any⟩]⟩,
  ⟨0x81C, 0, 1, .single, [⟨16, 0, .rw, 0x258, (.range 1 86400)⟩]⟩,
  ⟨0x820, 0, 1, .single, [⟨31, 16, .ro, 0x0, .any⟩, ⟨15, 0, .ro, 0x0, .any⟩]⟩,
  ⟨0x100, 0, 1, .single, [⟨31, 31, .ro, 0x0, .any⟩, ⟨23, 16, .rw, 0x0, (.range 0 35)⟩, ⟨15, 8, .ro, 0x0, .any⟩]⟩,
  ⟨0x104, 0, 1, .single, [⟨16, 0, .rw, 0x2000, (.range 1 65536)⟩]⟩,
  ⟨0x108, 0, 1, .single, [⟨16, 0, .rw, 0x1000, (.range 1 65536)⟩]⟩,
  ⟨0x10C, 0, 1, .single, [⟨16, 0, .ro, 0x0, .any⟩]⟩,
  ⟨0x110, 0, 1, .low, [⟨31, 0, .ro, 0x0, .any⟩]⟩,
  ⟨0x114, 0, 1, .high, [⟨31, 0, .ro, 0x0, .any⟩]⟩,
  ⟨0x118, 0, 1, .low, [⟨31, 0, .ro, 0x0, .any⟩]⟩,
  ⟨0x11C, 0, 1, .high, [⟨31, 0, .ro, 0x0, .any⟩]⟩,
  ⟨0x120, 0, 1, .single, [⟨23, 0, .rw, 0x0, .any⟩]⟩,
  ⟨0x124, 0, 1, .single, [⟨31, 24, .ro, 0x0, .any⟩, ⟨16, 0, .ro, 0x0, .any⟩]⟩,
  ⟨0x128, 0, 1, .single, [⟨31, 31, .w1s, 0x0, .any⟩, ⟨30, 30, .w1c, 0x0, .any⟩, ⟨29, 29, .ro, 0x0, .any⟩]⟩,
  ⟨0x200, 4, 16, .single, [⟨31, 31, .rw, 0x0, .any⟩, ⟨30, 28, .rw, 0x0, .any⟩, ⟨27, 22, .rw, 0x8, (.range 1 32)⟩, ⟨16, 0, .rw, 0x0, (.range 0 65536)⟩]⟩,
  ⟨0x240, 4, 16, .single, [⟨16, 0, .ro, 0x0, .any⟩]⟩,
  ⟨0x300, 4, 64, .single, [⟨31, 31, .rw, 0x0, .any⟩, ⟨30, 30, .rw, 0x0, .any⟩, ⟨29, 26, .rw, 0x0, .any⟩, ⟨13, 0, .rw, 0x0, (.range 0 8192)⟩]⟩,
  ⟨0x400, 0, 1, .single, [⟨11, 0, .rw, 0x0, .any⟩]⟩,
  ⟨0x404, 0, 1, .single, [⟨31, 28, .rw, 0x0, .any⟩, ⟨19, 0, .rw, 0xFFFFF, .any⟩]⟩,
  ⟨0x408, 0, 1, .single, [⟨19, 0, .rw, 0x400, (.range 1 0xFFFFF)⟩]⟩,
  ⟨0x40C, 0, 1, .low, [⟨31, 0, .ro, 0x0, .any⟩]⟩,
  ⟨0x410, 0, 1, .high, [⟨31, 0, .ro, 0x0, .any⟩]⟩,
  ⟨0x420, 8, 6, .low, [⟨31, 0, .ro, 0x0, .any⟩]⟩,
  ⟨0x424, 8, 6, .high, [⟨31, 0, .ro, 0x0, .any⟩]⟩]

/-- The MDL page: MDL_CTL, MDL_REGION, MDL_FREE, MDL_SEATED, MDL_RECHECK, MDL_LOAD_CTL, MDL_HOST_BASE_LO, MDL_HOST_BASE_HI, MDL_EVT_LO, MDL_EVT_HI, MDL_LOAD_DONE, MDL_REPAIR, MDL_SLOTn_ID_LO, MDL_SLOTn_ID_HI, MDL_SLOTn_VER, MDL_SLOTn_STATE, MDL_SLOTn_SPACE, MDL_SLOTn_USE, MDL_SLOTn_LAST_LO, MDL_SLOTn_LAST_HI, MDL_SLOTn_CODE, MDL_SLOTn_STEPS. -/
def mdlRegs : List RegDesc := [
  ⟨0x100, 0, 1, .single, [⟨31, 16, .rw, 0x0, .any⟩]⟩,
  ⟨0x104, 0, 1, .single, [⟨31, 16, .rw, 0x0, .any⟩, ⟨15, 0, .rw, 0x0, .any⟩]⟩,
  ⟨0x108, 0, 1, .single, [⟨31, 16, .ro, 0x0, .any⟩, ⟨15, 0, .ro, 0x0, .any⟩]⟩,
  ⟨0x10C, 0, 1, .single, [⟨31, 31, .ro, 0x0, .any⟩, ⟨5, 0, .ro, 0x0, .any⟩]⟩,
  ⟨0x110, 0, 1, .single, [⟨15, 0, .rw, 0x5A0, (.range 10 10080)⟩]⟩,
  ⟨0x114, 0, 1, .single, [⟨11, 0, .rw, 0x0, .any⟩]⟩,
  ⟨0x118, 0, 1, .low, [⟨31, 0, .rw, 0x0, .any⟩]⟩,
  ⟨0x11C, 0, 1, .high, [⟨31, 0, .rw, 0x0, .any⟩]⟩,
  ⟨0x120, 0, 1, .single, [⟨31, 0, .w1c, 0x0, .any⟩]⟩,
  ⟨0x124, 0, 1, .single, [⟨31, 0, .w1c, 0x0, .any⟩]⟩,
  ⟨0x128, 0, 1, .single, [⟨31, 0, .ro, 0x0, .any⟩]⟩,
  ⟨0x12C, 0, 1, .single, [⟨31, 16, .ro, 0x0, .any⟩, ⟨15, 0, .ro, 0x0, .any⟩]⟩,
  ⟨0x400, 40, 64, .low, [⟨31, 0, .ro, 0x0, .any⟩]⟩,
  ⟨0x404, 40, 64, .high, [⟨31, 0, .ro, 0x0, .any⟩]⟩,
  ⟨0x408, 40, 64, .single, [⟨31, 0, .ro, 0x0, .any⟩]⟩,
  ⟨0x40C, 40, 64, .single, [⟨31, 0, .ro, 0x18000000, .any⟩]⟩,
  ⟨0x410, 40, 64, .single, [⟨31, 0, .ro, 0x0, .any⟩]⟩,
  ⟨0x414, 40, 64, .single, [⟨31, 0, .ro, 0x0, .any⟩]⟩,
  ⟨0x418, 40, 64, .low, [⟨31, 0, .ro, 0x0, .any⟩]⟩,
  ⟨0x41C, 40, 64, .high, [⟨31, 0, .ro, 0x0, .any⟩]⟩,
  ⟨0x420, 40, 64, .single, [⟨31, 0, .ro, 0x0, .any⟩]⟩,
  ⟨0x424, 40, 64, .single, [⟨31, 0, .ro, 0x0, .any⟩]⟩]

/-- The POR page: POR_CTL, POR_STAMP, POR_RING_BASE_LO, POR_RING_BASE_HI, POR_RING_SIZE, POR_CONS_ADDR_LO, POR_CONS_ADDR_HI, POR_PROD, POR_CONS, POR_HELD, POR_IRQ_MOD, RES_PEEK_LO, RES_PEEK_HI, POR_TORN. -/
def porRegs : List RegDesc := [
  ⟨0x100, 0, 1, .single, [⟨3, 3, .w1s, 0x0, .any⟩, ⟨2, 2, .w1s, 0x0, .any⟩, ⟨1, 1, .rw, 0x0, .any⟩, ⟨0, 0, .rw, 0x0, .any⟩]⟩,
  ⟨0x104, 0, 1, .single, [⟨31, 0, .ro, 0x1, .any⟩]⟩,
  ⟨0x108, 0, 1, .low, [⟨31, 0, .rw, 0x0, .any⟩]⟩,
  ⟨0x10C, 0, 1, .high, [⟨31, 0, .rw, 0x0, .any⟩]⟩,
  ⟨0x110, 0, 1, .single, [⟨4, 0, .rw, 0x6, (.range 6 20)⟩]⟩,
  ⟨0x114, 0, 1, .low, [⟨31, 0, .rw, 0x0, .any⟩]⟩,
  ⟨0x118, 0, 1, .high, [⟨31, 0, .rw, 0x0, .any⟩]⟩,
  ⟨0x11C, 0, 1, .single, [⟨31, 0, .ro, 0x0, .any⟩]⟩,
  ⟨0x120, 0, 1, .single, [⟨31, 0, .ro, 0x0, .any⟩]⟩,
  ⟨0x124, 0, 1, .single, [⟨12, 0, .ro, 0x0, .any⟩]⟩,
  ⟨0x128, 0, 1, .single, [⟨31, 16, .rw, 0x0, .any⟩, ⟨15, 0, .rw, 0x1, (.range 1 65535)⟩]⟩,
  ⟨0x130, 0, 1, .low, [⟨31, 0, .ro, 0x0, .any⟩]⟩,
  ⟨0x134, 0, 1, .high, [⟨31, 31, .ro, 0x1, .any⟩, ⟨30, 30, .ro, 0x0, .any⟩, ⟨29, 0, .ro, 0x0, .any⟩]⟩,
  ⟨0x138, 0, 1, .single, [⟨15, 0, .ro, 0x0, .any⟩]⟩]

/-- The WNG page: WNG_REMAP_ROWn, WNG_KIND_ROLE, WNG_WEAR_LIMIT, WNG_WEAR_WARN, WNG_WEAR_A_ROWn, WNG_WEAR_B_ROWn, WNG_STS, WNG_RTIME_LO, WNG_RTIME_HI, WNG_TILES. -/
def wngRegs : List RegDesc := [
  ⟨0x200, 4, 32, .single, [⟨7, 7, .ro, 0x0, .any⟩, ⟨6, 6, .ro, 0x0, .any⟩, ⟨5, 0, .ro, 0x0, .any⟩]⟩,
  ⟨0x300, 0, 1, .single, [⟨31, 0, .ro, 0x0, .any⟩]⟩,
  ⟨0x304, 0, 1, .single, [⟨31, 0, .ro, 0x12CF4EC0, .any⟩]⟩,
  ⟨0x308, 0, 1, .single, [⟨31, 0, .ro, 0xF0C3F00, .any⟩]⟩,
  ⟨0x400, 4, 32, .single, [⟨31, 0, .ro, 0x0, .any⟩]⟩,
  ⟨0x480, 4, 32, .single, [⟨31, 0, .ro, 0x0, .any⟩]⟩,
  ⟨0x100, 0, 1, .single, [⟨31, 31, .ro, 0x0, .any⟩, ⟨21, 16, .ro, 0x0, .any⟩, ⟨5, 0, .ro, 0x0, .any⟩]⟩,
  ⟨0x104, 0, 1, .low, [⟨31, 0, .ro, 0x0, .any⟩]⟩,
  ⟨0x108, 0, 1, .high, [⟨31, 0, .ro, 0x0, .any⟩]⟩,
  ⟨0x10C, 0, 1, .single, [⟨31, 20, .ro, 0x0, .any⟩, ⟨19, 0, .ro, 0x0, .any⟩]⟩]

/-- The LAR page: LAR_CTL, LAR_RING_LO, LAR_RING_HI, LAR_STS, LAR_ROWS_LO, LAR_ROWS_HI, LAR_ERR. -/
def larRegs : List RegDesc := [
  ⟨0x100, 0, 1, .single, [⟨0, 0, .rw, 0x0, .any⟩]⟩,
  ⟨0x104, 0, 1, .low, [⟨31, 0, .rw, 0x0, .any⟩]⟩,
  ⟨0x108, 0, 1, .high, [⟨31, 0, .rw, 0x0, .any⟩]⟩,
  ⟨0x10C, 0, 1, .single, [⟨31, 31, .ro, 0x0, .any⟩, ⟨11, 0, .ro, 0x0, .any⟩]⟩,
  ⟨0x110, 0, 1, .low, [⟨31, 0, .ro, 0x0, .any⟩]⟩,
  ⟨0x114, 0, 1, .high, [⟨31, 0, .ro, 0x0, .any⟩]⟩,
  ⟨0x118, 0, 1, .single, [⟨31, 16, .ro, 0x0, .any⟩, ⟨15, 0, .ro, 0x0, .any⟩]⟩]

/-- The CMP page: CMP_SLOTn, CMP_SET, CMP_REFETCH, CMP_STALE, CMP_OUT_LO, CMP_OUT_HI, CMP_IN_LO, CMP_IN_HI. -/
def cmpRegs : List RegDesc := [
  ⟨0x100, 4, 16, .single, [⟨31, 31, .ro, 0x0, .any⟩, ⟨30, 30, .ro, 0x0, .any⟩, ⟨23, 16, .ro, 0x0, .any⟩, ⟨13, 0, .ro, 0x0, .any⟩]⟩,
  ⟨0x140, 0, 1, .single, [⟨31, 31, .ro, 0x0, .any⟩, ⟨5, 0, .ro, 0x0, .any⟩]⟩,
  ⟨0x144, 0, 1, .single, [⟨31, 16, .ro, 0x0, .any⟩, ⟨15, 0, .ro, 0x0, .any⟩]⟩,
  ⟨0x148, 0, 1, .single, [⟨15, 0, .ro, 0x0, .any⟩]⟩,
  ⟨0x150, 0, 1, .low, [⟨31, 0, .ro, 0x0, .any⟩]⟩,
  ⟨0x154, 0, 1, .high, [⟨31, 0, .ro, 0x0, .any⟩]⟩,
  ⟨0x158, 0, 1, .low, [⟨31, 0, .ro, 0x0, .any⟩]⟩,
  ⟨0x15C, 0, 1, .high, [⟨31, 0, .ro, 0x0, .any⟩]⟩]

/-- The FAB page: FAB_CTL, FAB_LANE_STS, FAB_SPARE_MAP, FAB_FEC_CE_LO, FAB_FEC_CE_HI, FAB_FEC_UE, FAB_RETRY, FAB_MESH_CE, FAB_HOLD, FAB_EPOCH, FAB_XRACK. -/
def fabRegs : List RegDesc := [
  ⟨0x100, 0, 1, .single, [⟨1, 1, .rw, 0x1, .any⟩, ⟨0, 0, .rw, 0x0, .any⟩]⟩,
  ⟨0x104, 0, 1, .single, [⟨17, 0, .ro, 0x0, .any⟩]⟩,
  ⟨0x108, 0, 1, .single, [⟨15, 15, .ro, 0x0, .any⟩, ⟨11, 8, .ro, 0x0, .any⟩, ⟨7, 7, .ro, 0x0, .any⟩, ⟨3, 0, .ro, 0x0, .any⟩]⟩,
  ⟨0x10C, 0, 1, .low, [⟨31, 0, .ro, 0x0, .any⟩]⟩,
  ⟨0x110, 0, 1, .high, [⟨31, 0, .ro, 0x0, .any⟩]⟩,
  ⟨0x114, 0, 1, .single, [⟨31, 0, .ro, 0x0, .any⟩]⟩,
  ⟨0x118, 0, 1, .single, [⟨31, 0, .ro, 0x0, .any⟩]⟩,
  ⟨0x11C, 0, 1, .single, [⟨31, 16, .ro, 0x0, .any⟩, ⟨15, 0, .ro, 0x0, .any⟩]⟩,
  ⟨0x120, 0, 1, .single, [⟨31, 16, .ro, 0x0, .any⟩, ⟨15, 0, .ro, 0x0, .any⟩]⟩,
  ⟨0x124, 0, 1, .single, [⟨7, 0, .ro, 0x0, .any⟩]⟩,
  ⟨0x128, 0, 1, .single, [⟨22, 16, .ro, 0x0, .any⟩, ⟨15, 0, .ro, 0x0, .any⟩]⟩]

/-- The CORE page: CORE_CTX_STS, CORE_HS_CNT_LO, CORE_HS_CNT_HI, CORE_LS_ECC, CORE_IMEM_FIX, CORE_FAULT, CORE_HEARTH_STS. -/
def coreRegs : List RegDesc := [
  ⟨0x100, 0, 1, .single, [⟨31, 28, .ro, 0x0, .any⟩, ⟨27, 24, .ro, 0x0, .any⟩, ⟨23, 20, .ro, 0x0, .any⟩, ⟨19, 16, .ro, 0x0, .any⟩, ⟨15, 12, .ro, 0x0, .any⟩, ⟨11, 8, .ro, 0x0, .any⟩, ⟨7, 4, .ro, 0x0, .any⟩, ⟨3, 0, .ro, 0x0, .any⟩]⟩,
  ⟨0x108, 0, 1, .low, [⟨31, 0, .ro, 0x0, .any⟩]⟩,
  ⟨0x10C, 0, 1, .high, [⟨31, 0, .ro, 0x0, .any⟩]⟩,
  ⟨0x110, 0, 1, .single, [⟨19, 16, .ro, 0x0, .any⟩, ⟨15, 0, .ro, 0x0, .any⟩]⟩,
  ⟨0x114, 0, 1, .single, [⟨31, 16, .ro, 0x0, .any⟩, ⟨15, 0, .ro, 0x0, .any⟩]⟩,
  ⟨0x104, 0, 1, .single, [⟨31, 31, .w1c, 0x0, .any⟩, ⟨18, 16, .ro, 0x0, .any⟩, ⟨15, 0, .ro, 0x0, .any⟩]⟩,
  ⟨0x118, 0, 1, .single, [⟨31, 31, .ro, 0x0, .any⟩, ⟨30, 28, .ro, 0x0, .any⟩, ⟨27, 26, .ro, 0x0, .any⟩, ⟨25, 23, .ro, 0x0, .any⟩, ⟨20, 11, .ro, 0x0, .any⟩, ⟨10, 0, .ro, 0x0, .any⟩]⟩]

/-- The registers of a page after its header. -/
def Block.regs : Block → List RegDesc
  | .dir => dirRegs
  | .hal => halRegs
  | .mgt => mgtRegs
  | .sec => secRegs
  | .pwr => pwrRegs
  | .thm => thmRegs
  | .swp => swpRegs
  | .pair => pairRegs
  | .cel => celRegs
  | .seq => seqRegs
  | .mdl => mdlRegs
  | .por => porRegs
  | .wng => wngRegs
  | .lar => larRegs
  | .cmp => cmpRegs
  | .fab => fabRegs
  | .core => coreRegs

/-- The stated multiple of a pair read under R13, by block and offset of its low word (R6, R13). -/
def Block.pairLegal : Block → Nat → Legal
  | .seq, 0x810 => .multiple 65536
  | .por, 0x108 => .multiple 4096
  | .por, 0x114 => .multiple 8
  | .mdl, 0x118 => .multiple 4096
  | .lar, 0x104 => .multiple 262144
  | .pair, 0x110 => .multiple 1000000
  | _, _ => .any

/-- A named field: the BAR0 offset of instance 0 and index 0, the distance between indices, its bits, and the reset value of its word.
The instances of a block lie one page apart. -/
structure Fld where
  base : Nat
  stride : Nat
  hi : Nat
  lo : Nat
  word : Nat
  deriving DecidableEq, Repr

/-- The BAR0 offset of the field's word. -/
def Fld.addr (f : Fld) (inst idx : Nat) : Nat := f.base + 0x1000 * inst + f.stride * idx

/-- Bits of the field. -/
def Fld.width (f : Fld) : Nat := f.hi - f.lo + 1

/-- CORE_CTX_STS [31:28]. -/
def CORE_CTX_STS.CTX7 : Fld := ⟨0x1000100, 0, 31, 28, 0x0⟩
/-- CORE_CTX_STS [27:24]. -/
def CORE_CTX_STS.CTX6 : Fld := ⟨0x1000100, 0, 27, 24, 0x0⟩
/-- CORE_CTX_STS [23:20]. -/
def CORE_CTX_STS.CTX5 : Fld := ⟨0x1000100, 0, 23, 20, 0x0⟩
/-- CORE_CTX_STS [19:16]. -/
def CORE_CTX_STS.CTX4 : Fld := ⟨0x1000100, 0, 19, 16, 0x0⟩
/-- CORE_CTX_STS [15:12]. -/
def CORE_CTX_STS.CTX3 : Fld := ⟨0x1000100, 0, 15, 12, 0x0⟩
/-- CORE_CTX_STS [11:8]. -/
def CORE_CTX_STS.CTX2 : Fld := ⟨0x1000100, 0, 11, 8, 0x0⟩
/-- CORE_CTX_STS [7:4]. -/
def CORE_CTX_STS.CTX1 : Fld := ⟨0x1000100, 0, 7, 4, 0x0⟩
/-- CORE_CTX_STS [3:0]. -/
def CORE_CTX_STS.CTX0 : Fld := ⟨0x1000100, 0, 3, 0, 0x0⟩
/-- CORE_CTX_STS [31:0]. -/
def CORE_CTX_STS.WORD : Fld := ⟨0x1000100, 0, 31, 0, 0x0⟩
/-- CORE_HS_CNT_LO [31:0]. -/
def CORE_HS_CNT_LO.COUNT : Fld := ⟨0x1000108, 0, 31, 0, 0x0⟩
/-- CORE_HS_CNT_LO [31:0]. -/
def CORE_HS_CNT_LO.WORD : Fld := ⟨0x1000108, 0, 31, 0, 0x0⟩
/-- CORE_HS_CNT_HI [31:0]. -/
def CORE_HS_CNT_HI.COUNT : Fld := ⟨0x100010C, 0, 31, 0, 0x0⟩
/-- CORE_HS_CNT_HI [31:0]. -/
def CORE_HS_CNT_HI.WORD : Fld := ⟨0x100010C, 0, 31, 0, 0x0⟩
/-- CORE_LS_ECC [19:16]. -/
def CORE_LS_ECC.LAST_BANK : Fld := ⟨0x1000110, 0, 19, 16, 0x0⟩
/-- CORE_LS_ECC [15:0]. -/
def CORE_LS_ECC.CE_COUNT : Fld := ⟨0x1000110, 0, 15, 0, 0x0⟩
/-- CORE_LS_ECC [31:0]. -/
def CORE_LS_ECC.WORD : Fld := ⟨0x1000110, 0, 31, 0, 0x0⟩
/-- CORE_IMEM_FIX [31:16]. -/
def CORE_IMEM_FIX.REWRITES : Fld := ⟨0x1000114, 0, 31, 16, 0x0⟩
/-- CORE_IMEM_FIX [15:0]. -/
def CORE_IMEM_FIX.FIX_COUNT : Fld := ⟨0x1000114, 0, 15, 0, 0x0⟩
/-- CORE_IMEM_FIX [31:0]. -/
def CORE_IMEM_FIX.WORD : Fld := ⟨0x1000114, 0, 31, 0, 0x0⟩
/-- WNG_REMAP_ROWn [7]. -/
def WNG_REMAP_ROWn.SOURCE : Fld := ⟨0x20200, 4, 7, 7, 0x0⟩
/-- WNG_REMAP_ROWn [6]. -/
def WNG_REMAP_ROWn.ACTIVE : Fld := ⟨0x20200, 4, 6, 6, 0x0⟩
/-- WNG_REMAP_ROWn [5:0]. -/
def WNG_REMAP_ROWn.FAULT_COL : Fld := ⟨0x20200, 4, 5, 0, 0x0⟩
/-- WNG_REMAP_ROWn [31:0]. -/
def WNG_REMAP_ROWn.WORD : Fld := ⟨0x20200, 4, 31, 0, 0x0⟩
/-- WNG_KIND_ROLE [31:0]. -/
def WNG_KIND_ROLE.ACTIVE_ROWS : Fld := ⟨0x20300, 0, 31, 0, 0x0⟩
/-- WNG_KIND_ROLE [31:0]. -/
def WNG_KIND_ROLE.WORD : Fld := ⟨0x20300, 0, 31, 0, 0x0⟩
/-- WNG_WEAR_LIMIT [31:0]. -/
def WNG_WEAR_LIMIT.SECONDS : Fld := ⟨0x20304, 0, 31, 0, 0x12CF4EC0⟩
/-- WNG_WEAR_LIMIT [31:0]. -/
def WNG_WEAR_LIMIT.WORD : Fld := ⟨0x20304, 0, 31, 0, 0x12CF4EC0⟩
/-- WNG_WEAR_WARN [31:0]. -/
def WNG_WEAR_WARN.SECONDS : Fld := ⟨0x20308, 0, 31, 0, 0xF0C3F00⟩
/-- WNG_WEAR_WARN [31:0]. -/
def WNG_WEAR_WARN.WORD : Fld := ⟨0x20308, 0, 31, 0, 0xF0C3F00⟩
/-- WNG_WEAR_A_ROWn [31:0]. -/
def WNG_WEAR_A_ROWn.SECONDS : Fld := ⟨0x20400, 4, 31, 0, 0x0⟩
/-- WNG_WEAR_A_ROWn [31:0]. -/
def WNG_WEAR_A_ROWn.WORD : Fld := ⟨0x20400, 4, 31, 0, 0x0⟩
/-- WNG_WEAR_B_ROWn [31:0]. -/
def WNG_WEAR_B_ROWn.SECONDS : Fld := ⟨0x20480, 4, 31, 0, 0x0⟩
/-- WNG_WEAR_B_ROWn [31:0]. -/
def WNG_WEAR_B_ROWn.WORD : Fld := ⟨0x20480, 4, 31, 0, 0x0⟩
/-- SEQ_KV_BASE [23:0]. -/
def SEQ_KV_BASE.FIRST_FRAME : Fld := ⟨0x09800, 0, 23, 0, 0x0⟩
/-- SEQ_KV_BASE [31:0]. -/
def SEQ_KV_BASE.WORD : Fld := ⟨0x09800, 0, 31, 0, 0x0⟩
/-- SEQ_KV_SIZE [23:0]. -/
def SEQ_KV_SIZE.FRAMES : Fld := ⟨0x09804, 0, 23, 0, 0x0⟩
/-- SEQ_KV_SIZE [31:0]. -/
def SEQ_KV_SIZE.WORD : Fld := ⟨0x09804, 0, 31, 0, 0x0⟩
/-- SEQ_KV_FREE [23:0]. -/
def SEQ_KV_FREE.FREE : Fld := ⟨0x09808, 0, 23, 0, 0x0⟩
/-- SEQ_KV_FREE [31:0]. -/
def SEQ_KV_FREE.WORD : Fld := ⟨0x09808, 0, 31, 0, 0x0⟩
/-- SEQ_LOFT_CTL [8]. -/
def SEQ_LOFT_CTL.ENABLE : Fld := ⟨0x0980C, 0, 8, 8, 0x0⟩
/-- SEQ_LOFT_CTL [7]. -/
def SEQ_LOFT_CTL.TARGET : Fld := ⟨0x0980C, 0, 7, 7, 0x0⟩
/-- SEQ_LOFT_CTL [6]. -/
def SEQ_LOFT_CTL.PEER_RACK : Fld := ⟨0x0980C, 0, 6, 6, 0x0⟩
/-- SEQ_LOFT_CTL [5:0]. -/
def SEQ_LOFT_CTL.PEER_SLOT : Fld := ⟨0x0980C, 0, 5, 0, 0x0⟩
/-- SEQ_LOFT_CTL [31:0]. -/
def SEQ_LOFT_CTL.WORD : Fld := ⟨0x0980C, 0, 31, 0, 0x0⟩
/-- SEQ_LOFT_BASE_LO [31:0]. -/
def SEQ_LOFT_BASE_LO.ADDRESS : Fld := ⟨0x09810, 0, 31, 0, 0x0⟩
/-- SEQ_LOFT_BASE_LO [31:0]. -/
def SEQ_LOFT_BASE_LO.WORD : Fld := ⟨0x09810, 0, 31, 0, 0x0⟩
/-- SEQ_LOFT_BASE_HI [31:0]. -/
def SEQ_LOFT_BASE_HI.ADDRESS : Fld := ⟨0x09814, 0, 31, 0, 0x0⟩
/-- SEQ_LOFT_BASE_HI [31:0]. -/
def SEQ_LOFT_BASE_HI.WORD : Fld := ⟨0x09814, 0, 31, 0, 0x0⟩
/-- SEQ_LOFT_SIZE [31:0]. -/
def SEQ_LOFT_SIZE.UNITS : Fld := ⟨0x09818, 0, 31, 0, 0x0⟩
/-- SEQ_LOFT_SIZE [31:0]. -/
def SEQ_LOFT_SIZE.WORD : Fld := ⟨0x09818, 0, 31, 0, 0x0⟩
/-- SEQ_LOFT_TTL [16:0]. -/
def SEQ_LOFT_TTL.DEFAULT_S : Fld := ⟨0x0981C, 0, 16, 0, 0x258⟩
/-- SEQ_LOFT_TTL [31:0]. -/
def SEQ_LOFT_TTL.WORD : Fld := ⟨0x0981C, 0, 31, 0, 0x258⟩
/-- SEQ_LOFT_STS [31:16]. -/
def SEQ_LOFT_STS.EXPIRED : Fld := ⟨0x09820, 0, 31, 16, 0x0⟩
/-- SEQ_LOFT_STS [15:0]. -/
def SEQ_LOFT_STS.IN_LOFT : Fld := ⟨0x09820, 0, 15, 0, 0x0⟩
/-- SEQ_LOFT_STS [31:0]. -/
def SEQ_LOFT_STS.WORD : Fld := ⟨0x09820, 0, 31, 0, 0x0⟩
/-- SEQ_HH_CTL [31]. -/
def SEQ_HH_CTL.FORMED : Fld := ⟨0x09100, 0, 31, 31, 0x0⟩
/-- SEQ_HH_CTL [23:16]. -/
def SEQ_HH_CTL.LEADER_PAIR : Fld := ⟨0x09100, 0, 23, 16, 0x0⟩
/-- SEQ_HH_CTL [15:8]. -/
def SEQ_HH_CTL.PAIRS : Fld := ⟨0x09100, 0, 15, 8, 0x0⟩
/-- SEQ_HH_CTL [31:0]. -/
def SEQ_HH_CTL.WORD : Fld := ⟨0x09100, 0, 31, 0, 0x0⟩
/-- SEQ_STEP_LIMIT [16:0]. -/
def SEQ_STEP_LIMIT.TOKENS : Fld := ⟨0x09104, 0, 16, 0, 0x2000⟩
/-- SEQ_STEP_LIMIT [31:0]. -/
def SEQ_STEP_LIMIT.WORD : Fld := ⟨0x09104, 0, 31, 0, 0x2000⟩
/-- SEQ_TARGET [16:0]. -/
def SEQ_TARGET.TOKENS : Fld := ⟨0x09108, 0, 16, 0, 0x1000⟩
/-- SEQ_TARGET [31:0]. -/
def SEQ_TARGET.WORD : Fld := ⟨0x09108, 0, 31, 0, 0x1000⟩
/-- SEQ_TABLE_STS [16:0]. -/
def SEQ_TABLE_STS.LIVE : Fld := ⟨0x0910C, 0, 16, 0, 0x0⟩
/-- SEQ_TABLE_STS [31:0]. -/
def SEQ_TABLE_STS.WORD : Fld := ⟨0x0910C, 0, 31, 0, 0x0⟩
/-- SEQ_STEP_ID_LO [31:0]. -/
def SEQ_STEP_ID_LO.STEP : Fld := ⟨0x09110, 0, 31, 0, 0x0⟩
/-- SEQ_STEP_ID_LO [31:0]. -/
def SEQ_STEP_ID_LO.WORD : Fld := ⟨0x09110, 0, 31, 0, 0x0⟩
/-- SEQ_STEP_ID_HI [31:0]. -/
def SEQ_STEP_ID_HI.STEP : Fld := ⟨0x09114, 0, 31, 0, 0x0⟩
/-- SEQ_STEP_ID_HI [31:0]. -/
def SEQ_STEP_ID_HI.WORD : Fld := ⟨0x09114, 0, 31, 0, 0x0⟩
/-- SEQ_BOUNDARY_LO [31:0]. -/
def SEQ_BOUNDARY_LO.TIME : Fld := ⟨0x09118, 0, 31, 0, 0x0⟩
/-- SEQ_BOUNDARY_LO [31:0]. -/
def SEQ_BOUNDARY_LO.WORD : Fld := ⟨0x09118, 0, 31, 0, 0x0⟩
/-- SEQ_BOUNDARY_HI [31:0]. -/
def SEQ_BOUNDARY_HI.TIME : Fld := ⟨0x0911C, 0, 31, 0, 0x0⟩
/-- SEQ_BOUNDARY_HI [31:0]. -/
def SEQ_BOUNDARY_HI.WORD : Fld := ⟨0x0911C, 0, 31, 0, 0x0⟩
/-- SEQ_TABLE_BASE [23:0]. -/
def SEQ_TABLE_BASE.FRAME : Fld := ⟨0x09120, 0, 23, 0, 0x0⟩
/-- SEQ_TABLE_BASE [31:0]. -/
def SEQ_TABLE_BASE.WORD : Fld := ⟨0x09120, 0, 31, 0, 0x0⟩
/-- SEQ_STEP_STS [31:24]. -/
def SEQ_STEP_STS.ATTEMPT : Fld := ⟨0x09124, 0, 31, 24, 0x0⟩
/-- SEQ_STEP_STS [16:0]. -/
def SEQ_STEP_STS.TOKENS : Fld := ⟨0x09124, 0, 16, 0, 0x0⟩
/-- SEQ_STEP_STS [31:0]. -/
def SEQ_STEP_STS.WORD : Fld := ⟨0x09124, 0, 31, 0, 0x0⟩
/-- SEQ_CFG_COMMIT [31]. -/
def SEQ_CFG_COMMIT.GO : Fld := ⟨0x09128, 0, 31, 31, 0x0⟩
/-- SEQ_CFG_COMMIT [30]. -/
def SEQ_CFG_COMMIT.MISMATCH : Fld := ⟨0x09128, 0, 30, 30, 0x0⟩
/-- SEQ_CFG_COMMIT [29]. -/
def SEQ_CFG_COMMIT.PENDING : Fld := ⟨0x09128, 0, 29, 29, 0x0⟩
/-- SEQ_CFG_COMMIT [31:0]. -/
def SEQ_CFG_COMMIT.WORD : Fld := ⟨0x09128, 0, 31, 0, 0x0⟩
/-- SEQ_PART_CTLn [31]. -/
def SEQ_PART_CTLn.MODE : Fld := ⟨0x09200, 4, 31, 31, 0x2000000⟩
/-- SEQ_PART_CTLn [30:28]. -/
def SEQ_PART_CTLn.PRIO_MAX : Fld := ⟨0x09200, 4, 30, 28, 0x2000000⟩
/-- SEQ_PART_CTLn [27:22]. -/
def SEQ_PART_CTLn.CHUNK : Fld := ⟨0x09200, 4, 27, 22, 0x2000000⟩
/-- SEQ_PART_CTLn [16:0]. -/
def SEQ_PART_CTLn.QUOTA : Fld := ⟨0x09200, 4, 16, 0, 0x2000000⟩
/-- SEQ_PART_CTLn [31:0]. -/
def SEQ_PART_CTLn.WORD : Fld := ⟨0x09200, 4, 31, 0, 0x2000000⟩
/-- SEQ_PART_STSn [16:0]. -/
def SEQ_PART_STSn.LIVE : Fld := ⟨0x09240, 4, 16, 0, 0x0⟩
/-- SEQ_PART_STSn [31:0]. -/
def SEQ_PART_STSn.WORD : Fld := ⟨0x09240, 4, 31, 0, 0x0⟩
/-- SEQ_MANTELn [31]. -/
def SEQ_MANTELn.VALID : Fld := ⟨0x09300, 4, 31, 31, 0x0⟩
/-- SEQ_MANTELn [30]. -/
def SEQ_MANTELn.KIND : Fld := ⟨0x09300, 4, 30, 30, 0x0⟩
/-- SEQ_MANTELn [29:26]. -/
def SEQ_MANTELn.OWNER : Fld := ⟨0x09300, 4, 29, 26, 0x0⟩
/-- SEQ_MANTELn [13:0]. -/
def SEQ_MANTELn.RESERVE : Fld := ⟨0x09300, 4, 13, 0, 0x0⟩
/-- SEQ_MANTELn [31:0]. -/
def SEQ_MANTELn.WORD : Fld := ⟨0x09300, 4, 31, 0, 0x0⟩
/-- SEQ_CLI_SEL [11:0]. -/
def SEQ_CLI_SEL.CLIENT : Fld := ⟨0x09400, 0, 11, 0, 0x0⟩
/-- SEQ_CLI_SEL [31:0]. -/
def SEQ_CLI_SEL.WORD : Fld := ⟨0x09400, 0, 31, 0, 0x0⟩
/-- SEQ_CLI_CFG [31:28]. -/
def SEQ_CLI_CFG.OWNER : Fld := ⟨0x09404, 0, 31, 28, 0xFFFFF⟩
/-- SEQ_CLI_CFG [19:0]. -/
def SEQ_CLI_CFG.RATE : Fld := ⟨0x09404, 0, 19, 0, 0xFFFFF⟩
/-- SEQ_CLI_CFG [31:0]. -/
def SEQ_CLI_CFG.WORD : Fld := ⟨0x09404, 0, 31, 0, 0xFFFFF⟩
/-- SEQ_CLI_BURST [19:0]. -/
def SEQ_CLI_BURST.BURST : Fld := ⟨0x09408, 0, 19, 0, 0x400⟩
/-- SEQ_CLI_BURST [31:0]. -/
def SEQ_CLI_BURST.WORD : Fld := ⟨0x09408, 0, 31, 0, 0x400⟩
/-- SEQ_CLI_CREDIT_LO [31:0]. -/
def SEQ_CLI_CREDIT_LO.CREDIT : Fld := ⟨0x0940C, 0, 31, 0, 0x0⟩
/-- SEQ_CLI_CREDIT_LO [31:0]. -/
def SEQ_CLI_CREDIT_LO.WORD : Fld := ⟨0x0940C, 0, 31, 0, 0x0⟩
/-- SEQ_CLI_CREDIT_HI [31:0]. -/
def SEQ_CLI_CREDIT_HI.CREDIT : Fld := ⟨0x09410, 0, 31, 0, 0x0⟩
/-- SEQ_CLI_CREDIT_HI [31:0]. -/
def SEQ_CLI_CREDIT_HI.WORD : Fld := ⟨0x09410, 0, 31, 0, 0x0⟩
/-- SEQ_CLI_ACCm_LO [31:0]. -/
def SEQ_CLI_ACCm_LO.COUNT : Fld := ⟨0x09420, 8, 31, 0, 0x0⟩
/-- SEQ_CLI_ACCm_LO [31:0]. -/
def SEQ_CLI_ACCm_LO.WORD : Fld := ⟨0x09420, 8, 31, 0, 0x0⟩
/-- SEQ_CLI_ACCm_HI [31:0]. -/
def SEQ_CLI_ACCm_HI.COUNT : Fld := ⟨0x09424, 8, 31, 0, 0x0⟩
/-- SEQ_CLI_ACCm_HI [31:0]. -/
def SEQ_CLI_ACCm_HI.WORD : Fld := ⟨0x09424, 8, 31, 0, 0x0⟩
/-- POR_CTL [3]. -/
def POR_CTL.RING_RESET : Fld := ⟨0x10100, 0, 3, 3, 0x0⟩
/-- POR_CTL [2]. -/
def POR_CTL.PORCH_RESET : Fld := ⟨0x10100, 0, 2, 2, 0x0⟩
/-- POR_CTL [1]. -/
def POR_CTL.RING_ENABLE : Fld := ⟨0x10100, 0, 1, 1, 0x0⟩
/-- POR_CTL [0]. -/
def POR_CTL.PORCH_ENABLE : Fld := ⟨0x10100, 0, 0, 0, 0x0⟩
/-- POR_CTL [31:0]. -/
def POR_CTL.WORD : Fld := ⟨0x10100, 0, 31, 0, 0x0⟩
/-- POR_STAMP [31:0]. -/
def POR_STAMP.NEXT : Fld := ⟨0x10104, 0, 31, 0, 0x1⟩
/-- POR_STAMP [31:0]. -/
def POR_STAMP.WORD : Fld := ⟨0x10104, 0, 31, 0, 0x1⟩
/-- POR_RING_BASE_LO [31:0]. -/
def POR_RING_BASE_LO.ADDRESS : Fld := ⟨0x10108, 0, 31, 0, 0x0⟩
/-- POR_RING_BASE_LO [31:0]. -/
def POR_RING_BASE_LO.WORD : Fld := ⟨0x10108, 0, 31, 0, 0x0⟩
/-- POR_RING_BASE_HI [31:0]. -/
def POR_RING_BASE_HI.ADDRESS : Fld := ⟨0x1010C, 0, 31, 0, 0x0⟩
/-- POR_RING_BASE_HI [31:0]. -/
def POR_RING_BASE_HI.WORD : Fld := ⟨0x1010C, 0, 31, 0, 0x0⟩
/-- POR_RING_SIZE [4:0]. -/
def POR_RING_SIZE.LOG2_SLOTS : Fld := ⟨0x10110, 0, 4, 0, 0x6⟩
/-- POR_RING_SIZE [31:0]. -/
def POR_RING_SIZE.WORD : Fld := ⟨0x10110, 0, 31, 0, 0x6⟩
/-- POR_CONS_ADDR_LO [31:0]. -/
def POR_CONS_ADDR_LO.ADDRESS : Fld := ⟨0x10114, 0, 31, 0, 0x0⟩
/-- POR_CONS_ADDR_LO [31:0]. -/
def POR_CONS_ADDR_LO.WORD : Fld := ⟨0x10114, 0, 31, 0, 0x0⟩
/-- POR_CONS_ADDR_HI [31:0]. -/
def POR_CONS_ADDR_HI.ADDRESS : Fld := ⟨0x10118, 0, 31, 0, 0x0⟩
/-- POR_CONS_ADDR_HI [31:0]. -/
def POR_CONS_ADDR_HI.WORD : Fld := ⟨0x10118, 0, 31, 0, 0x0⟩
/-- POR_PROD [31:0]. -/
def POR_PROD.INDEX : Fld := ⟨0x1011C, 0, 31, 0, 0x0⟩
/-- POR_PROD [31:0]. -/
def POR_PROD.WORD : Fld := ⟨0x1011C, 0, 31, 0, 0x0⟩
/-- POR_CONS [31:0]. -/
def POR_CONS.INDEX : Fld := ⟨0x10120, 0, 31, 0, 0x0⟩
/-- POR_CONS [31:0]. -/
def POR_CONS.WORD : Fld := ⟨0x10120, 0, 31, 0, 0x0⟩
/-- POR_HELD [12:0]. -/
def POR_HELD.RECORDS : Fld := ⟨0x10124, 0, 12, 0, 0x0⟩
/-- POR_HELD [31:0]. -/
def POR_HELD.WORD : Fld := ⟨0x10124, 0, 31, 0, 0x0⟩
/-- POR_IRQ_MOD [31:16]. -/
def POR_IRQ_MOD.TIME_US : Fld := ⟨0x10128, 0, 31, 16, 0x1⟩
/-- POR_IRQ_MOD [15:0]. -/
def POR_IRQ_MOD.COUNT : Fld := ⟨0x10128, 0, 15, 0, 0x1⟩
/-- POR_IRQ_MOD [31:0]. -/
def POR_IRQ_MOD.WORD : Fld := ⟨0x10128, 0, 31, 0, 0x1⟩
/-- RES_PEEK_LO [31:0]. -/
def RES_PEEK_LO.STEP : Fld := ⟨0x10130, 0, 31, 0, 0x0⟩
/-- RES_PEEK_LO [31:0]. -/
def RES_PEEK_LO.WORD : Fld := ⟨0x10130, 0, 31, 0, 0x0⟩
/-- RES_PEEK_HI [31]. -/
def RES_PEEK_HI.NOT_READY : Fld := ⟨0x10134, 0, 31, 31, 0x80000000⟩
/-- RES_PEEK_HI [30]. -/
def RES_PEEK_HI.HELD : Fld := ⟨0x10134, 0, 30, 30, 0x80000000⟩
/-- RES_PEEK_HI [29:0]. -/
def RES_PEEK_HI.STEP : Fld := ⟨0x10134, 0, 29, 0, 0x80000000⟩
/-- RES_PEEK_HI [31:0]. -/
def RES_PEEK_HI.WORD : Fld := ⟨0x10134, 0, 31, 0, 0x80000000⟩
/-- POR_TORN [15:0]. -/
def POR_TORN.COUNT : Fld := ⟨0x10138, 0, 15, 0, 0x0⟩
/-- POR_TORN [31:0]. -/
def POR_TORN.WORD : Fld := ⟨0x10138, 0, 31, 0, 0x0⟩
/-- MDL_CTL [31:16]. -/
def MDL_CTL.ADMIN_MASK : Fld := ⟨0x0A100, 0, 31, 16, 0x0⟩
/-- MDL_CTL [31:0]. -/
def MDL_CTL.WORD : Fld := ⟨0x0A100, 0, 31, 0, 0x0⟩
/-- MDL_REGION [31:16]. -/
def MDL_REGION.BASE : Fld := ⟨0x0A104, 0, 31, 16, 0x0⟩
/-- MDL_REGION [15:0]. -/
def MDL_REGION.SIZE : Fld := ⟨0x0A104, 0, 15, 0, 0x0⟩
/-- MDL_REGION [31:0]. -/
def MDL_REGION.WORD : Fld := ⟨0x0A104, 0, 31, 0, 0x0⟩
/-- MDL_FREE [31:16]. -/
def MDL_FREE.LARGEST : Fld := ⟨0x0A108, 0, 31, 16, 0x0⟩
/-- MDL_FREE [15:0]. -/
def MDL_FREE.FREE : Fld := ⟨0x0A108, 0, 15, 0, 0x0⟩
/-- MDL_FREE [31:0]. -/
def MDL_FREE.WORD : Fld := ⟨0x0A108, 0, 31, 0, 0x0⟩
/-- MDL_SEATED [31]. -/
def MDL_SEATED.VALID : Fld := ⟨0x0A10C, 0, 31, 31, 0x0⟩
/-- MDL_SEATED [5:0]. -/
def MDL_SEATED.SLOT : Fld := ⟨0x0A10C, 0, 5, 0, 0x0⟩
/-- MDL_SEATED [31:0]. -/
def MDL_SEATED.WORD : Fld := ⟨0x0A10C, 0, 31, 0, 0x0⟩
/-- MDL_RECHECK [15:0]. -/
def MDL_RECHECK.INTERVAL_MIN : Fld := ⟨0x0A110, 0, 15, 0, 0x5A0⟩
/-- MDL_RECHECK [31:0]. -/
def MDL_RECHECK.WORD : Fld := ⟨0x0A110, 0, 31, 0, 0x5A0⟩
/-- MDL_LOAD_CTL [11:0]. -/
def MDL_LOAD_CTL.RATE : Fld := ⟨0x0A114, 0, 11, 0, 0x0⟩
/-- MDL_LOAD_CTL [31:0]. -/
def MDL_LOAD_CTL.WORD : Fld := ⟨0x0A114, 0, 31, 0, 0x0⟩
/-- MDL_HOST_BASE_LO [31:0]. -/
def MDL_HOST_BASE_LO.ADDRESS : Fld := ⟨0x0A118, 0, 31, 0, 0x0⟩
/-- MDL_HOST_BASE_LO [31:0]. -/
def MDL_HOST_BASE_LO.WORD : Fld := ⟨0x0A118, 0, 31, 0, 0x0⟩
/-- MDL_HOST_BASE_HI [31:0]. -/
def MDL_HOST_BASE_HI.ADDRESS : Fld := ⟨0x0A11C, 0, 31, 0, 0x0⟩
/-- MDL_HOST_BASE_HI [31:0]. -/
def MDL_HOST_BASE_HI.WORD : Fld := ⟨0x0A11C, 0, 31, 0, 0x0⟩
/-- MDL_EVT_LO [31:0]. -/
def MDL_EVT_LO.CHANGED : Fld := ⟨0x0A120, 0, 31, 0, 0x0⟩
/-- MDL_EVT_LO [31:0]. -/
def MDL_EVT_LO.WORD : Fld := ⟨0x0A120, 0, 31, 0, 0x0⟩
/-- MDL_EVT_HI [31:0]. -/
def MDL_EVT_HI.CHANGED : Fld := ⟨0x0A124, 0, 31, 0, 0x0⟩
/-- MDL_EVT_HI [31:0]. -/
def MDL_EVT_HI.WORD : Fld := ⟨0x0A124, 0, 31, 0, 0x0⟩
/-- MDL_LOAD_DONE [31:0]. -/
def MDL_LOAD_DONE.SHARDS : Fld := ⟨0x0A128, 0, 31, 0, 0x0⟩
/-- MDL_LOAD_DONE [31:0]. -/
def MDL_LOAD_DONE.WORD : Fld := ⟨0x0A128, 0, 31, 0, 0x0⟩
/-- MDL_REPAIR [31:16]. -/
def MDL_REPAIR.BAD : Fld := ⟨0x0A12C, 0, 31, 16, 0x0⟩
/-- MDL_REPAIR [15:0]. -/
def MDL_REPAIR.REPAIRED : Fld := ⟨0x0A12C, 0, 15, 0, 0x0⟩
/-- MDL_REPAIR [31:0]. -/
def MDL_REPAIR.WORD : Fld := ⟨0x0A12C, 0, 31, 0, 0x0⟩
/-- CMP_SLOTn [31]. -/
def CMP_SLOTn.VALID : Fld := ⟨0x28100, 4, 31, 31, 0x0⟩
/-- CMP_SLOTn [30]. -/
def CMP_SLOTn.PENDING : Fld := ⟨0x28100, 4, 30, 30, 0x0⟩
/-- CMP_SLOTn [23:16]. -/
def CMP_SLOTn.GENERATION : Fld := ⟨0x28100, 4, 23, 16, 0x0⟩
/-- CMP_SLOTn [13:0]. -/
def CMP_SLOTn.INFLIGHT : Fld := ⟨0x28100, 4, 13, 0, 0x0⟩
/-- CMP_SLOTn [31:0]. -/
def CMP_SLOTn.WORD : Fld := ⟨0x28100, 4, 31, 0, 0x0⟩
/-- CMP_SET [31]. -/
def CMP_SET.LOADED : Fld := ⟨0x28140, 0, 31, 31, 0x0⟩
/-- CMP_SET [5:0]. -/
def CMP_SET.MODEL_SLOT : Fld := ⟨0x28140, 0, 5, 0, 0x0⟩
/-- CMP_SET [31:0]. -/
def CMP_SET.WORD : Fld := ⟨0x28140, 0, 31, 0, 0x0⟩
/-- CMP_REFETCH [31:16]. -/
def CMP_REFETCH.PERSISTENT : Fld := ⟨0x28144, 0, 31, 16, 0x0⟩
/-- CMP_REFETCH [15:0]. -/
def CMP_REFETCH.REFETCHES : Fld := ⟨0x28144, 0, 15, 0, 0x0⟩
/-- CMP_REFETCH [31:0]. -/
def CMP_REFETCH.WORD : Fld := ⟨0x28144, 0, 31, 0, 0x0⟩
/-- CMP_STALE [15:0]. -/
def CMP_STALE.COUNT : Fld := ⟨0x28148, 0, 15, 0, 0x0⟩
/-- CMP_STALE [31:0]. -/
def CMP_STALE.WORD : Fld := ⟨0x28148, 0, 31, 0, 0x0⟩
/-- CMP_OUT_LO [31:0]. -/
def CMP_OUT_LO.BYTES : Fld := ⟨0x28150, 0, 31, 0, 0x0⟩
/-- CMP_OUT_LO [31:0]. -/
def CMP_OUT_LO.WORD : Fld := ⟨0x28150, 0, 31, 0, 0x0⟩
/-- CMP_OUT_HI [31:0]. -/
def CMP_OUT_HI.BYTES : Fld := ⟨0x28154, 0, 31, 0, 0x0⟩
/-- CMP_OUT_HI [31:0]. -/
def CMP_OUT_HI.WORD : Fld := ⟨0x28154, 0, 31, 0, 0x0⟩
/-- CMP_IN_LO [31:0]. -/
def CMP_IN_LO.BYTES : Fld := ⟨0x28158, 0, 31, 0, 0x0⟩
/-- CMP_IN_LO [31:0]. -/
def CMP_IN_LO.WORD : Fld := ⟨0x28158, 0, 31, 0, 0x0⟩
/-- CMP_IN_HI [31:0]. -/
def CMP_IN_HI.BYTES : Fld := ⟨0x2815C, 0, 31, 0, 0x0⟩
/-- CMP_IN_HI [31:0]. -/
def CMP_IN_HI.WORD : Fld := ⟨0x2815C, 0, 31, 0, 0x0⟩
/-- CEL_CAP [31:24]. -/
def CEL_CAP.STACK_GB : Fld := ⟨0x08100, 0, 31, 24, 0xC0000⟩
/-- CEL_CAP [23:16]. -/
def CEL_CAP.STACKS : Fld := ⟨0x08100, 0, 23, 16, 0xC0000⟩
/-- CEL_CAP [15:0]. -/
def CEL_CAP.EXTENTS : Fld := ⟨0x08100, 0, 15, 0, 0xC0000⟩
/-- CEL_CAP [31:0]. -/
def CEL_CAP.WORD : Fld := ⟨0x08100, 0, 31, 0, 0xC0000⟩
/-- CEL_UE [31:16]. -/
def CEL_UE.COUNT : Fld := ⟨0x08104, 0, 31, 16, 0x0⟩
/-- CEL_UE [3:0]. -/
def CEL_UE.LAST_STACK : Fld := ⟨0x08104, 0, 3, 0, 0x0⟩
/-- CEL_UE [31:0]. -/
def CEL_UE.WORD : Fld := ⟨0x08104, 0, 31, 0, 0x0⟩
/-- CEL_SCRUB_CTL [7:0]. -/
def CEL_SCRUB_CTL.INTERVAL_H : Fld := ⟨0x08108, 0, 7, 0, 0x18⟩
/-- CEL_SCRUB_CTL [31:0]. -/
def CEL_SCRUB_CTL.WORD : Fld := ⟨0x08108, 0, 31, 0, 0x18⟩
/-- CEL_SCRUB_STS [31]. -/
def CEL_SCRUB_STS.LATE : Fld := ⟨0x0810C, 0, 31, 31, 0x0⟩
/-- CEL_SCRUB_STS [22:16]. -/
def CEL_SCRUB_STS.PERCENT : Fld := ⟨0x0810C, 0, 22, 16, 0x0⟩
/-- CEL_SCRUB_STS [15:0]. -/
def CEL_SCRUB_STS.PASSES : Fld := ⟨0x0810C, 0, 15, 0, 0x0⟩
/-- CEL_SCRUB_STS [31:0]. -/
def CEL_SCRUB_STS.WORD : Fld := ⟨0x0810C, 0, 31, 0, 0x0⟩
/-- CEL_PPR [31:16]. -/
def CEL_PPR.DONE : Fld := ⟨0x08110, 0, 31, 16, 0x0⟩
/-- CEL_PPR [15:0]. -/
def CEL_PPR.LEFT : Fld := ⟨0x08110, 0, 15, 0, 0x0⟩
/-- CEL_PPR [31:0]. -/
def CEL_PPR.WORD : Fld := ⟨0x08110, 0, 31, 0, 0x0⟩
/-- CEL_LANE [31:16]. -/
def CEL_LANE.DONE : Fld := ⟨0x08114, 0, 31, 16, 0x0⟩
/-- CEL_LANE [15:0]. -/
def CEL_LANE.LEFT : Fld := ⟨0x08114, 0, 15, 0, 0x0⟩
/-- CEL_LANE [31:0]. -/
def CEL_LANE.WORD : Fld := ⟨0x08114, 0, 31, 0, 0x0⟩
/-- CEL_PROBE_LO [31:0]. -/
def CEL_PROBE_LO.ADDRESS : Fld := ⟨0x08118, 0, 31, 0, 0x0⟩
/-- CEL_PROBE_LO [31:0]. -/
def CEL_PROBE_LO.WORD : Fld := ⟨0x08118, 0, 31, 0, 0x0⟩
/-- CEL_PROBE_HI [31:0]. -/
def CEL_PROBE_HI.ADDRESS : Fld := ⟨0x0811C, 0, 31, 0, 0x0⟩
/-- CEL_PROBE_HI [31:0]. -/
def CEL_PROBE_HI.WORD : Fld := ⟨0x0811C, 0, 31, 0, 0x0⟩
/-- CEL_PROBE_RES [31:28]. -/
def CEL_PROBE_RES.STACK : Fld := ⟨0x08120, 0, 31, 28, 0x80000⟩
/-- CEL_PROBE_RES [27:23]. -/
def CEL_PROBE_RES.PC : Fld := ⟨0x08120, 0, 27, 23, 0x80000⟩
/-- CEL_PROBE_RES [22:20]. -/
def CEL_PROBE_RES.PLANE : Fld := ⟨0x08120, 0, 22, 20, 0x80000⟩
/-- CEL_PROBE_RES [19]. -/
def CEL_PROBE_RES.VALID : Fld := ⟨0x08120, 0, 19, 19, 0x80000⟩
/-- CEL_PROBE_RES [31:0]. -/
def CEL_PROBE_RES.WORD : Fld := ⟨0x08120, 0, 31, 0, 0x80000⟩
/-- CEL_CE_STACKs [31:0]. -/
def CEL_CE_STACKs.COUNT : Fld := ⟨0x08200, 4, 31, 0, 0x0⟩
/-- CEL_CE_STACKs [31:0]. -/
def CEL_CE_STACKs.WORD : Fld := ⟨0x08200, 4, 31, 0, 0x0⟩
/-- LAR_CTL [0]. -/
def LAR_CTL.ENABLE : Fld := ⟨0x24100, 0, 0, 0, 0x0⟩
/-- LAR_CTL [31:0]. -/
def LAR_CTL.WORD : Fld := ⟨0x24100, 0, 31, 0, 0x0⟩
/-- LAR_RING_LO [31:0]. -/
def LAR_RING_LO.ADDRESS : Fld := ⟨0x24104, 0, 31, 0, 0x0⟩
/-- LAR_RING_LO [31:0]. -/
def LAR_RING_LO.WORD : Fld := ⟨0x24104, 0, 31, 0, 0x0⟩
/-- LAR_RING_HI [31:0]. -/
def LAR_RING_HI.ADDRESS : Fld := ⟨0x24108, 0, 31, 0, 0x0⟩
/-- LAR_RING_HI [31:0]. -/
def LAR_RING_HI.WORD : Fld := ⟨0x24108, 0, 31, 0, 0x0⟩
/-- LAR_STS [31]. -/
def LAR_STS.BUSY : Fld := ⟨0x2410C, 0, 31, 31, 0x0⟩
/-- LAR_STS [11:0]. -/
def LAR_STS.QUEUED : Fld := ⟨0x2410C, 0, 11, 0, 0x0⟩
/-- LAR_STS [31:0]. -/
def LAR_STS.WORD : Fld := ⟨0x2410C, 0, 31, 0, 0x0⟩
/-- LAR_ROWS_LO [31:0]. -/
def LAR_ROWS_LO.ROWS : Fld := ⟨0x24110, 0, 31, 0, 0x0⟩
/-- LAR_ROWS_LO [31:0]. -/
def LAR_ROWS_LO.WORD : Fld := ⟨0x24110, 0, 31, 0, 0x0⟩
/-- LAR_ROWS_HI [31:0]. -/
def LAR_ROWS_HI.ROWS : Fld := ⟨0x24114, 0, 31, 0, 0x0⟩
/-- LAR_ROWS_HI [31:0]. -/
def LAR_ROWS_HI.WORD : Fld := ⟨0x24114, 0, 31, 0, 0x0⟩
/-- LAR_ERR [31:16]. -/
def LAR_ERR.KEY : Fld := ⟨0x24118, 0, 31, 16, 0x0⟩
/-- LAR_ERR [15:0]. -/
def LAR_ERR.CMD : Fld := ⟨0x24118, 0, 15, 0, 0x0⟩
/-- LAR_ERR [31:0]. -/
def LAR_ERR.WORD : Fld := ⟨0x24118, 0, 31, 0, 0x0⟩
/-- FAB_CTL [1]. -/
def FAB_CTL.SPARE_AUTO : Fld := ⟨0x2C100, 0, 1, 1, 0x2⟩
/-- FAB_CTL [0]. -/
def FAB_CTL.ENABLE : Fld := ⟨0x2C100, 0, 0, 0, 0x2⟩
/-- FAB_CTL [31:0]. -/
def FAB_CTL.WORD : Fld := ⟨0x2C100, 0, 31, 0, 0x2⟩
/-- FAB_LANE_STS [17:0]. -/
def FAB_LANE_STS.UP : Fld := ⟨0x2C104, 0, 17, 0, 0x0⟩
/-- FAB_LANE_STS [31:0]. -/
def FAB_LANE_STS.WORD : Fld := ⟨0x2C104, 0, 31, 0, 0x0⟩
/-- FAB_SPARE_MAP [15]. -/
def FAB_SPARE_MAP.S1_VALID : Fld := ⟨0x2C108, 0, 15, 15, 0x0⟩
/-- FAB_SPARE_MAP [11:8]. -/
def FAB_SPARE_MAP.S1_FOR : Fld := ⟨0x2C108, 0, 11, 8, 0x0⟩
/-- FAB_SPARE_MAP [7]. -/
def FAB_SPARE_MAP.S0_VALID : Fld := ⟨0x2C108, 0, 7, 7, 0x0⟩
/-- FAB_SPARE_MAP [3:0]. -/
def FAB_SPARE_MAP.S0_FOR : Fld := ⟨0x2C108, 0, 3, 0, 0x0⟩
/-- FAB_SPARE_MAP [31:0]. -/
def FAB_SPARE_MAP.WORD : Fld := ⟨0x2C108, 0, 31, 0, 0x0⟩
/-- FAB_FEC_CE_LO [31:0]. -/
def FAB_FEC_CE_LO.COUNT : Fld := ⟨0x2C10C, 0, 31, 0, 0x0⟩
/-- FAB_FEC_CE_LO [31:0]. -/
def FAB_FEC_CE_LO.WORD : Fld := ⟨0x2C10C, 0, 31, 0, 0x0⟩
/-- FAB_FEC_CE_HI [31:0]. -/
def FAB_FEC_CE_HI.COUNT : Fld := ⟨0x2C110, 0, 31, 0, 0x0⟩
/-- FAB_FEC_CE_HI [31:0]. -/
def FAB_FEC_CE_HI.WORD : Fld := ⟨0x2C110, 0, 31, 0, 0x0⟩
/-- FAB_FEC_UE [31:0]. -/
def FAB_FEC_UE.COUNT : Fld := ⟨0x2C114, 0, 31, 0, 0x0⟩
/-- FAB_FEC_UE [31:0]. -/
def FAB_FEC_UE.WORD : Fld := ⟨0x2C114, 0, 31, 0, 0x0⟩
/-- FAB_RETRY [31:0]. -/
def FAB_RETRY.REPLAYS : Fld := ⟨0x2C118, 0, 31, 0, 0x0⟩
/-- FAB_RETRY [31:0]. -/
def FAB_RETRY.WORD : Fld := ⟨0x2C118, 0, 31, 0, 0x0⟩
/-- FAB_MESH_CE [31:16]. -/
def FAB_MESH_CE.LINTEL : Fld := ⟨0x2C11C, 0, 31, 16, 0x0⟩
/-- FAB_MESH_CE [15:0]. -/
def FAB_MESH_CE.MESH : Fld := ⟨0x2C11C, 0, 15, 0, 0x0⟩
/-- FAB_MESH_CE [31:0]. -/
def FAB_MESH_CE.WORD : Fld := ⟨0x2C11C, 0, 31, 0, 0x0⟩
/-- FAB_HOLD [31:16]. -/
def FAB_HOLD.OVERRUNS : Fld := ⟨0x2C120, 0, 31, 16, 0x0⟩
/-- FAB_HOLD [15:0]. -/
def FAB_HOLD.DISCARDS : Fld := ⟨0x2C120, 0, 15, 0, 0x0⟩
/-- FAB_HOLD [31:0]. -/
def FAB_HOLD.WORD : Fld := ⟨0x2C120, 0, 31, 0, 0x0⟩
/-- FAB_EPOCH [7:0]. -/
def FAB_EPOCH.EPOCH : Fld := ⟨0x2C124, 0, 7, 0, 0x0⟩
/-- FAB_EPOCH [31:0]. -/
def FAB_EPOCH.WORD : Fld := ⟨0x2C124, 0, 31, 0, 0x0⟩
/-- FAB_XRACK [22:16]. -/
def FAB_XRACK.INFLIGHT : Fld := ⟨0x2C128, 0, 22, 16, 0x0⟩
/-- FAB_XRACK [15:0]. -/
def FAB_XRACK.TIMEOUTS : Fld := ⟨0x2C128, 0, 15, 0, 0x0⟩
/-- FAB_XRACK [31:0]. -/
def FAB_XRACK.WORD : Fld := ⟨0x2C128, 0, 31, 0, 0x0⟩
/-- PAIR_CTL [8]. -/
def PAIR_CTL.AUTO_REJOIN : Fld := ⟨0x07100, 0, 8, 8, 0x100⟩
/-- PAIR_CTL [7:0]. -/
def PAIR_CTL.PAIR_NUM : Fld := ⟨0x07100, 0, 7, 0, 0x100⟩
/-- PAIR_CTL [31:0]. -/
def PAIR_CTL.WORD : Fld := ⟨0x07100, 0, 31, 0, 0x100⟩
/-- PAIR_STS [31:29]. -/
def PAIR_STS.STATE : Fld := ⟨0x07104, 0, 31, 29, 0x0⟩
/-- PAIR_STS [28]. -/
def PAIR_STS.POSITION : Fld := ⟨0x07104, 0, 28, 28, 0x0⟩
/-- PAIR_STS [27]. -/
def PAIR_STS.LINK_HB : Fld := ⟨0x07104, 0, 27, 27, 0x0⟩
/-- PAIR_STS [26]. -/
def PAIR_STS.ALIVE_HB : Fld := ⟨0x07104, 0, 26, 26, 0x0⟩
/-- PAIR_STS [20:16]. -/
def PAIR_STS.LANES : Fld := ⟨0x07104, 0, 20, 16, 0x0⟩
/-- PAIR_STS [15:0]. -/
def PAIR_STS.TAKEOVERS : Fld := ⟨0x07104, 0, 15, 0, 0x0⟩
/-- PAIR_STS [31:0]. -/
def PAIR_STS.WORD : Fld := ⟨0x07104, 0, 31, 0, 0x0⟩
/-- PAIR_MAINT [31]. -/
def PAIR_MAINT.REJOIN : Fld := ⟨0x07108, 0, 31, 31, 0x0⟩
/-- PAIR_MAINT [30]. -/
def PAIR_MAINT.LEAVE : Fld := ⟨0x07108, 0, 30, 30, 0x0⟩
/-- PAIR_MAINT [29]. -/
def PAIR_MAINT.RELEASE : Fld := ⟨0x07108, 0, 29, 29, 0x0⟩
/-- PAIR_MAINT [28]. -/
def PAIR_MAINT.FORCE : Fld := ⟨0x07108, 0, 28, 28, 0x0⟩
/-- PAIR_MAINT [6:0]. -/
def PAIR_MAINT.LANE : Fld := ⟨0x07108, 0, 6, 0, 0x0⟩
/-- PAIR_MAINT [31:0]. -/
def PAIR_MAINT.WORD : Fld := ⟨0x07108, 0, 31, 0, 0x0⟩
/-- PAIR_MIRROR [31:16]. -/
def PAIR_MIRROR.MISMATCHES : Fld := ⟨0x0710C, 0, 31, 16, 0x0⟩
/-- PAIR_MIRROR [15:0]. -/
def PAIR_MIRROR.LAST_US : Fld := ⟨0x0710C, 0, 15, 0, 0x0⟩
/-- PAIR_MIRROR [31:0]. -/
def PAIR_MIRROR.WORD : Fld := ⟨0x0710C, 0, 31, 0, 0x0⟩
/-- PAIR_RTIME_SET_LO [31:0]. -/
def PAIR_RTIME_SET_LO.TIME : Fld := ⟨0x07110, 0, 31, 0, 0x0⟩
/-- PAIR_RTIME_SET_LO [31:0]. -/
def PAIR_RTIME_SET_LO.WORD : Fld := ⟨0x07110, 0, 31, 0, 0x0⟩
/-- PAIR_RTIME_SET_HI [31:0]. -/
def PAIR_RTIME_SET_HI.TIME : Fld := ⟨0x07114, 0, 31, 0, 0x0⟩
/-- PAIR_RTIME_SET_HI [31:0]. -/
def PAIR_RTIME_SET_HI.WORD : Fld := ⟨0x07114, 0, 31, 0, 0x0⟩
/-- PAIR_RTIME_CTL [31]. -/
def PAIR_RTIME_CTL.ARM : Fld := ⟨0x07118, 0, 31, 31, 0x0⟩
/-- PAIR_RTIME_CTL [30]. -/
def PAIR_RTIME_CTL.REFCLK_OK : Fld := ⟨0x07118, 0, 30, 30, 0x0⟩
/-- PAIR_RTIME_CTL [29]. -/
def PAIR_RTIME_CTL.SYNC_OK : Fld := ⟨0x07118, 0, 29, 29, 0x0⟩
/-- PAIR_RTIME_CTL [15:0]. -/
def PAIR_RTIME_CTL.SLIPS : Fld := ⟨0x07118, 0, 15, 0, 0x0⟩
/-- PAIR_RTIME_CTL [31:0]. -/
def PAIR_RTIME_CTL.WORD : Fld := ⟨0x07118, 0, 31, 0, 0x0⟩
/-- PAIR_RTIME_LO [31:0]. -/
def PAIR_RTIME_LO.TIME : Fld := ⟨0x0711C, 0, 31, 0, 0x0⟩
/-- PAIR_RTIME_LO [31:0]. -/
def PAIR_RTIME_LO.WORD : Fld := ⟨0x0711C, 0, 31, 0, 0x0⟩
/-- PAIR_RTIME_HI [31:0]. -/
def PAIR_RTIME_HI.TIME : Fld := ⟨0x07120, 0, 31, 0, 0x0⟩
/-- PAIR_RTIME_HI [31:0]. -/
def PAIR_RTIME_HI.WORD : Fld := ⟨0x07120, 0, 31, 0, 0x0⟩
/-- PAIR_MAPOUTm [31:0]. -/
def PAIR_MAPOUTm.OUT : Fld := ⟨0x07130, 4, 31, 0, 0x0⟩
/-- PAIR_MAPOUTm [31:0]. -/
def PAIR_MAPOUTm.WORD : Fld := ⟨0x07130, 4, 31, 0, 0x0⟩
/-- PAIR_PLANn [31:8]. -/
def PAIR_PLANn.IDENTITY : Fld := ⟨0x07200, 4, 31, 8, 0x0⟩
/-- PAIR_PLANn [7]. -/
def PAIR_PLANn.VALID : Fld := ⟨0x07200, 4, 7, 7, 0x0⟩
/-- PAIR_PLANn [6]. -/
def PAIR_PLANn.REMAP_OK : Fld := ⟨0x07200, 4, 6, 6, 0x0⟩
/-- PAIR_PLANn [31:0]. -/
def PAIR_PLANn.WORD : Fld := ⟨0x07200, 4, 31, 0, 0x0⟩
/-- PAIR_PEERn [31:8]. -/
def PAIR_PEERn.IDENTITY : Fld := ⟨0x07400, 4, 31, 8, 0x0⟩
/-- PAIR_PEERn [7:5]. -/
def PAIR_PEERn.OUTCOME : Fld := ⟨0x07400, 4, 7, 5, 0x0⟩
/-- PAIR_PEERn [31:0]. -/
def PAIR_PEERn.WORD : Fld := ⟨0x07400, 4, 31, 0, 0x0⟩
/-- PWR_OP_STS [31:28]. -/
def PWR_OP_STS.POINT : Fld := ⟨0x04100, 0, 31, 28, 0xAAFF0000⟩
/-- PWR_OP_STS [27:24]. -/
def PWR_OP_STS.TARGET : Fld := ⟨0x04100, 0, 27, 24, 0xAAFF0000⟩
/-- PWR_OP_STS [23:20]. -/
def PWR_OP_STS.C_CAP : Fld := ⟨0x04100, 0, 23, 20, 0xAAFF0000⟩
/-- PWR_OP_STS [19:16]. -/
def PWR_OP_STS.C_THM : Fld := ⟨0x04100, 0, 19, 16, 0xAAFF0000⟩
/-- PWR_OP_STS [11:0]. -/
def PWR_OP_STS.RAIL_MV : Fld := ⟨0x04100, 0, 11, 0, 0xAAFF0000⟩
/-- PWR_OP_STS [31:0]. -/
def PWR_OP_STS.WORD : Fld := ⟨0x04100, 0, 31, 0, 0xAAFF0000⟩
/-- PWR_OP_CTL [3:0]. -/
def PWR_OP_CTL.DEFAULT_OP : Fld := ⟨0x04104, 0, 3, 0, 0xA⟩
/-- PWR_OP_CTL [31:0]. -/
def PWR_OP_CTL.WORD : Fld := ⟨0x04104, 0, 31, 0, 0xA⟩
/-- PWR_BOOST [1:0]. -/
def PWR_BOOST.LEVEL : Fld := ⟨0x04108, 0, 1, 0, 0x2⟩
/-- PWR_BOOST [31:0]. -/
def PWR_BOOST.WORD : Fld := ⟨0x04108, 0, 31, 0, 0x2⟩
/-- PWR_CAP [11:0]. -/
def PWR_CAP.CAP_W : Fld := ⟨0x0410C, 0, 11, 0, 0xAF0⟩
/-- PWR_CAP [31:0]. -/
def PWR_CAP.WORD : Fld := ⟨0x0410C, 0, 31, 0, 0xAF0⟩
/-- PWR_CAP_CTL [31]. -/
def PWR_CAP_CTL.EXC_EN : Fld := ⟨0x04110, 0, 31, 31, 0x80578005⟩
/-- PWR_CAP_CTL [30]. -/
def PWR_CAP_CTL.HB_EN : Fld := ⟨0x04110, 0, 30, 30, 0x80578005⟩
/-- PWR_CAP_CTL [23:12]. -/
def PWR_CAP_CTL.SAFE_CAP_W : Fld := ⟨0x04110, 0, 23, 12, 0x80578005⟩
/-- PWR_CAP_CTL [7:0]. -/
def PWR_CAP_CTL.LAG_LIMIT_US : Fld := ⟨0x04110, 0, 7, 0, 0x80578005⟩
/-- PWR_CAP_CTL [31:0]. -/
def PWR_CAP_CTL.WORD : Fld := ⟨0x04110, 0, 31, 0, 0x80578005⟩
/-- PWR_CAP_STS [31]. -/
def PWR_CAP_STS.LAGGING : Fld := ⟨0x04114, 0, 31, 31, 0x0⟩
/-- PWR_CAP_STS [30]. -/
def PWR_CAP_STS.SAFE : Fld := ⟨0x04114, 0, 30, 30, 0x0⟩
/-- PWR_CAP_STS [29]. -/
def PWR_CAP_STS.BRAKED : Fld := ⟨0x04114, 0, 29, 29, 0x0⟩
/-- PWR_CAP_STS [15:0]. -/
def PWR_CAP_STS.LAG : Fld := ⟨0x04114, 0, 15, 0, 0x0⟩
/-- PWR_CAP_STS [31:0]. -/
def PWR_CAP_STS.WORD : Fld := ⟨0x04114, 0, 31, 0, 0x0⟩
/-- PWR_DRAW [31:16]. -/
def PWR_DRAW.AVG_1MS : Fld := ⟨0x04118, 0, 31, 16, 0x0⟩
/-- PWR_DRAW [15:0]. -/
def PWR_DRAW.NOW : Fld := ⟨0x04118, 0, 15, 0, 0x0⟩
/-- PWR_DRAW [31:0]. -/
def PWR_DRAW.WORD : Fld := ⟨0x04118, 0, 31, 0, 0x0⟩
/-- PWR_INPUT [31:16]. -/
def PWR_INPUT.MV : Fld := ⟨0x0411C, 0, 31, 16, 0x0⟩
/-- PWR_INPUT [15:0]. -/
def PWR_INPUT.MA : Fld := ⟨0x0411C, 0, 15, 0, 0x0⟩
/-- PWR_INPUT [31:0]. -/
def PWR_INPUT.WORD : Fld := ⟨0x0411C, 0, 31, 0, 0x0⟩
/-- PWR_BRAKE [31:16]. -/
def PWR_BRAKE.COUNT : Fld := ⟨0x04120, 0, 31, 16, 0x19⟩
/-- PWR_BRAKE [15]. -/
def PWR_BRAKE.BRAKE_IN : Fld := ⟨0x04120, 0, 15, 15, 0x19⟩
/-- PWR_BRAKE [14]. -/
def PWR_BRAKE.WARN_IN : Fld := ⟨0x04120, 0, 14, 14, 0x19⟩
/-- PWR_BRAKE [6:0]. -/
def PWR_BRAKE.PRESET_PCT : Fld := ⟨0x04120, 0, 6, 0, 0x19⟩
/-- PWR_BRAKE [31:0]. -/
def PWR_BRAKE.WORD : Fld := ⟨0x04120, 0, 31, 0, 0x19⟩
/-- PWR_HB [31:16]. -/
def PWR_HB.SINCE : Fld := ⟨0x04124, 0, 31, 16, 0x0⟩
/-- PWR_HB [0]. -/
def PWR_HB.KICK : Fld := ⟨0x04124, 0, 0, 0, 0x0⟩
/-- PWR_HB [31:0]. -/
def PWR_HB.WORD : Fld := ⟨0x04124, 0, 31, 0, 0x0⟩
/-- PWR_PACE [31]. -/
def PWR_PACE.ENABLE : Fld := ⟨0x04128, 0, 31, 31, 0x7D05DC⟩
/-- PWR_PACE [30]. -/
def PWR_PACE.BROKEN : Fld := ⟨0x04128, 0, 30, 30, 0x7D05DC⟩
/-- PWR_PACE [29:26]. -/
def PWR_PACE.HELD_OP : Fld := ⟨0x04128, 0, 29, 26, 0x7D05DC⟩
/-- PWR_PACE [25:24]. -/
def PWR_PACE.HELD_KP : Fld := ⟨0x04128, 0, 25, 24, 0x7D05DC⟩
/-- PWR_PACE [23:12]. -/
def PWR_PACE.TAIL_MHZ : Fld := ⟨0x04128, 0, 23, 12, 0x7D05DC⟩
/-- PWR_PACE [11:0]. -/
def PWR_PACE.RATE_MHZ : Fld := ⟨0x04128, 0, 11, 0, 0x7D05DC⟩
/-- PWR_PACE [31:0]. -/
def PWR_PACE.WORD : Fld := ⟨0x04128, 0, 31, 0, 0x7D05DC⟩
/-- PWR_STATE_CTL [31:29]. -/
def PWR_STATE_CTL.FLOOR : Fld := ⟨0x0412C, 0, 31, 29, 0x200A3C14⟩
/-- PWR_STATE_CTL [25]. -/
def PWR_STATE_CTL.WAKE : Fld := ⟨0x0412C, 0, 25, 25, 0x200A3C14⟩
/-- PWR_STATE_CTL [24]. -/
def PWR_STATE_CTL.SMOOR : Fld := ⟨0x0412C, 0, 24, 24, 0x200A3C14⟩
/-- PWR_STATE_CTL [23:16]. -/
def PWR_STATE_CTL.EMBER_MS : Fld := ⟨0x0412C, 0, 23, 16, 0x200A3C14⟩
/-- PWR_STATE_CTL [15:8]. -/
def PWR_STATE_CTL.BANKED_S : Fld := ⟨0x0412C, 0, 15, 8, 0x200A3C14⟩
/-- PWR_STATE_CTL [7:0]. -/
def PWR_STATE_CTL.GLOW_US : Fld := ⟨0x0412C, 0, 7, 0, 0x200A3C14⟩
/-- PWR_STATE_CTL [31:0]. -/
def PWR_STATE_CTL.WORD : Fld := ⟨0x0412C, 0, 31, 0, 0x200A3C14⟩
/-- PWR_STATE_STS [31:29]. -/
def PWR_STATE_STS.STATE : Fld := ⟨0x04130, 0, 31, 29, 0x20000000⟩
/-- PWR_STATE_STS [28:26]. -/
def PWR_STATE_STS.LAST_WAKE : Fld := ⟨0x04130, 0, 28, 26, 0x20000000⟩
/-- PWR_STATE_STS [15:0]. -/
def PWR_STATE_STS.WAKES : Fld := ⟨0x04130, 0, 15, 0, 0x20000000⟩
/-- PWR_STATE_STS [31:0]. -/
def PWR_STATE_STS.WORD : Fld := ⟨0x04130, 0, 31, 0, 0x20000000⟩
/-- PWR_EVT [7]. -/
def PWR_EVT.RAIL_UV : Fld := ⟨0x04134, 0, 7, 7, 0x0⟩
/-- PWR_EVT [6]. -/
def PWR_EVT.INPUT_UV : Fld := ⟨0x04134, 0, 6, 6, 0x0⟩
/-- PWR_EVT [5]. -/
def PWR_EVT.PACE_BROKEN : Fld := ⟨0x04134, 0, 5, 5, 0x0⟩
/-- PWR_EVT [4]. -/
def PWR_EVT.STATE : Fld := ⟨0x04134, 0, 4, 4, 0x0⟩
/-- PWR_EVT [3]. -/
def PWR_EVT.CAP_LAG : Fld := ⟨0x04134, 0, 3, 3, 0x0⟩
/-- PWR_EVT [2]. -/
def PWR_EVT.HB_LOST : Fld := ⟨0x04134, 0, 2, 2, 0x0⟩
/-- PWR_EVT [1]. -/
def PWR_EVT.WARN : Fld := ⟨0x04134, 0, 1, 1, 0x0⟩
/-- PWR_EVT [0]. -/
def PWR_EVT.BRAKE : Fld := ⟨0x04134, 0, 0, 0, 0x0⟩
/-- PWR_EVT [31:0]. -/
def PWR_EVT.WORD : Fld := ⟨0x04134, 0, 31, 0, 0x0⟩
/-- PWR_ENERGY_LO [31:0]. -/
def PWR_ENERGY_LO.MJ : Fld := ⟨0x04138, 0, 31, 0, 0x0⟩
/-- PWR_ENERGY_LO [31:0]. -/
def PWR_ENERGY_LO.WORD : Fld := ⟨0x04138, 0, 31, 0, 0x0⟩
/-- PWR_ENERGY_HI [31:0]. -/
def PWR_ENERGY_HI.MJ : Fld := ⟨0x0413C, 0, 31, 0, 0x0⟩
/-- PWR_ENERGY_HI [31:0]. -/
def PWR_ENERGY_HI.WORD : Fld := ⟨0x0413C, 0, 31, 0, 0x0⟩
/-- PWR_PHASEn [31]. -/
def PWR_PHASEn.ENABLE : Fld := ⟨0x04180, 4, 31, 31, 0xA⟩
/-- PWR_PHASEn [3:0]. -/
def PWR_PHASEn.OP : Fld := ⟨0x04180, 4, 3, 0, 0xA⟩
/-- PWR_PHASEn [31:0]. -/
def PWR_PHASEn.WORD : Fld := ⟨0x04180, 4, 31, 0, 0xA⟩
/-- THM_STS [31:30]. -/
def THM_STS.LEVEL : Fld := ⟨0x05100, 0, 31, 30, 0x0⟩
/-- THM_STS [28:22]. -/
def THM_STS.HOT_SENSOR : Fld := ⟨0x05100, 0, 28, 22, 0x0⟩
/-- THM_STS [11:0]. -/
def THM_STS.HOT_TJ : Fld := ⟨0x05100, 0, 11, 0, 0x0⟩
/-- THM_STS [31:0]. -/
def THM_STS.WORD : Fld := ⟨0x05100, 0, 31, 0, 0x0⟩
/-- THM_COUNTS [31:16]. -/
def THM_COUNTS.HARD : Fld := ⟨0x05104, 0, 31, 16, 0x0⟩
/-- THM_COUNTS [15:0]. -/
def THM_COUNTS.THROTTLE : Fld := ⟨0x05104, 0, 15, 0, 0x0⟩
/-- THM_COUNTS [31:0]. -/
def THM_COUNTS.WORD : Fld := ⟨0x05104, 0, 31, 0, 0x0⟩
/-- THM_FAULTS [31:16]. -/
def THM_FAULTS.SENSOR : Fld := ⟨0x05108, 0, 31, 16, 0x0⟩
/-- THM_FAULTS [15:0]. -/
def THM_FAULTS.TRIPS : Fld := ⟨0x05108, 0, 15, 0, 0x0⟩
/-- THM_FAULTS [31:0]. -/
def THM_FAULTS.WORD : Fld := ⟨0x05108, 0, 31, 0, 0x0⟩
/-- THM_LIMITS [31:24]. -/
def THM_LIMITS.THROTTLE : Fld := ⟨0x0510C, 0, 31, 24, 0x5F697355⟩
/-- THM_LIMITS [23:16]. -/
def THM_LIMITS.HARD : Fld := ⟨0x0510C, 0, 23, 16, 0x5F697355⟩
/-- THM_LIMITS [15:8]. -/
def THM_LIMITS.TRIP : Fld := ⟨0x0510C, 0, 15, 8, 0x5F697355⟩
/-- THM_LIMITS [7:0]. -/
def THM_LIMITS.CLEAR : Fld := ⟨0x0510C, 0, 7, 0, 0x5F697355⟩
/-- THM_LIMITS [31:0]. -/
def THM_LIMITS.WORD : Fld := ⟨0x0510C, 0, 31, 0, 0x5F697355⟩
/-- THM_SENSORn [31]. -/
def THM_SENSORn.VALID : Fld := ⟨0x05200, 4, 31, 31, 0x0⟩
/-- THM_SENSORn [11:0]. -/
def THM_SENSORn.TJ : Fld := ⟨0x05200, 4, 11, 0, 0x0⟩
/-- THM_SENSORn [31:0]. -/
def THM_SENSORn.WORD : Fld := ⟨0x05200, 4, 31, 0, 0x0⟩
/-- MGT_STS [31:30]. -/
def MGT_STS.MODE : Fld := ⟨0x02100, 0, 31, 30, 0x0⟩
/-- MGT_STS [29]. -/
def MGT_STS.PENDING_ACT : Fld := ⟨0x02100, 0, 29, 29, 0x0⟩
/-- MGT_STS [23:16]. -/
def MGT_STS.RECOVERY_TRIES : Fld := ⟨0x02100, 0, 23, 16, 0x0⟩
/-- MGT_STS [31:0]. -/
def MGT_STS.WORD : Fld := ⟨0x02100, 0, 31, 0, 0x0⟩
/-- MGT_FW_VER [31:0]. -/
def MGT_FW_VER.VERSION : Fld := ⟨0x02104, 0, 31, 0, 0x0⟩
/-- MGT_FW_VER [31:0]. -/
def MGT_FW_VER.WORD : Fld := ⟨0x02104, 0, 31, 0, 0x0⟩
/-- MGT_FW_PEND [31:0]. -/
def MGT_FW_PEND.VERSION : Fld := ⟨0x02108, 0, 31, 0, 0x0⟩
/-- MGT_FW_PEND [31:0]. -/
def MGT_FW_PEND.WORD : Fld := ⟨0x02108, 0, 31, 0, 0x0⟩
/-- MGT_MAINT [31]. -/
def MGT_MAINT.HANDOVER : Fld := ⟨0x0210C, 0, 31, 31, 0x0⟩
/-- MGT_MAINT [30]. -/
def MGT_MAINT.RETIRE : Fld := ⟨0x0210C, 0, 30, 30, 0x0⟩
/-- MGT_MAINT [11:0]. -/
def MGT_MAINT.CORE : Fld := ⟨0x0210C, 0, 11, 0, 0x0⟩
/-- MGT_MAINT [31:0]. -/
def MGT_MAINT.WORD : Fld := ⟨0x0210C, 0, 31, 0, 0x0⟩
/-- MGT_LOG_NEXT_LO [31:0]. -/
def MGT_LOG_NEXT_LO.SEQ : Fld := ⟨0x02110, 0, 31, 0, 0x0⟩
/-- MGT_LOG_NEXT_LO [31:0]. -/
def MGT_LOG_NEXT_LO.WORD : Fld := ⟨0x02110, 0, 31, 0, 0x0⟩
/-- MGT_LOG_NEXT_HI [31:0]. -/
def MGT_LOG_NEXT_HI.SEQ : Fld := ⟨0x02114, 0, 31, 0, 0x0⟩
/-- MGT_LOG_NEXT_HI [31:0]. -/
def MGT_LOG_NEXT_HI.WORD : Fld := ⟨0x02114, 0, 31, 0, 0x0⟩
/-- MGT_LOG_SEL_LO [31:0]. -/
def MGT_LOG_SEL_LO.SEQ : Fld := ⟨0x02118, 0, 31, 0, 0x0⟩
/-- MGT_LOG_SEL_LO [31:0]. -/
def MGT_LOG_SEL_LO.WORD : Fld := ⟨0x02118, 0, 31, 0, 0x0⟩
/-- MGT_LOG_SEL_HI [31:0]. -/
def MGT_LOG_SEL_HI.SEQ : Fld := ⟨0x0211C, 0, 31, 0, 0x0⟩
/-- MGT_LOG_SEL_HI [31:0]. -/
def MGT_LOG_SEL_HI.WORD : Fld := ⟨0x0211C, 0, 31, 0, 0x0⟩
/-- MGT_LOG_STS [31]. -/
def MGT_LOG_STS.VALID : Fld := ⟨0x02120, 0, 31, 31, 0x0⟩
/-- MGT_LOG_STS [15:0]. -/
def MGT_LOG_STS.LOST : Fld := ⟨0x02120, 0, 15, 0, 0x0⟩
/-- MGT_LOG_STS [31:0]. -/
def MGT_LOG_STS.WORD : Fld := ⟨0x02120, 0, 31, 0, 0x0⟩
/-- MGT_LOG_DATAn [31:0]. -/
def MGT_LOG_DATAn.WORD : Fld := ⟨0x02140, 4, 31, 0, 0x0⟩
/-- MGT_REC_CTL [31]. -/
def MGT_REC_CTL.SUBMIT : Fld := ⟨0x02180, 0, 31, 31, 0x0⟩
/-- MGT_REC_CTL [30]. -/
def MGT_REC_CTL.BUSY : Fld := ⟨0x02180, 0, 30, 30, 0x0⟩
/-- MGT_REC_CTL [15:0]. -/
def MGT_REC_CTL.RESULT : Fld := ⟨0x02180, 0, 15, 0, 0x0⟩
/-- MGT_REC_CTL [31:0]. -/
def MGT_REC_CTL.WORD : Fld := ⟨0x02180, 0, 31, 0, 0x0⟩
/-- MGT_RECOVERY [31]. -/
def MGT_RECOVERY.GO : Fld := ⟨0x02184, 0, 31, 31, 0x0⟩
/-- MGT_RECOVERY [23:0]. -/
def MGT_RECOVERY.LENGTH : Fld := ⟨0x02184, 0, 23, 0, 0x0⟩
/-- MGT_RECOVERY [31:0]. -/
def MGT_RECOVERY.WORD : Fld := ⟨0x02184, 0, 31, 0, 0x0⟩
/-- MGT_MCTP [31:24]. -/
def MGT_MCTP.EID_I3C : Fld := ⟨0x02188, 0, 31, 24, 0x0⟩
/-- MGT_MCTP [23:16]. -/
def MGT_MCTP.EID_PCIE : Fld := ⟨0x02188, 0, 23, 16, 0x0⟩
/-- MGT_MCTP [6:0]. -/
def MGT_MCTP.I3C_DA : Fld := ⟨0x02188, 0, 6, 0, 0x0⟩
/-- MGT_MCTP [31:0]. -/
def MGT_MCTP.WORD : Fld := ⟨0x02188, 0, 31, 0, 0x0⟩
/-- SEC_STS [31]. -/
def SEC_STS.OWNER_SET : Fld := ⟨0x03100, 0, 31, 31, 0x0⟩
/-- SEC_STS [7:0]. -/
def SEC_STS.MKEY_VALID : Fld := ⟨0x03100, 0, 7, 0, 0x0⟩
/-- SEC_STS [31:0]. -/
def SEC_STS.WORD : Fld := ⟨0x03100, 0, 31, 0, 0x0⟩
/-- SEC_SERIAL_LO [31:0]. -/
def SEC_SERIAL_LO.SERIAL : Fld := ⟨0x03104, 0, 31, 0, 0x0⟩
/-- SEC_SERIAL_LO [31:0]. -/
def SEC_SERIAL_LO.WORD : Fld := ⟨0x03104, 0, 31, 0, 0x0⟩
/-- SEC_SERIAL_HI [31:0]. -/
def SEC_SERIAL_HI.SERIAL : Fld := ⟨0x03108, 0, 31, 0, 0x0⟩
/-- SEC_SERIAL_HI [31:0]. -/
def SEC_SERIAL_HI.WORD : Fld := ⟨0x03108, 0, 31, 0, 0x0⟩
/-- SEC_SVN [31]. -/
def SEC_SVN.COMMIT : Fld := ⟨0x0310C, 0, 31, 31, 0x0⟩
/-- SEC_SVN [13:8]. -/
def SEC_SVN.RUNNING : Fld := ⟨0x0310C, 0, 13, 8, 0x0⟩
/-- SEC_SVN [5:0]. -/
def SEC_SVN.MIN : Fld := ⟨0x0310C, 0, 5, 0, 0x0⟩
/-- SEC_SVN [31:0]. -/
def SEC_SVN.WORD : Fld := ⟨0x0310C, 0, 31, 0, 0x0⟩
/-- SEC_NONCE_CTL [0]. -/
def SEC_NONCE_CTL.GEN : Fld := ⟨0x03110, 0, 0, 0, 0x0⟩
/-- SEC_NONCE_CTL [31:0]. -/
def SEC_NONCE_CTL.WORD : Fld := ⟨0x03110, 0, 31, 0, 0x0⟩
/-- SEC_NONCEn [31:0]. -/
def SEC_NONCEn.NONCE : Fld := ⟨0x03114, 4, 31, 0, 0x0⟩
/-- SEC_NONCEn [31:0]. -/
def SEC_NONCEn.WORD : Fld := ⟨0x03114, 4, 31, 0, 0x0⟩
/-- SEC_DEBUG [31]. -/
def SEC_DEBUG.GRANTED : Fld := ⟨0x03124, 0, 31, 31, 0x0⟩
/-- SEC_DEBUG [30]. -/
def SEC_DEBUG.REVOKE : Fld := ⟨0x03124, 0, 30, 30, 0x0⟩
/-- SEC_DEBUG [2:0]. -/
def SEC_DEBUG.SCOPE : Fld := ⟨0x03124, 0, 2, 0, 0x0⟩
/-- SEC_DEBUG [31:0]. -/
def SEC_DEBUG.WORD : Fld := ⟨0x03124, 0, 31, 0, 0x0⟩
/-- SEC_DEBUG_END_LO [31:0]. -/
def SEC_DEBUG_END_LO.NOT_AFTER : Fld := ⟨0x03128, 0, 31, 0, 0x0⟩
/-- SEC_DEBUG_END_LO [31:0]. -/
def SEC_DEBUG_END_LO.WORD : Fld := ⟨0x03128, 0, 31, 0, 0x0⟩
/-- SEC_DEBUG_END_HI [31:0]. -/
def SEC_DEBUG_END_HI.NOT_AFTER : Fld := ⟨0x0312C, 0, 31, 0, 0x0⟩
/-- SEC_DEBUG_END_HI [31:0]. -/
def SEC_DEBUG_END_HI.WORD : Fld := ⟨0x0312C, 0, 31, 0, 0x0⟩
/-- SEC_MKEYn_SEQ [31:0]. -/
def SEC_MKEYn_SEQ.SEQUENCE : Fld := ⟨0x03200, 4, 31, 0, 0x0⟩
/-- SEC_MKEYn_SEQ [31:0]. -/
def SEC_MKEYn_SEQ.WORD : Fld := ⟨0x03200, 4, 31, 0, 0x0⟩
/-- SEC_OWNER_Dm [31:0]. -/
def SEC_OWNER_Dm.DIGEST : Fld := ⟨0x03300, 4, 31, 0, 0x0⟩
/-- SEC_OWNER_Dm [31:0]. -/
def SEC_OWNER_Dm.WORD : Fld := ⟨0x03300, 4, 31, 0, 0x0⟩
/-- SEC_MKEYn_Dm [31:0]. -/
def SEC_MKEYn_Dm.DIGEST : Fld := ⟨0x03400, 4, 31, 0, 0x0⟩
/-- SEC_MKEYn_Dm [31:0]. -/
def SEC_MKEYn_Dm.WORD : Fld := ⟨0x03400, 4, 31, 0, 0x0⟩
/-- HAL_BOOT_STS [31:29]. -/
def HAL_BOOT_STS.STAGE : Fld := ⟨0x01100, 0, 31, 29, 0x0⟩
/-- HAL_BOOT_STS [28]. -/
def HAL_BOOT_STS.FAIL : Fld := ⟨0x01100, 0, 28, 28, 0x0⟩
/-- HAL_BOOT_STS [27:24]. -/
def HAL_BOOT_STS.CAUSE : Fld := ⟨0x01100, 0, 27, 24, 0x0⟩
/-- HAL_BOOT_STS [15:0]. -/
def HAL_BOOT_STS.FAIL_CODE : Fld := ⟨0x01100, 0, 15, 0, 0x0⟩
/-- HAL_BOOT_STS [31:0]. -/
def HAL_BOOT_STS.WORD : Fld := ⟨0x01100, 0, 31, 0, 0x0⟩
/-- HAL_RESET [31]. -/
def HAL_RESET.PACKAGE : Fld := ⟨0x01104, 0, 31, 31, 0x0⟩
/-- HAL_RESET [3:0]. -/
def HAL_RESET.WING : Fld := ⟨0x01104, 0, 3, 0, 0x0⟩
/-- HAL_RESET [31:0]. -/
def HAL_RESET.WORD : Fld := ⟨0x01104, 0, 31, 0, 0x0⟩
/-- HAL_FORM [31]. -/
def HAL_FORM.GO : Fld := ⟨0x01108, 0, 31, 31, 0x0⟩
/-- HAL_FORM [30]. -/
def HAL_FORM.FORMING : Fld := ⟨0x01108, 0, 30, 30, 0x0⟩
/-- HAL_FORM [15:0]. -/
def HAL_FORM.CODE : Fld := ⟨0x01108, 0, 15, 0, 0x0⟩
/-- HAL_FORM [31:0]. -/
def HAL_FORM.WORD : Fld := ⟨0x01108, 0, 31, 0, 0x0⟩
/-- HAL_FORM_MASK_RACK0_LO [31:0]. -/
def HAL_FORM_MASK_RACK0_LO.SLOTS : Fld := ⟨0x0110C, 0, 31, 0, 0x0⟩
/-- HAL_FORM_MASK_RACK0_LO [31:0]. -/
def HAL_FORM_MASK_RACK0_LO.WORD : Fld := ⟨0x0110C, 0, 31, 0, 0x0⟩
/-- HAL_FORM_MASK_RACK1_LO [31:0]. -/
def HAL_FORM_MASK_RACK1_LO.SLOTS : Fld := ⟨0x01114, 0, 31, 0, 0x0⟩
/-- HAL_FORM_MASK_RACK1_LO [31:0]. -/
def HAL_FORM_MASK_RACK1_LO.WORD : Fld := ⟨0x01114, 0, 31, 0, 0x0⟩
/-- HAL_FORM_MASK_RACK0_HI [3:0]. -/
def HAL_FORM_MASK_RACK0_HI.SLOTS : Fld := ⟨0x01110, 0, 3, 0, 0x0⟩
/-- HAL_FORM_MASK_RACK0_HI [31:0]. -/
def HAL_FORM_MASK_RACK0_HI.WORD : Fld := ⟨0x01110, 0, 31, 0, 0x0⟩
/-- HAL_FORM_MASK_RACK1_HI [3:0]. -/
def HAL_FORM_MASK_RACK1_HI.SLOTS : Fld := ⟨0x01118, 0, 3, 0, 0x0⟩
/-- HAL_FORM_MASK_RACK1_HI [31:0]. -/
def HAL_FORM_MASK_RACK1_HI.WORD : Fld := ⟨0x01118, 0, 31, 0, 0x0⟩
/-- SWP_CTL [31]. -/
def SWP_CTL.ENABLE : Fld := ⟨0x06100, 0, 31, 31, 0x80140418⟩
/-- SWP_CTL [23:16]. -/
def SWP_CTL.GUARD_US : Fld := ⟨0x06100, 0, 23, 16, 0x80140418⟩
/-- SWP_CTL [15:8]. -/
def SWP_CTL.CORES_PER_WING : Fld := ⟨0x06100, 0, 15, 8, 0x80140418⟩
/-- SWP_CTL [7:0]. -/
def SWP_CTL.CORE_INTERVAL_H : Fld := ⟨0x06100, 0, 7, 0, 0x80140418⟩
/-- SWP_CTL [31:0]. -/
def SWP_CTL.WORD : Fld := ⟨0x06100, 0, 31, 0, 0x80140418⟩
/-- SWP_STS [31]. -/
def SWP_STS.SUSPENDED : Fld := ⟨0x06104, 0, 31, 31, 0x0⟩
/-- SWP_STS [30]. -/
def SWP_STS.LATE : Fld := ⟨0x06104, 0, 30, 30, 0x0⟩
/-- SWP_STS [15:0]. -/
def SWP_STS.PASSES : Fld := ⟨0x06104, 0, 15, 0, 0x0⟩
/-- SWP_STS [31:0]. -/
def SWP_STS.WORD : Fld := ⟨0x06104, 0, 31, 0, 0x0⟩
/-- SWP_FAILS [31:16]. -/
def SWP_FAILS.CORE : Fld := ⟨0x06108, 0, 31, 16, 0x0⟩
/-- SWP_FAILS [15:0]. -/
def SWP_FAILS.LANE : Fld := ⟨0x06108, 0, 15, 0, 0x0⟩
/-- SWP_FAILS [31:0]. -/
def SWP_FAILS.WORD : Fld := ⟨0x06108, 0, 31, 0, 0x0⟩
/-- SWP_LAST_CORE [31]. -/
def SWP_LAST_CORE.VALID : Fld := ⟨0x0610C, 0, 31, 31, 0x0⟩
/-- SWP_LAST_CORE [11:0]. -/
def SWP_LAST_CORE.CORE : Fld := ⟨0x0610C, 0, 11, 0, 0x0⟩
/-- SWP_LAST_CORE [31:0]. -/
def SWP_LAST_CORE.WORD : Fld := ⟨0x0610C, 0, 31, 0, 0x0⟩
/-- PG_CONFLICT [31]. -/
def PG_CONFLICT.VALID : Fld := ⟨0x00060, 0, 31, 31, 0x0⟩
/-- PG_CONFLICT [27:16]. -/
def PG_CONFLICT.OFFSET : Fld := ⟨0x00060, 0, 27, 16, 0x0⟩
/-- PG_CONFLICT [15:0]. -/
def PG_CONFLICT.CODE : Fld := ⟨0x00060, 0, 15, 0, 0x0⟩
/-- PG_CONFLICT [31:0]. -/
def PG_CONFLICT.WORD : Fld := ⟨0x00060, 0, 31, 0, 0x0⟩
/-- PG_PTB_CTL [31]. -/
def PG_PTB_CTL.ENABLE : Fld := ⟨0x00040, 0, 31, 31, 0x0⟩
/-- PG_PTB_CTL [30:29]. -/
def PG_PTB_CTL.TRIGGER : Fld := ⟨0x00040, 0, 30, 29, 0x0⟩
/-- PG_PTB_CTL [28]. -/
def PG_PTB_CTL.ANY_ADDR : Fld := ⟨0x00040, 0, 28, 28, 0x0⟩
/-- PG_PTB_CTL [23:16]. -/
def PG_PTB_CTL.STEPS : Fld := ⟨0x00040, 0, 23, 16, 0x0⟩
/-- PG_PTB_CTL [15:0]. -/
def PG_PTB_CTL.TARGET : Fld := ⟨0x00040, 0, 15, 0, 0x0⟩
/-- PG_PTB_CTL [31:0]. -/
def PG_PTB_CTL.WORD : Fld := ⟨0x00040, 0, 31, 0, 0x0⟩
/-- PG_PTB_DELAY [31:24]. -/
def PG_PTB_DELAY.PROB : Fld := ⟨0x00044, 0, 31, 24, 0x0⟩
/-- PG_PTB_DELAY [15:0]. -/
def PG_PTB_DELAY.CYCLES : Fld := ⟨0x00044, 0, 15, 0, 0x0⟩
/-- PG_PTB_DELAY [31:0]. -/
def PG_PTB_DELAY.WORD : Fld := ⟨0x00044, 0, 31, 0, 0x0⟩
/-- PG_PTB_BP [31:24]. -/
def PG_PTB_BP.PROB : Fld := ⟨0x00048, 0, 31, 24, 0x0⟩
/-- PG_PTB_BP [23:20]. -/
def PG_PTB_BP.VC_MASK : Fld := ⟨0x00048, 0, 23, 20, 0x0⟩
/-- PG_PTB_BP [15:0]. -/
def PG_PTB_BP.HOLD : Fld := ⟨0x00048, 0, 15, 0, 0x0⟩
/-- PG_PTB_BP [31:0]. -/
def PG_PTB_BP.WORD : Fld := ⟨0x00048, 0, 31, 0, 0x0⟩
/-- PG_PTB_INJ [31:28]. -/
def PG_PTB_INJ.KIND : Fld := ⟨0x0004C, 0, 31, 28, 0x0⟩
/-- PG_PTB_INJ [23:16]. -/
def PG_PTB_INJ.COUNT : Fld := ⟨0x0004C, 0, 23, 16, 0x0⟩
/-- PG_PTB_INJ [15:8]. -/
def PG_PTB_INJ.SYMBOLS : Fld := ⟨0x0004C, 0, 15, 8, 0x0⟩
/-- PG_PTB_INJ [5:0]. -/
def PG_PTB_INJ.BIT : Fld := ⟨0x0004C, 0, 5, 0, 0x0⟩
/-- PG_PTB_INJ [31:0]. -/
def PG_PTB_INJ.WORD : Fld := ⟨0x0004C, 0, 31, 0, 0x0⟩
/-- PG_PTB_ADDR_LO [31:0]. -/
def PG_PTB_ADDR_LO.ADDRESS : Fld := ⟨0x00050, 0, 31, 0, 0x0⟩
/-- PG_PTB_ADDR_LO [31:0]. -/
def PG_PTB_ADDR_LO.WORD : Fld := ⟨0x00050, 0, 31, 0, 0x0⟩
/-- PG_PTB_ADDR_HI [31:0]. -/
def PG_PTB_ADDR_HI.ADDRESS : Fld := ⟨0x00054, 0, 31, 0, 0x0⟩
/-- PG_PTB_ADDR_HI [31:0]. -/
def PG_PTB_ADDR_HI.WORD : Fld := ⟨0x00054, 0, 31, 0, 0x0⟩
/-- PG_PTB_SEED [31:0]. -/
def PG_PTB_SEED.SEED : Fld := ⟨0x00058, 0, 31, 0, 0x1⟩
/-- PG_PTB_SEED [31:0]. -/
def PG_PTB_SEED.WORD : Fld := ⟨0x00058, 0, 31, 0, 0x1⟩
/-- PG_PTB_STS [31]. -/
def PG_PTB_STS.ACTIVE : Fld := ⟨0x0005C, 0, 31, 31, 0x0⟩
/-- PG_PTB_STS [23:16]. -/
def PG_PTB_STS.LEFT : Fld := ⟨0x0005C, 0, 23, 16, 0x0⟩
/-- PG_PTB_STS [15:0]. -/
def PG_PTB_STS.INJECTED : Fld := ⟨0x0005C, 0, 15, 0, 0x0⟩
/-- PG_PTB_STS [31:0]. -/
def PG_PTB_STS.WORD : Fld := ⟨0x0005C, 0, 31, 0, 0x0⟩
/-- PG_ID [31:24]. -/
def PG_ID.TYPE : Fld := ⟨0x00000, 0, 31, 24, 0x1⟩
/-- PG_ID [19:8]. -/
def PG_ID.INSTANCE : Fld := ⟨0x00000, 0, 19, 8, 0x1⟩
/-- PG_ID [7:0]. -/
def PG_ID.HEADER_VERSION : Fld := ⟨0x00000, 0, 7, 0, 0x1⟩
/-- PG_ID [31:0]. -/
def PG_ID.WORD : Fld := ⟨0x00000, 0, 31, 0, 0x1⟩
/-- PG_REV [31:24]. -/
def PG_REV.SILICON : Fld := ⟨0x00004, 0, 31, 24, 0xB0010000⟩
/-- PG_REV [23:16]. -/
def PG_REV.BLOCK_REV : Fld := ⟨0x00004, 0, 23, 16, 0xB0010000⟩
/-- PG_REV [31:0]. -/
def PG_REV.WORD : Fld := ⟨0x00004, 0, 31, 0, 0xB0010000⟩
/-- PG_CAP [31]. -/
def PG_CAP.PTB : Fld := ⟨0x00008, 0, 31, 31, 0x0⟩
/-- PG_CAP [15:0]. -/
def PG_CAP.IRQ_BITS : Fld := ⟨0x00008, 0, 15, 0, 0x0⟩
/-- PG_CAP [31:0]. -/
def PG_CAP.WORD : Fld := ⟨0x00008, 0, 31, 0, 0x0⟩
/-- PG_CTL [1]. -/
def PG_CTL.ERR_CLR : Fld := ⟨0x0000C, 0, 1, 1, 0x1⟩
/-- PG_CTL [0]. -/
def PG_CTL.IRQ_ON : Fld := ⟨0x0000C, 0, 0, 0, 0x1⟩
/-- PG_CTL [31:0]. -/
def PG_CTL.WORD : Fld := ⟨0x0000C, 0, 31, 0, 0x1⟩
/-- PG_STS [31]. -/
def PG_STS.LOCKED : Fld := ⟨0x00010, 0, 31, 31, 0x80000000⟩
/-- PG_STS [30]. -/
def PG_STS.PTB_ACTIVE : Fld := ⟨0x00010, 0, 30, 30, 0x80000000⟩
/-- PG_STS [29]. -/
def PG_STS.IRQ_PENDING : Fld := ⟨0x00010, 0, 29, 29, 0x80000000⟩
/-- PG_STS [31:0]. -/
def PG_STS.WORD : Fld := ⟨0x00010, 0, 31, 0, 0x80000000⟩
/-- PG_IRQ_STS [15:0]. -/
def PG_IRQ_STS.SOURCES : Fld := ⟨0x00014, 0, 15, 0, 0x0⟩
/-- PG_IRQ_STS [31:0]. -/
def PG_IRQ_STS.WORD : Fld := ⟨0x00014, 0, 31, 0, 0x0⟩
/-- PG_IRQ_EN [15:0]. -/
def PG_IRQ_EN.SOURCES : Fld := ⟨0x00018, 0, 15, 0, 0x0⟩
/-- PG_IRQ_EN [31:0]. -/
def PG_IRQ_EN.WORD : Fld := ⟨0x00018, 0, 31, 0, 0x0⟩
/-- PG_IRQ_VEC [15:0]. -/
def PG_IRQ_VEC.VECTOR : Fld := ⟨0x0001C, 0, 15, 0, 0x3⟩
/-- PG_IRQ_VEC [31:0]. -/
def PG_IRQ_VEC.WORD : Fld := ⟨0x0001C, 0, 31, 0, 0x3⟩
/-- PG_ERR_CNT [31:24]. -/
def PG_ERR_CNT.INJECTED : Fld := ⟨0x00020, 0, 31, 24, 0x0⟩
/-- PG_ERR_CNT [23:0]. -/
def PG_ERR_CNT.COUNT : Fld := ⟨0x00020, 0, 23, 0, 0x0⟩
/-- PG_ERR_CNT [31:0]. -/
def PG_ERR_CNT.WORD : Fld := ⟨0x00020, 0, 31, 0, 0x0⟩
/-- PG_ERR_FIRST_LO [31:0]. -/
def PG_ERR_FIRST_LO.SEQ : Fld := ⟨0x00024, 0, 31, 0, 0x0⟩
/-- PG_ERR_FIRST_LO [31:0]. -/
def PG_ERR_FIRST_LO.WORD : Fld := ⟨0x00024, 0, 31, 0, 0x0⟩
/-- PG_ERR_FIRST_HI [31:0]. -/
def PG_ERR_FIRST_HI.SEQ : Fld := ⟨0x00028, 0, 31, 0, 0x0⟩
/-- PG_ERR_FIRST_HI [31:0]. -/
def PG_ERR_FIRST_HI.WORD : Fld := ⟨0x00028, 0, 31, 0, 0x0⟩
/-- DIR_COUNT [7:0]. -/
def DIR_COUNT.ENTRIES : Fld := ⟨0x00100, 0, 7, 0, 0x11⟩
/-- DIR_COUNT [31:0]. -/
def DIR_COUNT.WORD : Fld := ⟨0x00100, 0, 31, 0, 0x11⟩
/-- DIR_FUNC [31]. -/
def DIR_FUNC.VF : Fld := ⟨0x00104, 0, 31, 31, 0x0⟩
/-- DIR_FUNC [3:0]. -/
def DIR_FUNC.PARTITION : Fld := ⟨0x00104, 0, 3, 0, 0x0⟩
/-- DIR_FUNC [31:0]. -/
def DIR_FUNC.WORD : Fld := ⟨0x00104, 0, 31, 0, 0x0⟩
/-- WNG_STS [31]. -/
def WNG_STS.RESETTING : Fld := ⟨0x20100, 0, 31, 31, 0x0⟩
/-- WNG_STS [21:16]. -/
def WNG_STS.SWEEPING : Fld := ⟨0x20100, 0, 21, 16, 0x0⟩
/-- WNG_STS [5:0]. -/
def WNG_STS.REMAPPED_ROWS : Fld := ⟨0x20100, 0, 5, 0, 0x0⟩
/-- WNG_STS [31:0]. -/
def WNG_STS.WORD : Fld := ⟨0x20100, 0, 31, 0, 0x0⟩
/-- WNG_RTIME_LO [31:0]. -/
def WNG_RTIME_LO.TIME : Fld := ⟨0x20104, 0, 31, 0, 0x0⟩
/-- WNG_RTIME_LO [31:0]. -/
def WNG_RTIME_LO.WORD : Fld := ⟨0x20104, 0, 31, 0, 0x0⟩
/-- WNG_RTIME_HI [31:0]. -/
def WNG_RTIME_HI.TIME : Fld := ⟨0x20108, 0, 31, 0, 0x0⟩
/-- WNG_RTIME_HI [31:0]. -/
def WNG_RTIME_HI.WORD : Fld := ⟨0x20108, 0, 31, 0, 0x0⟩
/-- WNG_TILES [31:20]. -/
def WNG_TILES.WAITING : Fld := ⟨0x2010C, 0, 31, 20, 0x0⟩
/-- WNG_TILES [19:0]. -/
def WNG_TILES.AVAILABLE : Fld := ⟨0x2010C, 0, 19, 0, 0x0⟩
/-- WNG_TILES [31:0]. -/
def WNG_TILES.WORD : Fld := ⟨0x2010C, 0, 31, 0, 0x0⟩
/-- CORE_FAULT [31]. -/
def CORE_FAULT.VALID : Fld := ⟨0x1000104, 0, 31, 31, 0x0⟩
/-- CORE_FAULT [18:16]. -/
def CORE_FAULT.CTX : Fld := ⟨0x1000104, 0, 18, 16, 0x0⟩
/-- CORE_FAULT [15:0]. -/
def CORE_FAULT.CODE : Fld := ⟨0x1000104, 0, 15, 0, 0x0⟩
/-- CORE_FAULT [31:0]. -/
def CORE_FAULT.WORD : Fld := ⟨0x1000104, 0, 31, 0, 0x0⟩
/-- MGT_REC_WIN [31:0]. -/
def MGT_REC_WIN.WORD : Fld := ⟨0x02400, 4, 31, 0, 0x0⟩
/-- CORE_HEARTH_STS [31]. -/
def CORE_HEARTH_STS.HELD : Fld := ⟨0x1000118, 0, 31, 31, 0x0⟩
/-- CORE_HEARTH_STS [30:28]. -/
def CORE_HEARTH_STS.HOLDER : Fld := ⟨0x1000118, 0, 30, 28, 0x0⟩
/-- CORE_HEARTH_STS [27:26]. -/
def CORE_HEARTH_STS.MODE : Fld := ⟨0x1000118, 0, 27, 26, 0x0⟩
/-- CORE_HEARTH_STS [25:23]. -/
def CORE_HEARTH_STS.QUEUED : Fld := ⟨0x1000118, 0, 25, 23, 0x0⟩
/-- CORE_HEARTH_STS [20:11]. -/
def CORE_HEARTH_STS.WINDOW : Fld := ⟨0x1000118, 0, 20, 11, 0x0⟩
/-- CORE_HEARTH_STS [10:0]. -/
def CORE_HEARTH_STS.SAT_ENTRIES : Fld := ⟨0x1000118, 0, 10, 0, 0x0⟩
/-- CORE_HEARTH_STS [31:0]. -/
def CORE_HEARTH_STS.WORD : Fld := ⟨0x1000118, 0, 31, 0, 0x0⟩
/-- MDL_SLOTn_ID_LO [31:0]. -/
def MDL_SLOTn_ID_LO.WORD : Fld := ⟨0x0A400, 40, 31, 0, 0x0⟩
/-- MDL_SLOTn_ID_HI [31:0]. -/
def MDL_SLOTn_ID_HI.WORD : Fld := ⟨0x0A404, 40, 31, 0, 0x0⟩
/-- MDL_SLOTn_VER [31:0]. -/
def MDL_SLOTn_VER.WORD : Fld := ⟨0x0A408, 40, 31, 0, 0x0⟩
/-- MDL_SLOTn_STATE [31:0]. -/
def MDL_SLOTn_STATE.WORD : Fld := ⟨0x0A40C, 40, 31, 0, 0x18000000⟩
/-- MDL_SLOTn_SPACE [31:0]. -/
def MDL_SLOTn_SPACE.WORD : Fld := ⟨0x0A410, 40, 31, 0, 0x0⟩
/-- MDL_SLOTn_USE [31:0]. -/
def MDL_SLOTn_USE.WORD : Fld := ⟨0x0A414, 40, 31, 0, 0x0⟩
/-- MDL_SLOTn_LAST_LO [31:0]. -/
def MDL_SLOTn_LAST_LO.WORD : Fld := ⟨0x0A418, 40, 31, 0, 0x0⟩
/-- MDL_SLOTn_LAST_HI [31:0]. -/
def MDL_SLOTn_LAST_HI.WORD : Fld := ⟨0x0A41C, 40, 31, 0, 0x0⟩
/-- MDL_SLOTn_CODE [31:0]. -/
def MDL_SLOTn_CODE.WORD : Fld := ⟨0x0A420, 40, 31, 0, 0x0⟩
/-- MDL_SLOTn_STEPS [31:0]. -/
def MDL_SLOTn_STEPS.WORD : Fld := ⟨0x0A424, 40, 31, 0, 0x0⟩

end Sys2Proof.Machine
end

