-- ==== Sys2Proof/Machine/State.lean ====
section
/-!
DEFINITION. The state of the package: every register, memory, queue, counter, mode and pin the spec gives it, as plain data, and
`State.reset`, the package right after its cold power-on reset (t1 of R511).
-/
namespace Sys2Proof.Machine

/-- The states of a context (R67). -/
inductive CtxState where
  | halted | ready | running | waitRemote | waitRecv | waitSync | waitImem | faulted
  deriving DecidableEq, Repr

/-- What a waiting context waits for (R68). -/
inductive Wait where
  /-- No wait. -/
  | none
  /-- The response to its remote load, atomic or TAKE (WAIT_REMOTE). -/
  | remote
  /-- A message in receive queue `q`, whose header goes to register `rd` (WAIT_RECV). -/
  | recv (q rd : Nat)
  /-- The completion of phase `phase` of barrier `b` (BAR.W). -/
  | barrier (b phase : Nat)
  /-- As `barrier`, before an arrival that may not run ahead (R133). -/
  | arrive (b phase : Nat)
  /-- Its earlier stores, DMAs and sends (R126). -/
  | fence
  /-- One of the core's 16 store acknowledgement slots (R74). -/
  | storeBuf
  /-- Its stream command slot (R83, R349). -/
  | stream
  /-- The load of its wing's compression-table slot `n` (R344). -/
  | table (n : Nat)
  /-- The hearth, held by another context (R75). -/
  | hearth
  /-- The rewrite of instruction word `line` (R82). -/
  | imem (line : Nat)
  deriving DecidableEq, Repr

/-- A counted loop in progress (R111): its first and last instruction (by number) and the passes left, this one included. -/
structure Loop where
  first : Nat
  last : Nat
  left : Nat
  deriving DecidableEq, Repr

/-- The response sink of a context's remote load, atomic or TAKE (R74); the pc stays at the instruction until the response. -/
structure Sink where
  /-- The instruction that waits. -/
  w : Insn
  /-- Its target. -/
  addr : Nat
  /-- Bytes of the result: 4, 8 or 128. -/
  size : Nat
  /-- Rack time of the request (R401). -/
  since : Nat := 0
  deriving DecidableEq, Repr

/-- A hardware context (R67, R111). -/
structure Ctx where
  st : CtxState
  /-- Byte address in instruction memory. -/
  pc : BitVec 18
  /-- s1 to s31; s0 is never listed (R107). -/
  sregs : SMap (BitVec 64)
  vregs : SMap VReg
  /-- Innermost loop first, at most two. -/
  loops : List Loop
  wait : Wait
  sink : Option Sink
  /-- A STOP that waits for the response (R70). -/
  stopPending : Bool
  /-- Phase of its last arrival at each barrier, plus one (R133). -/
  arrivals : SMap Nat
  deriving DecidableEq, Repr

/-- A zero vector register. -/
def zeroV : VReg := List.replicate 32 0

/-- A context after a core reset (R526): HALTED, with no loop, sink or arrival. The spec gives its registers no reset value;
they read zero (DESIGN CHOICE, notes/assumptions/3.md). -/
def Ctx.reset : Ctx :=
  { st := .halted, pc := 0, sregs := [], vregs := [], loops := [], wait := .none, sink := none, stopPending := false,
    arrivals := [] }

/-- The modes of the accumulator file (R149). -/
inductive AccMode where
  | clear | exact | bf16
  deriving DecidableEq, Repr

/-- An accumulator entry (R152): the 96-bit integer, or FP32 in its low word, and the saturation flag. -/
structure AccEntry where
  val : BitVec 96
  sat : Bool
  deriving DecidableEq, Repr

/-- The zero entry. -/
def AccEntry.zero : AccEntry := { val := 0, sat := false }

/-- The accumulator file (R149), entry (i, j) at 32i + j, and the window base W. -/
structure AccFile where
  mode : AccMode
  w : Int
  ents : SMap AccEntry
  deriving DecidableEq, Repr

/-- The CLEAR file. -/
def AccFile.cleared : AccFile := { mode := .clear, w := 0, ents := [] }

/-- A queued or running hearth instruction (R159): its context, its word, the offsets its registers held at issue, and whether its context has
halted while it ran, so that its end clears the file and frees the hearth (R151). The first entry of the queue runs, the others have not started. -/
structure HearthEntry where
  ctx : Nat
  w : Insn
  pc : BitVec 18
  ra : Nat
  rb : Nat
  last : Bool := false
  /-- What the codes of its operands' words show when they are read (R80). -/
  errs : Errs := []
  deriving DecidableEq, Repr

/-- A stream command in its context's slot (R83): what it was issued with, and once its engine serves it what its completion word will say and
the fault its context will enter (R347, R351). -/
structure StreamCmd where
  ctx : Nat
  /-- The decoder's (DEC) or the encoder's (ENC). -/
  dec : Bool
  /-- RA, RB and RC at issue. -/
  ra : BitVec 64
  rb : BitVec 64
  rc : BitVec 64
  /-- What another package answers to a DEC's reads, and to a refetch. -/
  far : Bytes := []
  again : Bytes := []
  /-- What the codes of the words or lines of its source show when they are read (R80, R364). -/
  errs : Errs := []
  /-- Compression-table slot it holds a reference on (R343). -/
  table : Option Nat
  /-- Local-store offset of its completion word (R347). -/
  compl : Nat
  /-- Its engine serves it: the fields below hold. -/
  started : Bool := false
  /-- Its context has been halted since: its fault concerns nobody (R70). -/
  stopped : Bool := false
  status : Nat := 0
  bytes : Nat := 0
  /-- The fault its context enters at the end (R351). -/
  fault : Option Code := none
  /-- Model slot and shard entry to re-hash before the fault is decided (R352). -/
  rehash : Option (Nat × Nat) := none
  /-- SRF address of the failing block. -/
  addr : Nat := 0
  /-- The instruction word and its place. -/
  w : Insn
  pc : BitVec 18
  deriving DecidableEq, Repr

/-- A message of a receive queue (R114, R115). -/
structure RecvMsg where
  tag : BitVec 16
  srcCore : Nat
  src : PkgId
  length : Nat
  /-- Local-store offset of the payload ÷ 64. -/
  line : Nat
  /-- Ring lines it occupies, the skipped ones included. -/
  lines : Nat
  received : Bool
  deriving DecidableEq, Repr

/-- A receive queue (R86, R113, R114): its ring, the next free ring line, and its messages oldest first. -/
structure RecvQ where
  configured : Bool
  base : Nat
  size : Nat
  tail : Nat
  msgs : List RecvMsg
  deriving DecidableEq, Repr

/-- An unconfigured receive queue. -/
def RecvQ.reset : RecvQ := { configured := false, base := 0, size := 0, tail := 0, msgs := [] }

/-- A send descriptor (R86, R112). -/
structure SendDesc where
  id : Nat
  ctx : Nat
  queue : Nat
  dest : BitVec 64
  off : Nat
  len : Nat
  tag : BitVec 16
  /-- What the codes of its payload's words show when it is read (R80). -/
  errs : Errs := []
  deriving DecidableEq, Repr

/-- A local-store DMA in progress (R123 to R125). -/
structure Dma where
  id : Nat
  ctx : Nat
  queue : Nat
  pull : Bool
  remote : BitVec 64
  ls : Nat
  len : Nat
  compl : Nat
  /-- Bytes asked for or sent, and the transfers outstanding (R124): (sink, offset, bytes, rack time of asking). -/
  asked : Nat
  reqs : List (Nat × Nat × Nat × Nat)
  /-- Bytes acknowledged or received. -/
  done : Nat
  failed : Bool
  /-- The instruction word and its place. -/
  w : Insn
  pc : BitVec 18
  /-- What the codes of its local source's words show when they are read (R80). -/
  errs : Errs := []
  deriving DecidableEq, Repr

/-- An outstanding remote store (R74, R121): its acknowledgement slot, its context and its first 8-byte word. -/
structure StoreOut where
  sink : Nat
  ctx : Nat
  word : Nat
  /-- Bytes stored, and the instruction with its place. -/
  bytes : Nat
  w : Insn
  pc : BitVec 18
  /-- Rack time of the request (R401). -/
  since : Nat := 0
  deriving DecidableEq, Repr

/-- A packet held in the network before a core (R89), with its arrival time: a message for want of ring room, or a packet of the same virtual channel
behind one, with the receive queue it is for, 4 for a packet that is no message (DEDUCED, notes/assumptions/73.md). -/
structure HeldMsg where
  queue : Nat
  pkt : Packet
  since : Nat
  /-- What the codes of the words it reads will show (R80). -/
  errs : Errs := []
  deriving DecidableEq, Repr

/-- A shard waiting to be re-hashed for a context's failing block (R352): the context, the model slot, the shard entry, the block's address,
and the instruction. -/
structure Rehash where
  ctx : Nat
  slot : Nat
  shard : Nat
  addr : Nat
  w : Insn
  pc : BitVec 18
  /-- Its context had been stopped or had faulted before: the fault concerns nobody (R70). -/
  gone : Bool := false
  deriving DecidableEq, Repr

/-- A core: contexts, local store, instruction memory, hearth, stream and message units (R65 to R89). -/
structure Core where
  ctxs : SMap Ctx
  /-- The context that last held the issue slot (R72). -/
  lastHeld : Nat
  ls : Memory
  imem : Memory
  /-- Instruction words found uncorrectable in the present step (R82). -/
  imemBad : List Nat
  file : AccFile
  holder : Option Nat
  hearthQ : List HearthEntry
  streams : List StreamCmd
  sends : List SendDesc
  dmas : List Dma
  nextId : Nat
  stores : List StoreOut
  rqs : SMap RecvQ
  /-- Contexts in WAIT_RECV in the order in which they entered it (R115). -/
  recvOrder : List Nat
  held : List HeldMsg
  /-- Shards waiting to be re-hashed (R352). -/
  rehash : List Rehash
  /-- CORE_HS_CNT (R102). -/
  hsCnt : BitVec 64
  /-- Restarted after a sweep chunk: no RQ_UNSET is logged for a queue that its program has yet to configure (R539). -/
  swept : Bool
  /-- Rack time of the core's last sweep pass (R541) and intervals already logged late. -/
  sweptAt : Nat
  lateCount : Nat
  deriving DecidableEq, Repr

/-- A core after a core reset with empty memories (DESIGN CHOICE, notes/assumptions/57.md), context 7 the last to hold the issue slot (DESIGN CHOICE, notes/assumptions/110.md). -/
def Core.reset : Core :=
  { ctxs := [], lastHeld := 7, ls := [], imem := [], imemBad := [], file := AccFile.cleared, holder := none, hearthQ := [],
    streams := [], sends := [], dmas := [], nextId := 0, stores := [], rqs := [], recvOrder := [], held := [], rehash := [], hsCnt := 0, swept := false,
    sweptAt := 0, lateCount := 0 }

/-- A barrier (R131 to R133): its member count (0 when unset), its phase, and the arrivals of the open phase. -/
structure Barrier where
  count : Nat
  phase : Nat
  arrived : Nat
  deriving DecidableEq, Repr

/-- An unset barrier. -/
def Barrier.reset : Barrier := { count := 0, phase := 0, arrived := 0 }

/-- A compression-table slot (R343, R344). `pend` is a table waiting for the slot to become free. -/
structure TableSlot where
  valid : Bool
  gen : Nat
  lens : List Nat
  inflight : Nat
  pend : Option (Nat × List Nat)
  deriving DecidableEq, Repr

/-- An empty table slot. -/
def TableSlot.reset : TableSlot := { valid := false, gen := 0, lens := [], inflight := 0, pend := none }

/-- A command in a larder's queue (R373): its slot, the 128 bytes that the slot's write stored, and, while it is served, the line moves of it that
have had their token (R453). -/
structure LarWait where
  core : Nat
  second : Bool
  cmd : Bytes
  moved : Nat := 0
  deriving DecidableEq, Repr

/-- A larder command that has been served and awaits its completion message (R377). -/
structure LarCmd where
  core : Nat
  second : Bool
  queue : Nat
  reply : Nat
  tag : BitVec 16
  status : Nat
  used : Nat
  skipped : Nat
  /-- Writes of its output to another package: those that wait for a sink, by address, and those sent and not acknowledged, by the sink
  reserved (R74, R392) and the rack time of sending. -/
  writes : List (BitVec 64 × Bytes) := []
  reqs : List (Nat × Nat) := []
  deriving DecidableEq, Repr

/-- What a descriptor has come to (R204 to R206). -/
inductive DescSt where
  /-- On the list, not handed out. -/
  | listed
  /-- Taken by a context of a core. -/
  | taken (core ctx : Nat)
  /-- Completed or retired. -/
  | done
  deriving DecidableEq, Repr

/-- A tile descriptor on a wing's list (R202, R207). -/
structure Desc where
  kind : Nat
  layer : Nat
  half : Bool
  stage : Nat
  group : Nat
  index : Nat
  trip : Nat
  pending : Bool
  wing : Nat
  /-- The one core that may take it, for ATTEND_PAGE (R185). -/
  owner : Option Nat
  /-- Expert of an EXPERT descriptor; the other pair of a DISPATCH or COMBINE descriptor. -/
  expert : Nat
  /-- Bytes 0x10 to 0x7F. -/
  body : Bytes
  st : DescSt
  /-- Places in the step's token order of the tokens whose rows an exchange or EXPERT descriptor carries (R222, R223). -/
  toks : List Nat := []
  /-- The core that has taken it (R221). -/
  took : Option Nat := none
  deriving DecidableEq, Repr

/-- A wing: compression tables, larder, gateway transfers. -/
structure WingSt where
  tables : SMap TableSlot
  larder : List LarCmd
  /-- Commands stored in its ring and not yet served, oldest first (R373, R377). -/
  larQueue : List LarWait := []
  /-- Cross-rack transfers in flight at the gateway, by 256 × issuer + sink, and those that wait for a place, each with the number of outputs before
  it (R409). -/
  xrack : List Nat
  xwait : List (Nat × Packet)
  /-- The lanes that are spares 0 and 1 of the wing (R404, R443). -/
  spares : List Nat
  /-- Links that have delivered an uncorrectable word (R415). -/
  linkFails : List LinkKind
  /-- Its rack lanes retrain after a wing reset, and HAL_RESET.WING still reads 1 (R525, R527). -/
  retraining : Bool := false
  resetting : Bool
  deriving DecidableEq, Repr

/-- A wing after reset. -/
def WingSt.reset : WingSt := { tables := [], larder := [], xrack := [], xwait := [], spares := [16, 17], linkFails := [], resetting := false }

/-- A context waiting in TAKE at its wing steward (R205): core and context. -/
structure TakeWait where
  core : Nat
  ctx : Nat
  deriving DecidableEq, Repr

/-- A partition's porch (R277, R279, R291): its backed window, NEXT, the start of a TORN window, and the records accepted
since the last boundary. -/
structure Porch where
  mem : Memory
  next : Word
  tornFrom : Option Nat
  accepted : Nat
  deriving DecidableEq, Repr

/-- A porch at reset (DESIGN CHOICE, notes/assumptions/57.md). -/
def Porch.reset : Porch := { mem := [], next := 1, tornFrom := none, accepted := 0 }

/-- A partition's result ring and hall buffer (R283, R287 to R298). -/
structure Ring where
  prod : Word
  cons : Word
  consTaken : Bool
  /-- Batches due from the last boundary, not yet written. -/
  due : List Batch
  /-- The hall buffer, oldest batch first. -/
  held : List Batch
  /-- Written and not yet confirmed by a read (R298). -/
  unconfirmed : List Batch
  confirmed : DWord
  /-- Batches not yet signalled and the time of the first (R292). -/
  unsignalled : Nat
  firstUnsignalled : Nat
  /-- Being reset: entries are discarded until the boundary that applies the CANCELs of the reset ends, and how many records still accepted go before
  it does (R518). -/
  discarding : Bool
  resetLeft : Nat := 0
  written : Bool
  deriving DecidableEq, Repr

/-- A ring at reset. -/
def Ring.reset : Ring :=
  { prod := 0, cons := 0, consTaken := false, due := [], held := [], unconfirmed := [], confirmed := 0, unsignalled := 0,
    firstUnsignalled := 0, discarding := false, written := false }

/-- A fault raised in an attempt of the step (R535). -/
structure StepFault where
  code : Code
  attempt : Nat
  /-- GROUP and INDEX, or none outside descriptors. -/
  desc : Option (Nat × Nat)
  addr : Nat
  deriving DecidableEq, Repr

/-- A header held of a layer-half (R217, R219, R224). -/
structure HeldHeader where
  combine : Bool
  layer : Nat
  half : Bool
  src : Nat
  pos : Nat
  entries : List (Nat × Nat)
  deriving DecidableEq, Repr

/-- A seat waiting for every core to be HALTED (R142, R328): the slot, its image object, and for a PROGRAM_LOAD that this package must answer
or its partner's must answer its record and home; `load` says whether a PROGRAM_LOAD asked for it, `since` when the contexts were stopped. -/
structure Seating where
  slot : Nat
  image : Nat
  load : Bool
  cmd : Option (PkgId × CmdRec)
  since : Nat := 0
  /-- It is no seat: the slot, seated and DRAINING, is freed once its contexts have stopped (R327). -/
  evict : Bool := false
  deriving DecidableEq, Repr

/-- The step in progress and what the boundary exchange holds (R243 to R256). -/
structure StepSt where
  /-- A step is in progress. -/
  active : Bool
  /-- Step id of the step in progress or last completed. -/
  id : Nat
  attempt : Nat
  lastBoundary : Nat
  prevBoundary : Nat
  digest : DWord
  items : List Item
  tokens : Nat
  modelSlot : Nat
  leader : PkgId
  /-- LIST_CHECK of the list built (R254). -/
  check : Word
  /-- The list agrees with the leader's broadcast (R255). -/
  started : Bool
  partDone : Option Nat
  mirrorSent : Bool
  mirrorAcked : Bool
  partnerMirror : Option Mirror
  contributed : Bool
  contributions : List Contribution
  arith : ArithRec
  expert : ExpertRec
  mergedArith : ArithRec
  mergedExpert : ExpertRec
  faults : List StepFault
  mirrorFaults : Nat
  /-- The step id and attempt in which MIRROR_MISMATCH was last noted (R425). -/
  mirrorAt : Option (Nat × Nat) := none
  /-- Aborts of this step id with REMOTE_ERR or FAB_TIMEOUT against a package that is not lost (R434). -/
  remoteAborts : Nat := 0
  toError : List FaultRec
  /-- ROOM of each home's partitions at the boundary that opened the step (R251, R290). -/
  rooms : List (PkgId × List Nat)
  tokensOut : List TokenRec
  /-- Tile lists of the four wings, group rank from the plan. -/
  descs : List Desc
  takeWaits : List TakeWait
  headers : List HeldHeader
  sentHeaders : List (Bool × Nat × Bool × Nat)
  walked : Bool
  /-- The lists of the present attempt have been built (R202, R207). -/
  built : Bool := false
  /-- Layer-halves whose routing records have been checked, and so whose DISPATCH descriptors exist (R210). -/
  routed : List (Nat × Bool)
  /-- Layer-halves whose expert counts are known, and so whose EXPERT and COMBINE descriptors exist (R222). -/
  expertKnown : List (Nat × Bool)
  /-- Contexts that have been given STEP_END in this step (R138): (core, context). -/
  ended : List (Nat × Nat)
  kvCrc : List Word
  /-- Seats that wait for HALTED, in order, and whether the seat of this step has failed once already. -/
  seating : List Seating
  seatFailed : Bool
  /-- A restart that waits for the re-hash of a shard (R352). -/
  restartDue : Bool := false
  /-- A broadcast list of a step or attempt that this package has not reached, with the pairs known to differ from it (R255). -/
  heldList : Option (ListHeader × List Nat) := none
  deriving DecidableEq, Repr

/-- No step. -/
def StepSt.reset : StepSt :=
  { active := false, id := 0, attempt := 0, lastBoundary := 0, prevBoundary := 0, digest := 0, items := [], tokens := 0, modelSlot := 0, leader := 0,
    check := 0, started := false, partDone := none, mirrorSent := false, mirrorAcked := false, partnerMirror := none,
    contributed := false, contributions := [], arith := {}, expert := {}, mergedArith := {}, mergedExpert := {}, faults := [],
    mirrorFaults := 0, toError := [], rooms := [], tokensOut := [], descs := [], takeWaits := [], headers := [], sentHeaders := [], walked := false,
    routed := [], expertKnown := [], ended := [], kvCrc := [], seating := [], seatFailed := false }

/-- Membership states (R436). -/
inductive Member where
  | outside | paired | alone | out | rejoining | halted
  deriving DecidableEq, Repr

/-- The pair, the household and formation (R418 to R437, R519 to R522). -/
structure PairSt where
  member : Member
  /-- Rack and slot straps as sampled (R569). -/
  rack : Bool
  slot : Nat
  /-- Members of the household (the mask in force) and packages declared lost. -/
  members : List PkgId
  lost : List PkgId
  /-- Pair number of each member, from the FORM reports. -/
  pairNums : List (PkgId × Nat)
  /-- Rack times of the last heartbeat and the last PAIR_ALIVE edge, plus one; 0 none. -/
  lastHb : Nat
  lastAlive : Nat
  /-- When the clocks of the two paths began (R427): at formation, after a retraining, or with a rejoin. -/
  hbFrom : Nat := 0
  aliveFrom : Nat := 0
  /-- The partner of this ALONE member is REJOINING: it copies from here (R437). -/
  copying : Bool := false
  linkDown : Bool
  aliveOut : Bool
  claimAt : Option Nat
  grants : List (Nat × Nat)
  /-- TAKEOVERs applied: (pair, step, attempt). -/
  takeovers : List (Nat × Nat × Nat)
  /-- The STEP_ABORT payload last sent, and when (R533). -/
  lastAbort : Bytes
  abortAt : Nat := 0
  epoch : Nat
  /-- Pair-link lane that takes the next codeword (R407). -/
  stripe : Nat
  /-- Formation reports held with the rack times of their arrival, the time of the own GO, and whether every check passed. -/
  forming : List (FormReport × Nat)
  goAt : Option Nat
  formReady : Bool
  /-- HH_ABI of the household (R489). -/
  hhAbi : Nat
  copyDone : Bool
  mirrored : Option Mirror
  /-- Porch records of the partner held since its last boundary (R424, R435). -/
  partnerRecords : List CmdRec
  /-- What boundaries since the last mirror owe the partner's partitions, should it be lost (R298, R431): batches and deferred entries. -/
  partnerDue : List Batch
  partnerDeferred : List Deferred
  lastMirrorFault : Option Nat
  rejoinedAt : Nat
  /-- Members that report idle, with their FLOOR and the rack time since which they have (R471), kept by the leader. -/
  idleFrom : List (PkgId × Nat × Nat)
  /-- Cores named as failed and not yet remapped (R92). -/
  failedCores : List Nat
  /-- The member mask of a package that was OUT at its reset or wake, with which it joins once it is READY (R515, R524). -/
  keptMask : List PkgId
  /-- The wake after which the pair link has still to retrain (R427). -/
  wokeAt : Option Nat := none
  deriving DecidableEq, Repr

/-- Alone in no household; the pair link is down (DESIGN CHOICE, notes/assumptions/110.md). -/
def PairSt.reset : PairSt :=
  { member := .outside, rack := false, slot := 0, members := [], lost := [], pairNums := [], lastHb := 0, lastAlive := 0,
    linkDown := true, aliveOut := false, claimAt := none, grants := [], takeovers := [], lastAbort := [], epoch := 0, stripe := 0,
    forming := [], goAt := none, formReady := false, hhAbi := 0, copyDone := false, mirrored := none, partnerRecords := [], partnerDue := [], partnerDeferred := [],
    lastMirrorFault := none, rejoinedAt := 0, idleFrom := [], failedCores := [], keptMask := [] }

/-- A lane's link layer (R411 to R414, R442, R443) (DEDUCED, notes/assumptions/65.md). -/
structure LaneSt where
  carrying : Bool
  training : Bool
  rxNext : Nat
  nak : Bool
  txNext : Nat
  acked : Nat
  /-- Unacknowledged data codewords, by SEQ, oldest first (at most 63). -/
  replay : List Nat
  resends : Nat
  ueTimes : List Nat
  /-- Flit credits held, by virtual channel. -/
  credits : List Nat
  /-- It carried when the package went to rest, and retrains at the wake (R469, R472). -/
  idle : Bool := false
  /-- Codewords that wait for room in the replay buffer (R413). -/
  backlog : Nat
  /-- Flit slots filled in the codeword that is being formed (R411). -/
  slots : Nat := 0
  /-- Flit credits to return to the far end, by virtual channel (R412). -/
  owed : List Nat := [0, 0, 0, 0]
  /-- When its training started (R442). -/
  trainFrom : Nat := 0
  /-- The lane that carries this lane's flows in its place, and the lane it reaches when the plan remaps it (R414, R442). -/
  spared : Option Nat
  asLane : Option Nat
  testedAt : Nat
  deriving DecidableEq, Repr

/-- A link between routers, or out of the mesh (R383 to R387). -/
inductive Link where
  /-- Along row `row`, from physical column `col` of 66 (33 to each wing) to the next one east or west; from 32 to 33 or back it is a lintel port. -/
  | x (row col : Nat) (east : Bool)
  /-- Along logical column `col`, from row `row` to the next one south or north; between rows 31 and 32 it is a lintel port. -/
  | y (col row : Nat) (south : Bool)
  /-- The hall link of wing `w`, from the hall and to it. -/
  | hallDown (w : Nat)
  | hallUp (w : Nat)
  /-- The gateway's output to the flows of lane `n` (R404). -/
  | gateway (n : Nat)
  /-- The hall's output to the pair link (R387, R407). -/
  | pair
  deriving DecidableEq, Repr

/-- A packet on its way through the package (R384, R391): the place in `out` of what it belongs to and its place among the packets of that (R390, R408), its
virtual channel and class, its flits, the links of its route, and how many flits have passed each. -/
structure Transit where
  n : Nat
  piece : Nat := 0
  vc : Nat
  arrived : Bool
  flits : Nat
  route : List Link
  sent : List Nat
  /-- The first 12 bytes of its header (R402). -/
  header : Bytes := []
  /-- Of a chimney packet: the package in whose receive area it has a place (R394). -/
  area : Option Nat := none
  deriving DecidableEq, Repr

/-- A packet that waits at its sender: its places, as in `Transit`, and the package it goes to. -/
structure Queued where
  n : Nat
  piece : Nat
  pkt : Packet
  dest : PkgId
  deriving DecidableEq, Repr

/-- The fabric of the package (R383 to R396). -/
structure FabricSt where
  /-- Packets on their way, oldest first. -/
  transits : List Transit := []
  /-- By output: for each virtual channel, the grants in a row that went to others while it had a flit waiting with a credit (R391). -/
  passed : List (Link × List Nat) := []
  /-- Outputs of `out` that the fabric has taken. -/
  seen : Nat := 0
  /-- Chimney packets that wait in this package's memory for credit, and the places that those on their way fill, by destination (R394). -/
  chimney : List Queued := []
  chimneyUsed : SMap Nat := []
  /-- Bulk packets of the hall that wait for the sink of their response and, to the other rack, for a place at the gateway (R392, R409); the sinks in use, and
  of each the package asked. -/
  bulk : List Queued := []
  sinks : List (Nat × PkgId) := []
  /-- Requests answered for want of a response, whose late response is discarded (R401): node, sink, and the package asked. -/
  late : List (Nat × Nat × PkgId) := []
  deriving DecidableEq, Repr

/-- An untrained lane. -/
def LaneSt.reset : LaneSt :=
  { carrying := false, training := false, rxNext := 0, nak := false, txNext := 0, acked := 0, replay := [], resends := 0,
    ueTimes := [], credits := [0, 0, 0, 0], backlog := 0, spared := none, asLane := none, testedAt := 0 }

/-- The power states (R469). -/
inductive Fire where
  | burning | glow | ember | banked | smoored
  deriving DecidableEq, Repr

/-- The sources of a brake action (R459, R460, R457, R465, R467). -/
inductive BrakeSrc where
  | brakeN | warnN | bridge | inputUv | hard
  deriving DecidableEq, Repr

/-- The power controller and the fire states (R447 to R475). Draws are in watts, times in rack-time ns. -/
structure PowerSt where
  fire : Fire
  powered : Bool
  pAllow : Nat
  draw : Nat
  coreDraw : Nat
  /-- Issue tokens asked and granted since the last millisecond decision, and those each wing still holds (R453). -/
  asked : Nat
  granted : Nat
  budget : SMap Nat
  /-- Averages over the last millisecond: input draw and rail draw, summed with their number. -/
  sumDraw : Nat
  sumCore : Nat
  samples : Nat
  brakes : List BrakeSrc
  brakeN : Bool
  warnN : Bool
  inputUv : Bool
  issueCut : Bool
  /-- Rails that have read below 0.50 V: nothing issues on them (R464). -/
  railCut : List Rail := []
  /-- The core rails now, in 0.1 mV (R448). -/
  rail : Nat := 0
  /-- CORE_HS_CNT of each core when the present 10 ns began, while pace-locked (R461). -/
  paced : SMap (BitVec 64) := []
  /-- When the draw first exceeded the cap, and the draws of the last 10 ms, one each 10 µs, the latest first (R455). -/
  overFrom : Option Nat := none
  draws : List Nat := []
  /-- Last cause of each phase class, plus one (R450). -/
  phases : SMap Nat
  lastKick : Nat
  hbLost : Bool
  tripped : Bool
  coolFrom : Option Nat
  /-- Sensors: last valid readings in 0.125 °C (R466, R477), and those whose last reading was invalid. -/
  temps : SMap (Option Int)
  badSensors : List Nat
  /-- Entry into the present power state, and the start of the present idle time. -/
  since : Nat
  idleSince : Nat
  restEntry : Option Nat
  restBanked : Option Nat
  /-- Energy not yet a whole millijoule, in µJ (R476), and corrections of the energy estimate so far (R453). -/
  energyRest : Nat
  corrections : Nat
  deriving DecidableEq, Repr

/-- Power at reset: Glow (R476), with the package powered; the allowance starts at the cap (DESIGN CHOICE, notes/assumptions/110.md). -/
def PowerSt.reset : PowerSt :=
  { fire := .glow, powered := true, pAllow := 2800, draw := 0, coreDraw := 0, asked := 0, granted := 0, budget := [], sumDraw := 0,
    sumCore := 0, samples := 0, brakes := [], brakeN := false, warnN := false, inputUv := false, issueCut := false,
    phases := [], lastKick := 0, hbLost := false, tripped := false, coolFrom := none, temps := [], badSensors := [],
    since := 0, idleSince := 0, restEntry := none, restBanked := none, energyRest := 0, corrections := 0 }

/-- An error record (R529). -/
structure ErrRec where
  seq : Nat
  time : Nat
  step : Nat
  code : Code
  severity : Nat
  /-- Partition named, or none; and whether every partition is named (R531). -/
  part : Option Nat
  all : Bool
  injected : Bool
  node : Nat
  attempt : Nat
  ctx : Option Nat
  address : Nat
  handle : Word
  index : Nat
  group : Nat
  layer : Nat
  origin : PkgId
  detail : Bytes
  deriving DecidableEq, Repr

/-- The modes of Wainil (R508). -/
inductive FwMode where
  | running | recovery | update | applying
  deriving DecidableEq, Repr

/-- A PLDM event awaiting delivery or polling (R486). -/
structure PldmEvent where
  sensor : Nat
  value : Int
  sentAt : Nat
  /-- Times it has been sent; none without a receiver. -/
  tries : Nat
  deriving DecidableEq, Repr

/-- Wainil: management, firmware and trust (R479 to R510). -/
structure MgmtSt where
  /-- Bring-up has stopped in the stage that STAGE shows, before the time from which that stage's pages are served (R512, R514). -/
  stalled : Bool := false
  log : List ErrRec
  nextSeq : Nat
  /-- Once-only scopes already logged: (code, scope) (R530). -/
  loggedOnce : List (Nat × Nat)
  /-- The record that MGT_LOG_DATAn show (R482). -/
  selected : Bytes
  tid : Nat
  receiver : Option (Binding × Byte)
  events : List PldmEvent
  /-- Last value reported of each sensor's threshold level or state. -/
  sensorLevels : SMap Nat
  /-- Readings of the last refresh: sensor, operational state (0 enabled, 1 unavailable, 2 failed), value. -/
  readings : List (Nat × Nat × Int)
  mode : FwMode
  image : Bytes
  pendingAct : Bool
  updBuf : Bytes
  updBinding : Option Binding
  updSize : Nat
  updTransfer : Nat
  updLast : Nat
  updVerified : Bool
  /-- The binding whose CancelUpdate waits for the apply to end (R494). -/
  cancelWaits : Option Binding
  /-- Rack time of the boot, moved with each load so that what has run since stays (R495). -/
  bootAt : Int
  recoveryFrom : Option Nat
  /-- Words of the update buffer that the host has written through BAR2 in recovery, by word (R490). -/
  window : SMap Word := []
  /-- SPDM connection state of each binding: version, capabilities, algorithms negotiated (R498). -/
  spdm : SMap Nat
  /-- The submitted record being checked, with its result (R501). -/
  record : Option Code
  grant : Option (Nat × Nat)
  /-- NONCE of the grant (R499). -/
  grantNonce : Bytes
  nonce : Option Bytes
  /-- Draws of the random number generator so far. -/
  draws : Nat
  deriving DecidableEq, Repr

/-- What the tests of a bring-up, of a wake from Smoored or of a wing reset find (R92, R93, R512): a stopping fault with its stage, failed cores, failed spares
as 32 × wing + row. -/
structure Found where
  fault : Option (Nat × Code) := none
  cores : List Nat := []
  spares : List (Fin 128) := []
  deriving DecidableEq, Repr

/-- The fuses and the flash, kept by every reset (R480, R523). -/
structure Kept where
  /-- LZE-SPG4-A when true, LZE-SPG4-M when false (R2). -/
  orderingA : Bool
  serial : DWord
  svnMin : Nat
  ownerDigest : Option Bytes
  /-- Model keys and their sequence numbers (R503). -/
  mkeys : SMap (Option Bytes)
  mkeySeq : SMap Nat
  /-- Keys accepted that take effect at the next boundary (R503). -/
  mkeysDue : List (Nat × Option Bytes)
  flashImage : Bytes
  flashLog : List ErrRec
  /-- Records logged and not yet appended to flash (R483). -/
  flashPending : List ErrRec
  /-- Wear ledgers, key 64 × wing + 2 × row + (column − 31): stress in units of 2^-32 ms
  (R95), and the copy last saved (R96). -/
  wear : SMap Nat
  wearSaved : SMap Nat
  /-- Ledgers that have warned (R97), by the key of the ledger. -/
  warned : List Nat
  /-- Remap of each wing row, key 32 × wing + row: (FAULT_COL, in service) (R92). -/
  remaps : SMap (Option (Nat × Bool))
  /-- DQ lanes remapped, key 16 × stack + channel, and rows spared, key 4,096 × stack + bank (R367, R368). -/
  spareLanes : SMap Nat
  spareRows : SMap Nat
  /-- The package stays out of any household until it is replaced (R93, R367, R415). -/
  condemned : Bool
  /-- What the tests of bring-up found at the last power-up, or what has broken for good since, and what they find again at every reset: the stage that stops
  and its code (R359, R512) (DEDUCED, notes/assumptions/39.md). -/
  faulty : Option (Nat × Code) := none
  /-- What is found anew when stages are run again, next first (the model's own: no command says it; DESIGN CHOICE, notes/assumptions/152.md). -/
  tests : List Found := []
  deriving DecidableEq, Repr

/-- Kindling roles (R94 to R99). -/
structure KindSt where
  assignedAt : Nat
  reassignDue : Bool
  /-- Rack time until which the switch of a core that changed rail settles (R98), by 32 × wing + row. -/
  settling : SMap Nat := []
  deriving DecidableEq, Repr

/-- The cellar's fault bookkeeping (R364 to R370). -/
structure CelSt where
  badLines : List Nat
  /-- Corrected errors seen: (line, time) of the last day. -/
  corrected : List (Nat × Nat)
  /-- Rows marked for repair: (stack, bank, row). -/
  markedRows : List (Nat × Nat × Nat)
  /-- Corrected errors located on a DQ lane in the last second: (64 × (16 × stack + channel) + lane, line, time); and the lanes implicated and not
  yet remapped (R367). -/
  laneHits : List (Nat × Nat × Nat) := []
  implicated : List Nat := []
  /-- The present scrub pass: its start, the lines read so far, and the line from which each stack's controller goes on (R369, R370). -/
  scrubFrom : Nat
  scrubbed : Nat
  scrubNext : SMap Nat := []
  deriving DecidableEq, Repr

/-- The PCIe endpoint (R272, R516, R557). -/
structure PcieSt where
  /-- Link carries traffic; its rate in GT/s and width. -/
  up : Bool
  /-- Bus Master Enable of PF0: the endpoint may write and read host memory (R194). -/
  bme : Bool := false
  gtps : Nat
  width : Nat
  perst : Bool
  /-- MSI-X tables by 4,096 × function + byte offset ÷ 4 (function 0 is PF0), and pending vectors: (function, vector). -/
  msix : SMap Word
  pba : List (Nat × Nat)
  /-- The records whose copies to host memory PCIe reports failed at the boundary in hand: (partition, stamp) (R282). -/
  failed : List (Part × Word) := []
  /-- The link is in L1 (R469, R474, R475). -/
  l1 : Bool := false
  deriving DecidableEq, Repr

/-- The pins the package drives and reads besides the power inputs (R565). -/
structure PinSt where
  syncOk : Bool
  missedSync : Nat
  refclkOk : Bool
  mated : Bool
  deriving DecidableEq, Repr

/-- What leaves the package, oldest first: the model's record of its outputs (DEDUCED, notes/assumptions/109.md). -/
inductive Out where
  /-- A register or aperture read returns this word (R10, R12). -/
  | readData (q : Requester) (v : Word)
  /-- An MSI-X message of a function (0 PF0, n + 1 VF n + 1) on a vector (R275, R550). -/
  | msix (fn vector : Nat)
  /-- A packet enters the fabric, or a pair-link packet leaves (R402). -/
  | packet (dest : PkgId) (p : Packet)
  /-- The packet or chimney payload at place `n` of `out` has reached its sink, or its last flit has left on a lane (R391). -/
  | delivered (n : Nat)
  /-- A chimney payload to a member (R390). -/
  | chimney (dest : PkgId) (bytes : Bytes)
  /-- A boundary contribution to a member (R244). -/
  | contribution (dest : PkgId) (k : Contribution)
  /-- The mirror to the partner, and a mirror acknowledgement (R424). -/
  | mirror (m : Mirror)
  | mirrorAck (step : Nat)
  /-- A porch record mirrored at acceptance (R424). -/
  | mirrorRecord (r : CmdRec)
  /-- The confirmed step id of a partition to the partner (R298). -/
  | confirmed (part : Part) (step : DWord)
  /-- The work-list header broadcast (R247). -/
  | workList (dest : PkgId) (h : ListHeader)
  /-- A write to host memory over PCIe, and whether Relaxed Ordering is allowed (R282, R287). -/
  | hostWrite (addr : Nat) (bytes : Bytes) (relaxed : Bool := false)
  /-- A read of host memory requested over PCIe. -/
  | hostRead (addr len : Nat)
  /-- A shard or manifest sent to a member (R315, R316). -/
  | sendManifest (dest : PkgId) (slot : Nat)
  | sendShard (dest : PkgId) (slot k : Nat)
  /-- A shard is asked of a package: a peer, by model id, version and the shard's entry, by which it judges whether it holds the same (R317), or the
  partner, by slot (R318, R330). -/
  | askPeer (dest : PkgId) (modelId : DWord) (version : Word) (k : Nat) (entry : Bytes)
  | askShard (dest : PkgId) (slot k : Nat)
  /-- Page images moved to and from the loft (R193, R197): the peer package, none for a host loft, and the SRF or host address of the unit (R200). -/
  | loftWrite (dest : Option PkgId) (addr : Nat) (page : Bytes)
  | loftRead (dest : Option PkgId) (addr : Nat)
  /-- A pin changes level (R565). -/
  | pin (name : String) (level : Bool)
  /-- An acknowledgement of STEP_ABORT (R533). -/
  | abortAck (dest : PkgId)
  /-- A heartbeat, a claim, a grant or denial, a HANDOVER, a REST, an IDLE (R427 to R429, R471). -/
  | heartbeat
  | claim (dest : PkgId) (pair attempt : Nat)
  | claimAnswer (dest : PkgId) (granted : Bool)
  | handover
  /-- A member is told that a repeated fault of its own hands its work over (R218, R434). -/
  | handoverOf (dest : PkgId) (code : Code)
  | idle (dest : PkgId) (floor : Nat) (idle : Bool)
  /-- A member reports a pending command or a newly ready sequence to the leader (R246). -/
  | workReport (dest : PkgId)
  | restMsg (dest : PkgId) (entry : Nat) (banked : Option Nat)
  | form (dest : PkgId) (r : FormReport)
  | recoveryRequest
  | recoveryImage (bytes : Bytes)
  /-- The link header of a codeword sent on a lane, a data codeword or a control one (R412, R413). -/
  | linkHeader (lane : Nat) (data : Bool) (header : BitVec 20)
  | resend (lane seq : Nat)
  /-- The identity word that a lane sends while it trains (R441). -/
  | identity (lane : Nat) (w : Word)
  /-- A reply on a management binding: the command's name and its bytes (R484 to R499). -/
  | reply (b : Binding) (name : String) (bytes : Bytes)
  /-- The I3C target's in-band interrupt: a packet is pending (R484). -/
  | inBand
  | platformEvent (b : Binding) (e : PldmEvent)
  /-- Bits shifted out of TDO: the register selected (R573). -/
  | jtag (reg : String) (v : Word)
  /-- The rejoin copy is asked for; what an ALONE member sends of it, at first all and then what each boundary changes (R437). -/
  | rejoinStart
  | rejoinCopy (k : RejoinCopy)
  deriving DecidableEq, Repr

/-- The package. -/
structure State where
  /-- Commands waiting, first in, first out. -/
  pending : List Instr
  /-- What has left the package, newest last. -/
  out : List Out
  /-- Counter of free values drawn so far (the model's own). -/
  freeCtr : Nat
  /-- Rack time in ns (R439), and the ns for which a backward correction still holds the count (R440). -/
  rackTime : Nat
  heldBack : Nat
  rtimeSeen : Bool
  /-- Registers whose home is the register itself, by PF BAR0 offset. -/
  regs : SMap Word
  /-- High-word latches and held low words (R13, R559), by 2^27 × requester + offset of the low register. -/
  latch : SMap (Option Word)
  heldLow : SMap (Option Word)
  cores : SMap Core
  barriers : SMap Barrier
  wings : SMap WingSt
  cellar : Memory
  cel : CelSt
  table : SMap SeqEntry
  kv : KvSt
  /-- Clients by 4,096 × home + number, and changes staged for the next boundary (R261). -/
  clients : SMap Client
  cliChanges : List CliChange
  porches : SMap Porch
  accepted : List CmdRec
  rings : SMap Ring
  /-- The partitions that porch acceptance and result writes last served (R267). -/
  porchTurn : Nat := 15
  resultTurn : Nat := 15
  deferred : List Deferred
  /-- Prompt copies, loft moves and copies back completed since the last boundary. -/
  promptReady : List Nat
  moved : List Nat
  movedFailed : List Nat
  resumed : List Nat
  resumeFailed : List (Nat × Code)
  slots : SMap Slot
  seated : Option Nat
  /-- Step boundaries left to each page's perturbation, by page (R548); 0 where none is counted. -/
  ptbSteps : SMap Nat
  /-- Staged household configuration (R268), by PF BAR0 offset. -/
  staged : SMap (Option Word)
  step : StepSt
  pair : PairSt
  lanes : SMap LaneSt
  power : PowerSt
  mgmt : MgmtSt
  kept : Kept
  kind : KindSt
  /-- Cores swept in the present pass (R539). -/
  sweepRound : List Nat
  /-- Data memories of the stewards (R399, SPACE 2), by steward number. -/
  stewards : SMap Memory
  pcie : PcieSt
  pins : PinSt
  /-- Packets on their way through the package (R383 to R396). -/
  fab : FabricSt := {}
  deriving DecidableEq, Repr

/-- Why a step stops the machine. No meaning of this model raises it: the spec gives every access a result (R12, R401, R556). -/
inductive Fault where
  /-- Never raised. Safe: the machine would stop where the part goes on. -/
  | noSuchPlace
  deriving DecidableEq, Repr

/-- Why a command has no meaning here. -/
inductive Refusal where
  /-- Raised by an arm of `exec` that has no meaning yet, by name. Safe: the machine stops. -/
  | notModelled (mnemonic : String)
  deriving DecidableEq, Repr

/-- The outcome of a command. -/
abbrev Res := Host.Outcome State Fault Refusal

/-- Wainil after reset. -/
def MgmtSt.reset : MgmtSt :=
  { log := [], nextSeq := 1, loggedOnce := [], selected := [], tid := 0, receiver := none, events := [], sensorLevels := [], readings := [],
    mode := .running, image := [], pendingAct := false, updBuf := [], updBinding := none, updSize := 0, updTransfer := 0,
    updLast := 0, updVerified := false, cancelWaits := none, bootAt := 0, recoveryFrom := none, spdm := [], record := none, grant := none, grantNonce := [],
    nonce := none, draws := 0 }

/-- Fuses and flash of a new part of ordering LZE-SPG4-A (DESIGN CHOICE, notes/assumptions/4.md): no owner, no model key, no
remap, no image, every ledger at zero (R96). -/
def Kept.new : Kept :=
  { orderingA := true, serial := 0, svnMin := 0, ownerDigest := none, mkeys := [], mkeySeq := [], mkeysDue := [], flashImage := [],
    flashLog := [], flashPending := [], wear := [], wearSaved := [], warned := [], remaps := [], spareLanes := [], spareRows := [], condemned := false }

/-- The package at t1 of a cold power-up (R511): the boot ROM runs, every register holds its reset value, nothing waits. What the
spec states no reset value for is as notes/assumptions/3.md, 4.md and 110.md say (DESIGN CHOICE). -/
def State.reset : State :=
  { pending := [], out := [], freeCtr := 0, rackTime := 0, heldBack := 0, rtimeSeen := false, regs := [], latch := [], heldLow := [],
    cores := [], barriers := [], wings := [], cellar := [],
    cel := { badLines := [], corrected := [], markedRows := [], scrubFrom := 0, scrubbed := 0 },
    table := [], kv := KvSt.empty, clients := [], cliChanges := [], porches := [], accepted := [], rings := [], deferred := [],
    promptReady := [], moved := [], movedFailed := [], resumed := [], resumeFailed := [], slots := [], seated := none, ptbSteps := [],
    staged := [], step := StepSt.reset, pair := PairSt.reset, lanes := [], power := PowerSt.reset, mgmt := MgmtSt.reset,
    kept := Kept.new, kind := { assignedAt := 0, reassignDue := true }, sweepRound := [], stewards := [],
    pcie := { up := false, gtps := 0, width := 0, perst := true, msix := [], pba := [] },
    pins := { syncOk := false, missedSync := 0, refclkOk := false, mated := true } }

end Sys2Proof.Machine
end

