-- ==== Sys2Proof/Machine/Ops.lean ====
section
/-!
DEFINITION. The named operations over the package that every meaning is built from: registers by field, cores and contexts, interrupts
(R550), error records (R529 to R531, R552), outputs and free values.
-/
namespace Sys2Proof.Machine

/-! Registers by field. -/

/-- The word of a field, as stored. -/
def State.regWord (s : State) (f : Fld) (i j : Nat) : Nat := (SMap.get (BitVec.ofNat 32 f.word) s.regs (f.addr i j)).toNat

/-- The value of a field of instance `i`, index `j`. -/
def State.rd (s : State) (f : Fld) (i : Nat := 0) (j : Nat := 0) : Nat := bitsN (s.regWord f i j) f.hi f.lo

/-- Write a field, leaving the rest of its word. -/
def State.wr (s : State) (f : Fld) (v : Nat) (i : Nat := 0) (j : Nat := 0) : State :=
  { s with regs := SMap.set (BitVec.ofNat 32 f.word) s.regs (f.addr i j) (BitVec.ofNat 32 (setBitsN (s.regWord f i j) f.hi f.lo v)) }

/-- Whether a one-bit field is 1. -/
def State.on (s : State) (f : Fld) (i : Nat := 0) (j : Nat := 0) : Bool := decide (s.rd f i j = 1)

/-- Add to a counting field, which stops at its largest value. -/
def State.bump (s : State) (f : Fld) (n : Nat := 1) (i : Nat := 0) (j : Nat := 0) : State :=
  s.wr f (min (s.rd f i j + n) (2 ^ f.width - 1)) i j

/-- The field of the word above, the high word of a pair (R13). -/
def Fld.next (f : Fld) : Fld := { f with base := f.base + 4 }

/-- A 64-bit quantity, by its low word (R13). -/
def State.rd64 (s : State) (f : Fld) (i : Nat := 0) (j : Nat := 0) : Nat := s.rd f i j + 2 ^ 32 * s.rd f.next i j

/-- Write a 64-bit quantity, by its low word. -/
def State.wr64 (s : State) (f : Fld) (v : Nat) (i : Nat := 0) (j : Nat := 0) : State :=
  (s.wr f (v % 2 ^ 32) i j).wr f.next (v / 2 ^ 32 % 2 ^ 32) i j

/-- Add to a 64-bit count, which wraps. -/
def State.bump64 (s : State) (f : Fld) (n : Nat) (i : Nat := 0) : State := s.wr64 f (s.rd64 f i + n) i

/-! Cores, contexts and wings. -/

/-- Core `c`. -/
def State.core (s : State) (c : Nat) : Core := SMap.get Core.reset s.cores c

/-- Change core `c`. -/
def State.updCore (s : State) (c : Nat) (f : Core → Core) : State := { s with cores := SMap.upd Core.reset s.cores c f }

/-- Context `x` of a core. -/
def Core.ctx (k : Core) (x : Nat) : Ctx := SMap.get Ctx.reset k.ctxs x

/-- Change context `x` of a core. -/
def Core.updCtx (k : Core) (x : Nat) (f : Ctx → Ctx) : Core := { k with ctxs := SMap.upd Ctx.reset k.ctxs x f }

/-- Change context `x` of core `c`. -/
def State.updCtx (s : State) (c x : Nat) (f : Ctx → Ctx) : State := s.updCore c fun k => k.updCtx x f

/-- The RUNNING context of a core, if any (R67). -/
def Core.running (k : Core) : Option Nat := ((List.range 8).find? fun x => decide ((k.ctx x).st = .running))

/-- A scalar register; s0 reads zero (R107). -/
def Ctx.sreg (x : Ctx) (r : Nat) : BitVec 64 := if r = 0 then 0 else SMap.get 0 x.sregs r

/-- Write a scalar register; a write to s0 is discarded (R107). -/
def Ctx.setSreg (x : Ctx) (r : Nat) (v : BitVec 64) : Ctx := if r = 0 then x else { x with sregs := SMap.set 0 x.sregs r v }

/-- A vector register. -/
def Ctx.vreg (x : Ctx) (r : Nat) : VReg := SMap.get zeroV x.vregs r

/-- Write a vector register. -/
def Ctx.setVreg (x : Ctx) (r : Nat) (v : VReg) : Ctx := { x with vregs := SMap.set zeroV x.vregs r v }

/-- The wing of a core, by its quadrant (R18): core y × 64 + x. -/
def wingOf (c : Nat) : Nat := (if c % 64 < 32 then 0 else 1) + (if c / 64 % 64 < 32 then 0 else 2)

/-- The core at column `x` and row `y` of the visible grid (R18). -/
def coreAt (x y : Nat) : Nat := 64 * y + x

/-- Whether a core stands in a kindling column, logical local column 31 of its wing (R94). -/
def isKindling (c : Nat) : Bool := decide (c % 32 = 31)

/-- The cores of a wing in ascending order. -/
def wingCores (w : Nat) : List Nat :=
  (List.range 32).flatMap fun y => (List.range 32).map fun x => coreAt (x + 32 * (w % 2)) (y + 32 * (w / 2))

/-- Wing `w`. -/
def State.wing (s : State) (w : Nat) : WingSt := SMap.get WingSt.reset s.wings w

/-- Change wing `w`. -/
def State.updWing (s : State) (w : Nat) (f : WingSt → WingSt) : State := { s with wings := SMap.upd WingSt.reset s.wings w f }

/-! The sequence table, porches, rings, slots and lanes. -/

def State.seq (s : State) (e : Nat) : SeqEntry := SMap.get SeqEntry.blank s.table e
def State.updSeq (s : State) (e : Nat) (f : SeqEntry → SeqEntry) : State := { s with table := SMap.upd SeqEntry.blank s.table e f }
def State.kvOf (s : State) (e : Nat) : SeqKv := SMap.get SeqKv.none s.kv.seqs e
def State.updKv (s : State) (f : KvSt → KvSt) : State := { s with kv := f s.kv }
def State.updSeqKv (s : State) (e : Nat) (f : SeqKv → SeqKv) : State :=
  s.updKv fun k => { k with seqs := SMap.upd SeqKv.none k.seqs e f }
def State.porch (s : State) (p : Nat) : Porch := SMap.get Porch.reset s.porches p
def State.updPorch (s : State) (p : Nat) (f : Porch → Porch) : State := { s with porches := SMap.upd Porch.reset s.porches p f }
def State.ring (s : State) (p : Nat) : Ring := SMap.get Ring.reset s.rings p
def State.updRing (s : State) (p : Nat) (f : Ring → Ring) : State := { s with rings := SMap.upd Ring.reset s.rings p f }
def State.slot (s : State) (n : Nat) : Slot := SMap.get Slot.evicted s.slots n
def State.updSlotRaw (s : State) (n : Nat) (f : Slot → Slot) : State := { s with slots := SMap.upd Slot.evicted s.slots n f }
def State.lane (s : State) (l : Nat) : LaneSt := SMap.get LaneSt.reset s.lanes l
def State.updLane (s : State) (l : Nat) (f : LaneSt → LaneSt) : State := { s with lanes := SMap.upd LaneSt.reset s.lanes l f }
def State.barrier (s : State) (b : Nat) : Barrier := SMap.get Barrier.reset s.barriers b
def State.updBarrier (s : State) (b : Nat) (f : Barrier → Barrier) : State :=
  { s with barriers := SMap.upd Barrier.reset s.barriers b f }
def State.client (s : State) (k : Nat) : Client := SMap.get Client.reset s.clients k
def State.updClient (s : State) (k : Nat) (f : Client → Client) : State := { s with clients := SMap.upd Client.reset s.clients k f }
def State.updStep (s : State) (f : StepSt → StepSt) : State := { s with step := f s.step }
def State.updPair (s : State) (f : PairSt → PairSt) : State := { s with pair := f s.pair }
def State.updPower (s : State) (f : PowerSt → PowerSt) : State := { s with power := f s.power }
def State.updMgmt (s : State) (f : MgmtSt → MgmtSt) : State := { s with mgmt := f s.mgmt }
def State.updKept (s : State) (f : Kept → Kept) : State := { s with kept := f s.kept }

/-- This package, as HOME of R236 writes it: rack in bit [6], slot in bits [5:0]. -/
def State.me (s : State) : PkgId := BitVec.ofNat 7 ((if s.pair.rack then 64 else 0) + s.pair.slot % 64)

/-- Pair position: 0 for the lower slot of slots s and s ⊕ 2 (R418). -/
def State.position (s : State) : Nat := s.pair.slot / 2 % 2

/-- The partner of slot s is slot s ⊕ 2 of the same rack (R418). -/
def State.partner (s : State) : PkgId := s.me ^^^ 2

/-- Send something out of the package (DEDUCED, notes/assumptions/109.md). -/
def State.emit (s : State) (o : Out) : State := { s with out := s.out ++ [o] }

/-- The members of the household other than this package. -/
def State.others (s : State) : List PkgId := s.pair.members.filter fun p => decide (p ≠ s.me)

/-- Send to every other member. -/
def State.toOthers (s : State) (f : PkgId → Out) : State := { s with out := s.out ++ s.others.map f }

/-- The next free value, and the state that has drawn it (notes/assumptions/1.md). -/
def State.draw (s : State) : BitVec 64 × State := (Config.freeWord s.freeCtr, { s with freeCtr := s.freeCtr + 1 })

/-- Whether the package is below Glow (R469): hall steward 0 examines nothing (R473, R279), and no core issues. -/
def State.resting (s : State) : Bool :=
  match s.power.fire with
  | .ember => true
  | .banked => true
  | .smoored => true
  | _ => false

/-- Whether a core holds an active boost role (R94). -/
def State.isBoost (s : State) (c : Nat) : Bool :=
  isKindling c && (BitVec.ofNat 32 (s.rd WNG_KIND_ROLE.ACTIVE_ROWS (wingOf c))).getLsbD (c / 64 % 32)

/-- Pace tokens of a core in the 10 ns that began at the present rack time (R461): RATE_MHZ or, for an active boost role, TAIL_MHZ million per second. -/
def State.paceTokens (s : State) (c : Nat) : Nat :=
  let r := if s.isBoost c then s.rd PWR_PACE.TAIL_MHZ else s.rd PWR_PACE.RATE_MHZ
  (s.rackTime + 10) * r / 1000 - s.rackTime * r / 1000

/-- Whether a core has a pace token left: it issues at most one instruction for each, and all of it outside pace-locked mode (R461). -/
def State.paceOpen (s : State) (c : Nat) : Bool :=
  !s.on PWR_PACE.ENABLE || decide (((s.core c).hsCnt - SMap.get 0 s.power.paced c).toNat < s.paceTokens c)

/-- Whether core `c` does not issue: issue is cut in the package (R465, R467) or on its rail (R464), the cores stand at retention voltage or lower (R469), or the
core waits for a pace token (R461). -/
def State.issueHeld (s : State) (c : Nat) : Bool :=
  s.power.issueCut || s.resting || s.power.railCut.contains (if s.isBoost c then .boost else .core) || !s.paceOpen c

/-- The PCIe link is back in L0 for a TLP or an MSI-X message in Banked (R475). In Smoored it stays in L1 (R474). -/
def State.linkActive (s : State) : State := if s.power.fire = .smoored then s else { s with pcie := { s.pcie with l1 := false } }

/-! Interrupts (R275, R550, R551). -/

/-- IRQ_BITS of a block type (R551). -/
def Block.irqBits : Block → Nat
  | .hal | .wng | .seq | .por | .mgt | .swp => 7
  | .core | .lar | .mdl | .cmp | .thm => 3
  | .cel | .fab | .pair => 15
  | .pwr | .sec => 1
  | .dir => 0

/-- Whether a block type has perturbation points (R545). -/
def Block.hasPtb : Block → Bool
  | .core | .wng | .cel | .lar | .cmp | .fab | .pair | .por => true
  | _ => false

/-- The block and instance of a PF BAR0 page; none for an unassigned page and the MSI-X pages (R554). Page 16,384 + n is the directory of
VF n + 1 (R555). -/
def pageBlock (page : Nat) : Option (Block × Nat) :=
  if 16384 ≤ page ∧ page < 16400 then some (.dir, page - 16384)
  else Block.all.findSome? fun b =>
    if b.pages.1 ≤ page ∧ page < b.pages.1 + b.pages.2 then some (b, page - b.pages.1) else none

/-- The page of an instance of a block. -/
def Block.page (b : Block) (i : Nat) : Nat := b.pages.1 + i

/-- The MSI-X function of a page: VF n + 1 for the POR page of partition n, else PF0 (R550). -/
def pageFn (page : Nat) : Nat := if 16 ≤ page ∧ page < 32 then page - 15 else 0

/-- Entries of a function's MSI-X table (R275). -/
def msixSize (fn : Nat) : Nat := if fn = 0 then 128 else 120

/-- What a word of an MSI-X table resets to: the Mask bit set in each vector control word, zero elsewhere
(PRESUMED, PCIe; notes/assumptions/5.md). -/
def msixDefault (key : Nat) : Word := if key % 4 = 3 then 1 else 0

/-- Whether the endpoint may write and read host memory: the link carries traffic (R272) and Bus Master Enable of PF0 is set (R194). -/
def State.hostOpen (s : State) : Bool := s.pcie.up && s.pcie.bme

/-- A read of host memory is requested, where the endpoint can request it: a link that carries no traffic carries none (R194, R272). -/
def State.readBus (s : State) (addr len : Nat) : State := if s.hostOpen then s.emit (.hostRead addr len) else s

/-- Whether an access of a requester arrives: Wainil's always, a function's while the link carries traffic (R272). -/
def State.hears (s : State) (q : Requester) : Bool := decide (q = .wainil) || s.pcie.up

/-- Raise a vector: sent, or held pending in the function's PBA while masked (R550) or while the endpoint cannot write (R272; DESIGN CHOICE,
notes/assumptions/127.md). MSI-X counts as enabled in every function (PRESUMED, notes/assumptions/5.md). -/
def State.sendMsix (s : State) (fn v : Nat) : State :=
  let key := 4096 * fn + 4 * v + 3
  if !s.hostOpen ∨ (SMap.get (msixDefault key) s.pcie.msix key).toNat % 2 = 1 then
    if s.pcie.pba.contains (fn, v) then s else { s with pcie := { s.pcie with pba := s.pcie.pba ++ [(fn, v)] } }
  else s.linkActive.emit (.msix fn v)

/-- PG_IRQ_STS AND PG_IRQ_EN, zero while IRQ_ON = 0 (R550). -/
def State.irqActive (s : State) (page : Nat) : Bool :=
  s.on PG_CTL.IRQ_ON page && decide (s.rd PG_IRQ_STS.SOURCES page &&& s.rd PG_IRQ_EN.SOURCES page ≠ 0)

/-- Interrupt source `n` of a page occurs: its bit sets, and one message is sent when the enabled pending sources leave zero (R550). -/
def State.raiseIrq (s : State) (b : Block) (inst n : Nat) : State :=
  let page := b.page inst
  let was := s.irqActive page
  let s := s.wr PG_IRQ_STS.SOURCES (s.rd PG_IRQ_STS.SOURCES page ||| (2 ^ n &&& b.irqBits)) page
  if !was && s.irqActive page then s.sendMsix (pageFn page) (s.rd PG_IRQ_VEC.VECTOR page) else s

/-! Error records (R529 to R531, R552). -/

/-- The node numbers of R382. -/
def nodeSteward (w : Nat) : Nat := 0x1000 + 2 * w
def nodeHall : Nat := 0x1008
def nodeLarder (w : Nat) : Nat := 0x1010 + w
def nodeGateway (w : Nat) : Nat := 0x1014 + w
def nodeStack (st : Nat) : Nat := 0x1018 + st
def nodeHasher (w : Nat) : Nat := 0x1024 + w
def nodeEngines : Nat := 0x1028
def nodeWainil : Nat := 0x1029
/-- DEDUCED, notes/assumptions/108.md. -/
def nodeNone : Nat := 0x1FFF

/-- The page an occurrence counts in, by the node of its record, or by class for a hall node, Wainil or none (R552). -/
def errPage (node : Nat) (code : Code) (part : Option Nat) : Nat :=
  if node < 0x1000 then Block.core.page node
  else if node < 0x1008 then Block.wng.page ((node - 0x1000) / 2)
  else if 0x1010 ≤ node ∧ node < 0x1014 then Block.lar.page (node - 0x1010)
  else if 0x1014 ≤ node ∧ node < 0x1018 then Block.fab.page (node - 0x1014)
  else if 0x1018 ≤ node ∧ node < 0x1024 then Block.cel.page 0
  else if 0x1024 ≤ node ∧ node < 0x1028 then Block.wng.page (node - 0x1024)
  else if Err.cls code = 0x02 then Block.mdl.page 0
  else if Err.cls code = 0x04 then Block.seq.page 0
  else if Err.cls code = 0x07 ∨ Err.cls code = 0x08 then Block.pair.page 0
  else if code = Err.THM_HARD ∨ code = Err.THM_TRIP ∨ code = Err.THM_SENSOR then Block.thm.page 0
  else if Err.cls code = 0x09 then Block.pwr.page 0
  else if Err.cls code = 0x0A then Block.mgt.page 0
  else if Err.cls code = 0x0C then Block.swp.page 0
  else if Err.cls code = 0x0E then
    match part with
    | some p => Block.por.page p
    | none => Block.hal.page 0
  else Block.hal.page 0

/-- The codes written to flash (R483, R532). -/
def graveCode (c : Code) : Bool :=
  [Err.HANDOVER, Err.PAIR_LOST, Err.THM_TRIP, Err.RAIL_UNDERVOLT, Err.INPUT_CUT, Err.FW_APPLY, Err.FW_ACTIVATE, Err.FW_RECOVERY,
    Err.DEBUG_GRANT, Err.DEBUG_END].contains c

/-- The codes logged once in a scope (R530). -/
def onceCode (c : Code) : Bool :=
  [Err.RQ_UNSET, Err.POR_UNBACKED, Err.WEAR_WARN, Err.KINDLING_DEGRADED, Err.CEL_PPR_EXHAUSTED, Err.PAIR_ALIVE_FAULT, Err.PWR_WARN,
    Err.THM_SENSOR, Err.SWEEP_LATE].contains c

/-- Severities (R529). -/
abbrev sevInfo : Nat := 0
abbrev sevCorrected : Nat := 1
abbrev sevStep : Nat := 2
abbrev sevSequence : Nat := 3
abbrev sevPackage : Nat := 4
abbrev sevHousehold : Nat := 5

/-- An error record still without its number, time and step: what a rule states of the occurrence (DEDUCED, notes/assumptions/108.md). -/
def State.mkErr (s : State) (code : Code) (severity : Nat) (node : Nat := nodeNone) (addr : Nat := 0) (part : Option Nat := none)
    (handle : Word := 0) (ctx : Option Nat := none) (desc : Option (Nat × Nat) := none) (layer : Nat := 0xFF)
    (detail : Bytes := List.replicate 12 0) (injected : Bool := false) : ErrRec :=
  { seq := s.mgmt.nextSeq, time := s.rackTime, step := s.step.id, code := code, severity := severity, part := part,
    all := decide (severity ≥ sevPackage), injected := injected, node := node, attempt := s.step.attempt, ctx := ctx, address := addr,
    handle := handle, index := (desc.map (·.2)).getD 0xFFFFFFFF, group := (desc.map (·.1)).getD 0xFFFF, layer := layer, origin := s.me,
    detail := detail }

/-- Whether a record of severity INFO or CORRECTED repeats one of the same CODE and NODE written within the last 1 ms (R530). -/
def State.suppressed (s : State) (r : ErrRec) : Bool :=
  decide (r.severity ≤ sevCorrected) &&
    s.mgmt.log.any fun o => decide (o.code = r.code) && decide (o.node = r.node) && decide (o.time ≤ r.time) && decide (r.time ≤ o.time + 1000000)

/-- Write a record to the log: its number, the ring of 65,536, PG_ERR_FIRST, the flash list (R483), and the vectors it raises (R275,
R551). -/
def State.writeErr (s : State) (page : Nat) (r : ErrRec) : State :=
  let log := s.mgmt.log ++ [r]
  let s := if 65536 < log.length then (s.bump MGT_LOG_STS.LOST) else s
  let s := s.updMgmt fun m => { m with log := log.drop (log.length - 65536), nextSeq := m.nextSeq + 1 }
  let s := if graveCode r.code then s.updKept fun k => { k with flashPending := k.flashPending ++ [r] } else s
  let s := if s.rd64 PG_ERR_FIRST_LO.SEQ page = 0 then s.wr64 PG_ERR_FIRST_LO.SEQ r.seq page else s
  let s := if sevStep ≤ r.severity then s.raiseIrq .mgt 0 0 else s
  let s := s.sendMsix 0 2
  (List.range 16).foldl (fun s n => if r.all || r.part == some n then s.sendMsix (n + 1) 2 else s) s

/-- An occurrence of a code: counted in its page (R552) and written unless R530 suppresses it. `scope` is the scope of a code
logged once. Codes of classes 0x01 and 0x0D are neither (DEDUCED, notes/assumptions/108.md). -/
def State.logErr (s : State) (r : ErrRec) (scope : Nat := 0) : State :=
  if Err.cls r.code = 0x01 ∨ Err.cls r.code = 0x0D then s
  else
    let page := errPage r.node r.code r.part
    let s := s.bump PG_ERR_CNT.COUNT 1 page
    let s := if r.injected then s.bump PG_ERR_CNT.INJECTED 1 page else s
    if onceCode r.code && s.mgmt.loggedOnce.contains (r.code.toNat, scope) then s
    else if s.suppressed r then s
    else
      let s := if onceCode r.code then s.updMgmt fun m => { m with loggedOnce := m.loggedOnce ++ [(r.code.toNat, scope)] } else s
      s.writeErr page r

/-- End the once-only scope of a code (R530): its next occurrence is logged again. -/
def State.endScope (s : State) (code : Code) (scope : Nat) : State :=
  s.updMgmt fun m => { m with loggedOnce := m.loggedOnce.filter fun e => decide (e ≠ (code.toNat, scope)) }

/-- The 64 bytes of an error record (R529). -/
def ErrRec.bytes (r : ErrRec) : Bytes :=
  leBytes 8 r.seq ++ leBytes 8 r.time ++ leBytes 8 r.step ++ leBytes 2 r.code.toNat ++ leBytes 1 r.severity ++
    leBytes 1 ((if r.part.isSome then 128 else 0) + (if r.injected then 64 else 0) + (if r.all then 32 else 0) + r.part.getD 0) ++
    leBytes 2 r.node ++ leBytes 1 r.attempt ++ leBytes 1 (match r.ctx with | some x => 128 + x | none => 0) ++ leBytes 8 r.address ++
    leBytes 4 r.handle.toNat ++ leBytes 4 r.index ++ leBytes 2 r.group ++ leBytes 1 r.layer ++ leBytes 1 r.origin.toNat ++
    (r.detail ++ List.replicate 12 0).take 12

/-- REG_ACCESS (R12, R556): an access a register page does not take. -/
def State.logRegAccess (s : State) (off : Nat) : State := s.logErr (s.mkErr Err.REG_ACCESS sevInfo nodeHall off)

/-- A refused write sets PG_CONFLICT of its page (R544). -/
def State.conflict (s : State) (off : Nat) (code : Code) : State :=
  let page := off / 0x1000
  ((s.wr PG_CONFLICT.VALID 1 page).wr PG_CONFLICT.OFFSET (off % 0x1000) page).wr PG_CONFLICT.CODE code.toNat page

/-- Set a bit of PWR_EVT, raising the PWR source when the register becomes nonzero (R476, R551). -/
def State.pwrEvt (s : State) (f : Fld) : State :=
  let was := s.rd PWR_EVT.WORD
  let s := s.wr f 1
  if was = 0 then s.raiseIrq .pwr 0 0 else s

/-- A descriptor, a gated operation, sweep work or a load becomes due in Glow: the package is Burning (R470). -/
def State.burn (s : State) : State :=
  if s.power.fire = .glow then (s.updPower fun p => { p with fire := .burning, since := s.rackTime, idleSince := s.rackTime }).pwrEvt PWR_EVT.STATE else s

/-- A gated unit ends its work: the idle time of R470 begins anew. -/
def State.gatedEnd (s : State) : State := s.updPower fun p => { p with idleSince := s.rackTime }

/-- Sweep work begins: a member at rest rises to Glow for it and returns to its state (R473); in Glow the package is Burning (R470). -/
def State.sweepWake (s : State) : State :=
  if s.resting then ((s.wr PWR_STATE_STS.LAST_WAKE 5).bump PWR_STATE_STS.WAKES).pwrEvt PWR_EVT.STATE else s.burn

/-- A cause of a phase class occurs now (R450). -/
def State.phaseCause (s : State) (n : Nat) : State := s.burn.updPower fun p => { p with phases := SMap.set 0 p.phases n (s.rackTime + 1) }

end Sys2Proof.Machine
end

