-- ==== Sys2Proof/Machine/Flags.lean ====
section
/-!
DEFINITION. The arithmetic flag record (R60, R61) and the expert record (R230, R231): counting, merging and their bytes.
-/
namespace Sys2Proof.Machine

/-- A count that stops at 0xFFFF_FFFF. -/
def cap32 (n : Nat) : Nat := min n 0xFFFFFFFF

/-- The five flags of R60, in the order of its word 0. -/
inductive Flag where
  | sat | wlow | ovf | clamp | nonf
  deriving DecidableEq, Repr

/-- Count `n` events of a flag under a layer tag: the count and the lowest tag (R60). -/
def arithAdd (r : ArithRec) (f : Flag) (n layer : Nat) : ArithRec :=
  if n = 0 then r
  else
    match f with
    | .sat => { r with sat := cap32 (r.sat + n), satLayer := min r.satLayer layer }
    | .wlow => { r with wlow := cap32 (r.wlow + n), wlowLayer := min r.wlowLayer layer }
    | .ovf => { r with ovf := cap32 (r.ovf + n), ovfLayer := min r.ovfLayer layer }
    | .clamp => { r with clamp := cap32 (r.clamp + n), clampLayer := min r.clampLayer layer }
    | .nonf => { r with nonf := cap32 (r.nonf + n), nonfLayer := min r.nonfLayer layer }

/-- Merge two packages' records (R61). -/
def arithMerge (a b : ArithRec) : ArithRec :=
  { sat := cap32 (a.sat + b.sat), wlow := cap32 (a.wlow + b.wlow), ovf := cap32 (a.ovf + b.ovf), clamp := cap32 (a.clamp + b.clamp),
    nonf := cap32 (a.nonf + b.nonf), satLayer := min a.satLayer b.satLayer, wlowLayer := min a.wlowLayer b.wlowLayer,
    ovfLayer := min a.ovfLayer b.ovfLayer, clampLayer := min a.clampLayer b.clampLayer, nonfLayer := min a.nonfLayer b.nonfLayer }

/-- The 32 bytes of the record (R60). -/
def arithBytes (r : ArithRec) : Bytes :=
  let bit (n w : Nat) := if n = 0 then 0 else w
  leBytes 4 (bit r.nonf 16 + bit r.clamp 8 + bit r.ovf 4 + bit r.wlow 2 + bit r.sat 1) ++ leBytes 4 r.sat ++ leBytes 4 r.wlow ++
    leBytes 4 r.ovf ++ leBytes 4 r.clamp ++ leBytes 4 r.nonf ++ leBytes 1 r.satLayer ++ leBytes 1 r.wlowLayer ++ leBytes 1 r.ovfLayer ++
    leBytes 1 r.clampLayer ++ leBytes 1 r.nonfLayer ++ List.replicate 3 0

/-- Count events of a flag in the step's record (R60). -/
def State.count (s : State) (f : Flag) (n layer : Nat) : State := s.updStep fun p => { p with arith := arithAdd p.arith f n layer }

/-- One hot event (R229, R230). -/
def hotEvent (r : ExpertRec) (layer expert rows : Nat) : ExpertRec :=
  { count := cap32 (r.count + 1), layer := min r.layer layer,
    hotId := if layer < r.layer then expert else if layer = r.layer then min r.hotId expert else r.hotId,
    rows := min 0xFFFF (max r.rows rows) }

/-- Merge two packages' expert records (R231). -/
def expertMerge (a b : ExpertRec) : ExpertRec :=
  { count := cap32 (a.count + b.count), layer := min a.layer b.layer,
    hotId := if a.layer < b.layer then a.hotId else if b.layer < a.layer then b.hotId else min a.hotId b.hotId,
    rows := max a.rows b.rows }

/-- The 16 bytes of the expert record (R230). -/
def expertBytes (r : ExpertRec) : Bytes :=
  leBytes 4 (if r.count = 0 then 0 else 1) ++ leBytes 4 r.count ++ leBytes 4 (r.layer % 256 * 2 ^ 24 + r.hotId % 1024) ++ leBytes 4 (r.rows % 65536)

end Sys2Proof.Machine
end

