-- ==== Sys2Proof/Machine/Operands.lean ====
section
/-!
DEFINITION. The operand forms: the fields of an instruction word (R105), local offsets (R108), SRF addresses (R399), the
completion word (R125), the header word (R115), and the advance of the pc with counted loops (R111).
-/
namespace Sys2Proof.Machine

/-- Fields of an instruction word (R105). -/
def fCLASS (w : Insn) : Nat := bits64 w 63 60
def fOP (w : Insn) : Nat := bits64 w 59 52
def fRD (w : Insn) : Nat := bits64 w 51 47
def fRA (w : Insn) : Nat := bits64 w 46 42
def fRB (w : Insn) : Nat := bits64 w 41 37
def fRC (w : Insn) : Nat := bits64 w 36 32
def fIMM (w : Insn) : Nat := bits64 w 31 0
/-- Bits of IMM. -/
def immBits (w : Insn) (hi lo : Nat) : Nat := bits64 w hi lo
/-- IMM sign-extended to 64 bits (R107, R108). -/
def immS (w : Insn) : BitVec 64 := (w.extractLsb' 0 32).signExtend 64

/-- RA + IMM as a local-store offset (R108). -/
def localOff (x : Ctx) (w : Insn) : Nat := (x.sreg (fRA w) + immS w).toNat

/-- Bytes of the local store and of instruction memory (R76, R81). -/
def lsBytes : Nat := 0x100000
def imemBytes : Nat := 0x40000

/-- Read bytes of a core's local store. -/
def Core.rdLs (k : Core) (a n : Nat) : Bytes := Memory.read k.ls a n

/-- Write bytes of a core's local store. -/
def Core.wrLs (k : Core) (a : Nat) (b : Bytes) : Core := { k with ls := Memory.write k.ls a b }

/-- The 128 bytes of a vector register, lane 0 lowest. -/
def vBytes (v : VReg) : Bytes := v.flatMap fun x => leBytes 4 x.toNat

/-- The vector register of 128 bytes. -/
def vOfBytes (b : Bytes) : VReg := (List.range 32).map fun i => BitVec.ofNat 32 (fieldAt b (4 * i) 4)

/-! SRF addresses (R399). -/

def srfRack (a : BitVec 64) : Bool := a.getLsbD 57
def srfSlot (a : BitVec 64) : Nat := bits64 a 56 51
def srfSpace (a : BitVec 64) : Nat := bits64 a 50 48
def srfOff (a : BitVec 64) : Nat := bits64 a 47 0
/-- The package an address names, as HOME of R236 writes it. -/
def srfPkg (a : BitVec 64) : PkgId := BitVec.ofNat 7 ((if srfRack a then 64 else 0) + srfSlot a)
/-- The core an offset in space 0 names, and the byte. -/
def srfCore (a : BitVec 64) : Nat := srfOff a / 2 ^ 20 % 4096
def srfByte (a : BitVec 64) : Nat := srfOff a % 2 ^ 20

/-- Compose an SRF address. -/
def srfAddr (pkg : PkgId) (space off : Nat) : BitVec 64 :=
  BitVec.ofNat 64 ((pkg.toNat / 64) * 2 ^ 57 + pkg.toNat % 64 * 2 ^ 51 + space % 8 * 2 ^ 48 + off % 2 ^ 48)

/-- The mapped 64 MiB extents of the cellar, CEL_CAP.EXTENTS (R360). -/
def State.cellarExtents (s : State) : Nat := if s.kept.orderingA then 8583 else 4291

/-- The mapped capacity of the cellar in bytes (R360). -/
def State.cellarBytes (s : State) : Nat := s.cellarExtents * 0x4000000

/-- Whether an offset lies in its space (R399): the part that R118 and R401 both judge. -/
def State.srfInSpace (s : State) (a : BitVec 64) : Bool :=
  match srfSpace a with
  | 0 => decide (srfOff a < 2 ^ 32)
  | 1 => decide (srfOff a < s.cellarBytes)
  | 2 => decide (srfOff a < 2 ^ 36) && decide (srfOff a / 2 ^ 32 < 12)
  | 3 => decide (srfOff a < 2 ^ 24)
  | _ => false

/-- The header word of a received message (R115). -/
def RecvMsg.header (m : RecvMsg) : BitVec 64 :=
  BitVec.ofNat 64 (m.tag.toNat * 2 ^ 48 + m.srcCore % 4096 * 2 ^ 36 + m.src.toNat % 64 * 2 ^ 30 + m.src.toNat / 64 * 2 ^ 29 +
    m.length % 2 ^ 13 * 2 ^ 16 + m.line % 2 ^ 14)

/-- The completion word (R125) (DEDUCED, notes/assumptions/61.md). -/
def completionWord (status bytes : Nat) : Bytes := leBytes 8 (2 ^ 63 + status % 256 * 2 ^ 48 + bytes % 2 ^ 32)

/-! The pc (R105, R110, R111). -/

/-- Instruction number of a pc. -/
def pcIdx (p : BitVec 18) : Nat := p.toNat / 8

/-- The pc of an instruction number; instruction memory holds 32,768 and the count wraps (DEDUCED, notes/assumptions/10.md). -/
def idxPc (i : Nat) : BitVec 18 := BitVec.ofNat 18 (8 * (i % 32768))

/-- Fall to the next instruction: the end of the innermost body starts its next pass, or ends the loop (R111). `fuel` bounds the loop
stack. -/
def Ctx.fall : Nat → Ctx → Ctx
  | 0, x => x
  | fuel + 1, x =>
    match x.loops with
    | l :: rest =>
      if pcIdx x.pc = l.last then
        if 1 < l.left then { x with pc := idxPc l.first, loops := { l with left := l.left - 1 } :: rest }
        else Ctx.fall fuel { x with loops := rest }
      else { x with pc := idxPc (pcIdx x.pc + 1) }
    | [] => { x with pc := idxPc (pcIdx x.pc + 1) }

/-- Advance past an instruction. -/
def Ctx.advance (x : Ctx) : Ctx := x.fall 3

/-- Jump: a target outside the innermost body abandons that loop and pops its entry, and so again (R111). -/
def Ctx.jumpTo (x : Ctx) (i : Nat) : Ctx :=
  { x with pc := idxPc i, loops := x.loops.dropWhile fun l => decide (i < l.first) || decide (l.last < i) }

/-- The class of an instruction the part does not define (R106) (DEDUCED, notes/assumptions/63.md). -/
def badClass (w : Insn) : Bool := decide (10 ≤ fCLASS w)

/-- The DETAIL of a context fault (R529): the instruction word, then its instruction-memory offset ÷ 8. -/
def faultDetail (w : Insn) (pc : BitVec 18) : Bytes := leBytes 8 w.toNat ++ leBytes 4 (pcIdx pc)

end Sys2Proof.Machine
end

