-- ==== Sys2Proof/Machine/Context.lean ====
section
/-!
DEFINITION. Contexts and the hearth's holder (R67 to R75, R150, R151): starting, stopping, halting, waking, and the count of issue
handshakes (R102).
-/
namespace Sys2Proof.Machine

/-- Contexts of a core for which a test holds become READY. -/
def Core.wake (k : Core) (p : Wait → Bool) : Core :=
  (List.range 8).foldl (fun k x =>
    if (k.ctx x).st ≠ .halted ∧ (k.ctx x).st ≠ .faulted ∧ (k.ctx x).wait ≠ .none ∧ p (k.ctx x).wait then
      k.updCtx x fun c => { c with st := .ready, wait := .none }
    else k) k

/-- The file enters CLEAR and the hearth is free; contexts waiting for it become READY (R150, R68). -/
def Core.freeHearth (k : Core) : Core := { k with file := AccFile.cleared, holder := none }.wake fun w => decide (w = Wait.hearth)

/-- A context enters HALTED: its waits and loops end; as the holder of the hearth its instructions that have not started are
discarded, and the file is cleared and the hearth freed, at once or when the running one, if it is its own, has finished (R68, R151). A stream command of
it runs on, and its fault concerns nobody (R70, R343). -/
def Core.haltCtx (k : Core) (x : Nat) : Core :=
  let k := { k.updCtx x fun c => { c with st := .halted, wait := .none, sink := none, stopPending := false, loops := [] } with
    streams := k.streams.map fun q => if q.ctx = x then { q with stopped := true } else q }
  if k.holder = some x then
    match k.hearthQ with
    | [] => k.freeHearth
    | h :: rest =>
      let rest := rest.filter fun g => decide (g.ctx ≠ x)
      if h.ctx = x then { k with hearthQ := { h with last := true } :: rest }
      else { k with hearthQ := h :: rest }.freeHearth
  else k

/-- STOP from a steward (R68, R70): at once, or once the remote response arrives. -/
def Core.stopCtx (k : Core) (x : Nat) : Core :=
  match (k.ctx x).st with
  | .halted => k
  | .waitRemote => k.updCtx x fun c => { c with stopPending := true }
  | _ => k.haltCtx x

/-- START from a steward at a byte address (R68); only a HALTED context starts. -/
def Core.startCtx (k : Core) (x start : Nat) : Core :=
  if (k.ctx x).st = .halted then
    k.updCtx x fun c => { c with st := .ready, pc := BitVec.ofNat 18 start, wait := .none, sink := none, stopPending := false,
                                 loops := [], arrivals := [] }
  else k

/-- Whether every context of a core is HALTED. -/
def Core.allHalted (k : Core) : Bool := k.ctxs.all fun r => decide (r.2.st = .halted)

/-- Whether every context of every core is HALTED. -/
def State.allHalted (s : State) : Bool := s.cores.all fun r => r.2.allHalted

/-- Change every core that differs from a reset core. -/
def State.mapCores (s : State) (f : Nat → Core → Core) : State :=
  s.cores.foldl (fun t r => t.updCore r.1 (f r.1)) s

/-- STOP every context of every core under R70. -/
def State.stopAll (s : State) : State := s.mapCores fun _ k => (List.range 8).foldl Core.stopCtx k

/-- With every context halted no queued instruction starts any more; the running one finishes, and the file is then cleared (R151). -/
def Core.settleHearth (k : Core) : Core :=
  match k.hearthQ with
  | [] => k.freeHearth
  | h :: _ => { k with hearthQ := [{ h with last := true }] }

/-- Every context of every core HALTED at once, its response slot released: issue has stopped for good or the attempt is over. -/
def State.haltAll (s : State) : State :=
  s.mapCores fun _ k =>
    (List.range 8).foldl (fun k x => if (k.ctx x).st = .halted then k else k.haltCtx x) k.settleHearth

/-- Scheduler: the next READY context in ascending order from the one after the last holder, wrapping from 7 to 0 (R72). -/
def Core.select (k : Core) : Core :=
  if k.running.isSome then k
  else
    match (List.range 8).find? fun i => decide ((k.ctx ((k.lastHeld + 1 + i) % 8)).st = .ready) with
    | some i =>
      let x := (k.lastHeld + 1 + i) % 8
      { k.updCtx x fun c => { c with st := .running } with lastHeld := x }
    | none => k

/-- Whether a store by context `x` of core `k` is outstanding (R74, R126). -/
def Core.storesOf (k : Core) (x : Nat) : Bool := k.stores.any fun o => decide (o.ctx = x)

/-- Whether a DMA has still to complete as a fence sees it (R126): a push until its last transfer is acknowledged, a pull until its completion word. -/
def Dma.isOpen (d : Dma) : Bool := d.pull || decide (d.reqs ≠ []) || (decide (d.done < d.len) && !d.failed)

/-- Whether every remote store, DMA and send of a context has completed (R126). -/
def Core.fenced (k : Core) (x : Nat) : Bool :=
  !k.storesOf x && !(k.dmas.any fun d => decide (d.ctx = x) && d.isOpen) && !(k.sends.any fun d => decide (d.ctx = x))

/-- Contexts whose fence has cleared become READY (R68, R126). -/
def Core.checkFences (k : Core) : Core :=
  (List.range 8).foldl (fun k x =>
    if (k.ctx x).wait = .fence ∧ k.fenced x then k.updCtx x fun c => { c with st := .ready, wait := .none } else k) k

/-- One issue handshake of a core (R102). -/
def State.issued (s : State) (c : Nat) : State := s.updCore c fun k => { k with hsCnt := k.hsCnt + 1 }

/-- Advance context `x` of core `c` past an instruction it has executed. -/
def State.retire (s : State) (c x : Nat) : State := (s.issued c).updCtx c x Ctx.advance

end Sys2Proof.Machine
end

