-- ==== Sys2Proof/Machine/CellarMap.lean ====
section
/-!
DEFINITION. Where a byte of the cellar lies (R361), and its lines: the bad-line list, whole-line writes and marked rows (R365, R366, R368).
-/
namespace Sys2Proof.Machine

/-- The hash of R361 for a cellar byte address: (stack, pseudo-channel, plane, unit of the pseudo-channel). -/
def celHash (a : Nat) : Nat × Nat × Nat × Nat :=
  let u := bitsN a 39 8
  let m := u % 3
  let q := u / 3
  let p := bitsN q 6 0 ^^^ bitsN q 13 7 ^^^ bitsN q 20 14 ^^^ bitsN q 27 21 ^^^ bitsN q 29 28
  (4 * m + bitsN p 1 0, bitsN p 6 2, bitsN u 2 0 ^^^ bitsN u 5 3 ^^^ bitsN u 8 6 ^^^ bitsN u 11 9, bitsN q 29 7)

/-- The stack of a cellar line, its bank there, and its row (R361): the low bits of the unit select the bank of the line's pseudo-channel, so that
consecutive units of one pseudo-channel meet different banks (DESIGN CHOICE, notes/assumptions/107.md). -/
def celPlace (line : Nat) : Nat × Nat × Nat :=
  let h := celHash (64 * line)
  let b := 2 ^ (Config.bankBits % 7 + 1)
  (h.1, h.2.1 * b + h.2.2.2 % b, Config.dramRow (h.2.2.2 / b))

/-- Whether a byte range of the cellar meets a line of the bad-line list (R365). -/
def State.celBad (s : State) (a n : Nat) : Bool := s.cel.badLines.any fun l => decide (64 * l < a + n) && decide (a < 64 * l + 64)

/-- Bytes of the cellar that an engine of the package reads: nothing where a line of the bad-line list would have to be returned (R365). -/
def State.celSafe (s : State) (a n : Nat) : Bytes := if s.celBad a n then [] else Memory.read s.cellar a n

/-- Mark the row of a cellar line for repair (R368) (DESIGN CHOICE, notes/assumptions/107.md). -/
def State.markRow (s : State) (line : Nat) : State :=
  let r := celPlace line
  if s.cel.markedRows.contains r then s else { s with cel := { s.cel with markedRows := s.cel.markedRows ++ [r] } }

/-- A write of bytes to the cellar. A whole-line write takes the line off the bad-line list and marks its row (R365, R366, R368). -/
def State.celWrite (s : State) (o : Nat) (b : Bytes) : State :=
  let whole (l : Nat) : Bool := decide (o ≤ 64 * l) && decide (64 * l + 64 ≤ o + b.length)
  let s := (s.cel.badLines.filter whole).foldl (fun s l => s.markRow l) s
  { s with cellar := Memory.write s.cellar o b, cel := { s.cel with badLines := s.cel.badLines.filter fun l => !whole l } }

end Sys2Proof.Machine
end

