-- ==== Sys2Proof/Machine/Check.lean ====
section
/-!
DEFINITION. CRC-32C (Castagnoli), the check of records, headers, pages and blocks.
-/
namespace Sys2Proof.Machine

/-- One bit of the reflected division by the Castagnoli polynomial. -/
def crcBit (c : BitVec 32) : BitVec 32 := if c.getLsbD 0 then (c >>> 1) ^^^ 0x82F63B78 else c >>> 1

/-- One byte. -/
def crcByte (c : BitVec 32) (b : Byte) : BitVec 32 :=
  crcBit (crcBit (crcBit (crcBit (crcBit (crcBit (crcBit (crcBit (c ^^^ b.setWidth 32))))))))

/-- CRC-32C of a byte string: initial value and final complement of all ones (PRESUMED, the usual CRC-32C; notes/assumptions/7.md). -/
def crc32c (bs : Bytes) : BitVec 32 := bs.foldl crcByte 0xFFFFFFFF ^^^ 0xFFFFFFFF

/-- CRC-32C with the four bytes at an offset taken as zero. -/
def crcWithout (bs : Bytes) (off : Nat) : BitVec 32 := crc32c (bs.take off ++ List.replicate 4 0 ++ bs.drop (off + 4))

/-- Whether every byte of a range is zero. -/
def zeroRange (bs : Bytes) (off n : Nat) : Bool := ((bs.drop off).take n).all fun b => decide (b = 0)

/-- Whether a list holds no value twice. -/
def allDistinct : List Nat → Bool
  | [] => true
  | x :: xs => !xs.contains x && allDistinct xs

/-- Whether no two of a list of intervals `[lo, lo + n)` overlap. -/
def noOverlap : List (Nat × Nat) → Bool
  | [] => true
  | (a, n) :: r => (r.all fun e => decide (a + n ≤ e.1) || decide (e.1 + e.2 ≤ a) || decide (n = 0) || decide (e.2 = 0)) && noOverlap r

end Sys2Proof.Machine
end

