-- ==== Sys2Proof/Machine/Crypto.lean ====
section
/-!
DEFINITION. SHA-512 (R304, R318, R499) and the check of an RSASSA-PSS signature (R309, R487, R500), as the standards that the spec names define them
(PRESUMED, notes/assumptions/45.md).
-/
namespace Sys2Proof.Machine

/-! SHA-512. -/

/-- A number of a byte string, most significant byte first. -/
def beNat (b : Bytes) : Nat := b.foldl (fun n x => 256 * n + x.toNat) 0

/-- The `n` bytes of a number, most significant first. -/
def beBytes (n v : Nat) : Bytes := (leBytes n v).reverse

/-- The round constants: the first 64 fraction bits of the cube roots of the first 80 primes. -/
def shaRounds : List (BitVec 64) :=
  [0x428A2F98D728AE22, 0x7137449123EF65CD, 0xB5C0FBCFEC4D3B2F, 0xE9B5DBA58189DBBC, 0x3956C25BF348B538,
   0x59F111F1B605D019, 0x923F82A4AF194F9B, 0xAB1C5ED5DA6D8118, 0xD807AA98A3030242, 0x12835B0145706FBE,
   0x243185BE4EE4B28C, 0x550C7DC3D5FFB4E2, 0x72BE5D74F27B896F, 0x80DEB1FE3B1696B1, 0x9BDC06A725C71235,
   0xC19BF174CF692694, 0xE49B69C19EF14AD2, 0xEFBE4786384F25E3, 0x0FC19DC68B8CD5B5, 0x240CA1CC77AC9C65] ++
  [0x2DE92C6F592B0275, 0x4A7484AA6EA6E483, 0x5CB0A9DCBD41FBD4, 0x76F988DA831153B5, 0x983E5152EE66DFAB,
   0xA831C66D2DB43210, 0xB00327C898FB213F, 0xBF597FC7BEEF0EE4, 0xC6E00BF33DA88FC2, 0xD5A79147930AA725,
   0x06CA6351E003826F, 0x142929670A0E6E70, 0x27B70A8546D22FFC, 0x2E1B21385C26C926, 0x4D2C6DFC5AC42AED,
   0x53380D139D95B3DF, 0x650A73548BAF63DE, 0x766A0ABB3C77B2A8, 0x81C2C92E47EDAEE6, 0x92722C851482353B] ++
  [0xA2BFE8A14CF10364, 0xA81A664BBC423001, 0xC24B8B70D0F89791, 0xC76C51A30654BE30, 0xD192E819D6EF5218,
   0xD69906245565A910, 0xF40E35855771202A, 0x106AA07032BBD1B8, 0x19A4C116B8D2D0C8, 0x1E376C085141AB53,
   0x2748774CDF8EEB99, 0x34B0BCB5E19B48A8, 0x391C0CB3C5C95A63, 0x4ED8AA4AE3418ACB, 0x5B9CCA4F7763E373,
   0x682E6FF3D6B2B8A3, 0x748F82EE5DEFB2FC, 0x78A5636F43172F60, 0x84C87814A1F0AB72, 0x8CC702081A6439EC] ++
  [0x90BEFFFA23631E28, 0xA4506CEBDE82BDE9, 0xBEF9A3F7B2C67915, 0xC67178F2E372532B, 0xCA273ECEEA26619C,
   0xD186B8C721C0C207, 0xEADA7DD6CDE0EB1E, 0xF57D4F7FEE6ED178, 0x06F067AA72176FBA, 0x0A637DC5A2C898A6,
   0x113F9804BEF90DAE, 0x1B710B35131C471B, 0x28DB77F523047D84, 0x32CAAB7B40C72493, 0x3C9EBE0A15C9BEBC,
   0x431D67C49C100D4C, 0x4CC5D4BECB3E42B6, 0x597F299CFC657E2A, 0x5FCB6FAB3AD6FAEC, 0x6C44198C4A475817]

/-- The eight chaining words. -/
structure ShaWords where
  a : BitVec 64
  b : BitVec 64
  c : BitVec 64
  d : BitVec 64
  e : BitVec 64
  f : BitVec 64
  g : BitVec 64
  h : BitVec 64
  deriving DecidableEq, Repr

/-- The initial chaining words: the first 64 fraction bits of the square roots of the first eight primes. -/
def shaStart : ShaWords :=
  { a := 0x6A09E667F3BCC908, b := 0xBB67AE8584CAA73B, c := 0x3C6EF372FE94F82B, d := 0xA54FF53A5F1D36F1, e := 0x510E527FADE682D1, f := 0x9B05688C2B3E6C1F,
    g := 0x1F83D9ABFB41BD6B, h := 0x5BE0CD19137E2179 }

/-- The schedule word that follows a window of 16. -/
def shaNext (w : List (BitVec 64)) : BitVec 64 :=
  let x := w.getD 1 0
  let y := w.getD 14 0
  w.getD 0 0 + (x.rotateRight 1 ^^^ x.rotateRight 8 ^^^ x >>> 7) + w.getD 9 0 + (y.rotateRight 19 ^^^ y.rotateRight 61 ^^^ y >>> 6)

/-- One round with a constant and a schedule word. -/
def shaRound (s : ShaWords) (k w : BitVec 64) : ShaWords :=
  let t := s.h + (s.e.rotateRight 14 ^^^ s.e.rotateRight 18 ^^^ s.e.rotateRight 41) + (s.e &&& s.f ^^^ ~~~s.e &&& s.g) + k + w
  let u := (s.a.rotateRight 28 ^^^ s.a.rotateRight 34 ^^^ s.a.rotateRight 39) + (s.a &&& s.b ^^^ s.a &&& s.c ^^^ s.b &&& s.c)
  { a := t + u, b := s.a, c := s.b, d := s.c, e := s.d + t, f := s.e, g := s.f, h := s.g }

/-- The rounds of one block over a window of 16 schedule words. -/
def shaBlockRounds : List (BitVec 64) → List (BitVec 64) → ShaWords → ShaWords
  | [], _, s => s
  | k :: ks, w, s => shaBlockRounds ks (w.drop 1 ++ [shaNext w]) (shaRound s k (w.getD 0 0))

/-- The chaining words after a block of 128 bytes. -/
def shaBlock (s : ShaWords) (b : Bytes) : ShaWords :=
  let t := shaBlockRounds shaRounds ((List.range 16).map fun i => BitVec.ofNat 64 (beNat ((b.drop (8 * i)).take 8))) s
  { a := s.a + t.a, b := s.b + t.b, c := s.c + t.c, d := s.d + t.d, e := s.e + t.e, f := s.f + t.f, g := s.g + t.g, h := s.h + t.h }

/-- SHA-512 of a byte string. -/
def sha512 (b : Bytes) : Bytes :=
  let p := b ++ [0x80] ++ List.replicate ((239 - b.length % 128) % 128) 0 ++ beBytes 16 (8 * b.length)
  let s := (chunks 128 (p.length / 128) p).foldl shaBlock shaStart
  [s.a, s.b, s.c, s.d, s.e, s.f, s.g, s.h].flatMap fun w => beBytes 8 w.toNat

/-! RSASSA-PSS with SHA-512, MGF1 with SHA-512 and a salt of 64 bytes (R309). -/

/-- The mask of `n` bytes from a seed. -/
def pssMask (seed : Bytes) (n : Nat) : Bytes := ((List.range (ceilDiv n 64)).flatMap fun i => sha512 (seed ++ beBytes 4 i)).take n

/-- The public operation: `s` to the power 65,537 modulo `n`. -/
def rsaPublic (n s : Nat) : Nat := (List.range 16).foldl (fun x _ => x * x % n) s * s % n

/-- Whether an encoded message, whose first `free` bits are unused, holds the hash of a message. -/
def pssHolds (em : Bytes) (free : Nat) (hash : Bytes) : Bool :=
  let n := em.length - 65
  let h := (em.drop n).take 64
  let db := match ((em.take n).zip (pssMask h n)).map fun p => p.1 ^^^ p.2 with
    | [] => []
    | x :: r => BitVec.ofNat 8 (x.toNat % 2 ^ (8 - free)) :: r
  let pad := List.replicate (n - 65) (0 : Byte)
  if em.length < 130 ∨ em.getLast? ≠ some 0xBC ∨ 2 ^ (8 - free) ≤ (em.headD 0).toNat then false
  else (db.take (n - 65) == pad) && (db.getD (n - 65) 0 == 1) && (sha512 (List.replicate 8 0 ++ hash ++ db.drop (n - 64)) == h)

/-- Whether a signature of a message holds under a public key: an RSA modulus with the exponent 65,537, both octet strings most significant byte
first. -/
def sigOk (key msg sig : Bytes) : Bool :=
  let n := beNat key
  let s := beNat sig
  if n ≤ s then false
  else
    let bits := n.log2
    let len := ceilDiv bits 8
    let m := rsaPublic n s
    decide (m < 256 ^ len) && pssHolds (beBytes len m) (8 * len - bits) (sha512 msg)

end Sys2Proof.Machine
end

