-- ==== Sys2Proof/Machine/Model.lean ====
section
/-!
DEFINITION. Model versions as bytes: the manifest (R304 to R310), the objects of a slot (R303, R305), the attention map (R180), the
expert map (R211), the tile plan (R202, R319) and the program image (R139), each read from the cellar or the manifest.
-/
namespace Sys2Proof.Machine

/-- Bytes of an extent (R302). -/
def extentBytes : Nat := 0x4000000

/-- An object entry (R305). -/
structure Obj where
  kind : Nat
  pair : Nat
  first : Nat
  count : Nat
  off : Nat
  fp : Nat
  deriving DecidableEq, Repr

/-- A shard entry (R306). -/
structure ShardEnt where
  root : Bytes
  source : Nat
  len : Nat
  deriving DecidableEq, Repr

/-- Header fields of a manifest (R304). -/
def manKey (m : Bytes) : Nat := fieldAt m 0x06 1
def manModelId (m : Bytes) : Nat := fieldAt m 0x08 8
def manVersion (m : Bytes) : Nat := fieldAt m 0x10 4
def manPairs (m : Bytes) : Nat := fieldAt m 0x14 1
def manObjCount (m : Bytes) : Nat := fieldAt m 0x18 4
def manShardCount (m : Bytes) : Nat := fieldAt m 0x1C 4
def manRelocCount (m : Bytes) : Nat := fieldAt m 0x20 4

/-- Object entry `i`. -/
def manObj (m : Bytes) (i : Nat) : Obj :=
  let b := (m.drop (128 + 32 * i)).take 32
  { kind := fieldAt b 0 1, pair := fieldAt b 1 1, first := fieldAt b 4 4, count := fieldAt b 8 4, off := fieldAt b 0x10 8,
    fp := fieldAt b 0x18 8 }

/-- The 80 bytes of shard entry `k` (R307). -/
def manShardBytes (m : Bytes) (k : Nat) : Bytes := (m.drop (128 + 32 * manObjCount m + 80 * k)).take 80

/-- Shard entry `k`. -/
def manShard (m : Bytes) (k : Nat) : ShardEnt :=
  let b := manShardBytes m k
  { root := b.take 64, source := fieldAt b 0x40 8, len := fieldAt b 0x48 4 }

/-- Relocation entry `i`: object index and byte (R308). -/
def manReloc (m : Bytes) (i : Nat) : Nat × Nat :=
  let v := fieldAt m (128 + 32 * manObjCount m + 80 * manShardCount m + 8 * i) 8
  (v / 2 ^ 32, v % 2 ^ 32)

/-- Every object with its index. -/
def manObjs (m : Bytes) : List (Nat × Obj) := (List.range (manObjCount m)).map fun i => (i, manObj m i)

/-- The objects a package of a pair holds: PAIR its own or 0xFF (R305). -/
def manHeld (m : Bytes) (pair : Nat) : List (Nat × Obj) :=
  (manObjs m).filter fun e => decide (e.2.pair = pair) || decide (e.2.pair = 0xFF)

/-- Stored bytes of an object: the sum of its shards' LENGTH. -/
def objStored (m : Bytes) (o : Obj) : Nat := (List.range o.count).foldl (fun n k => n + (manShard m (o.first + k)).len) 0

/-- The footprint of a pair's package in bytes: the largest OFFSET + FOOTPRINT, rounded up to an extent (R303). -/
def manFootprint (m : Bytes) (pair : Nat) : Nat :=
  ceilDiv ((manHeld m pair).foldl (fun n e => max n (e.2.off + e.2.fp)) 0) extentBytes * extentBytes

/-- The manifest's length by its counts (R310). -/
def manLength (m : Bytes) : Nat := 128 + 32 * manObjCount m + 80 * manShardCount m + 8 * manRelocCount m + 512

/-- An object entry within its stated values (R305, R306). -/
def objOk (m : Bytes) (o : Obj) : Bool :=
  decide (1 ≤ o.kind) && decide (o.kind ≤ 6) && (decide (o.pair < manPairs m) || decide (o.pair = 0xFF)) &&
    (if o.kind = 6 then decide (o.count = 0) else decide (1 ≤ o.count)) && decide (o.off % 65536 = 0) && decide (o.fp % 65536 = 0) &&
    (decide (o.count = 0) || decide (o.first + o.count ≤ manShardCount m)) &&
    ((List.range (o.count - 1)).all fun k => decide ((manShard m (o.first + k)).len = extentBytes)) && decide (objStored m o ≤ o.fp)

/-- The checks of one pair's package (R310). -/
def manPairOk (m : Bytes) (pair : Nat) : Bool :=
  let held := (manHeld m pair).map (·.2)
  let n (k : Nat) := (held.filter fun o => decide (o.kind = k)).length
  noOverlap (held.map fun o => (o.off, o.fp)) && decide (1 ≤ n 2) && decide (n 3 = 1) && decide (n 4 = 1) && decide (n 5 ≤ 1)

/-- Whether a manifest keeps its format (R310), as far as the manifest's own bytes say. -/
def manFormatOk (m : Bytes) : Bool :=
  decide (640 ≤ m.length) && decide (m.length ≤ 16777216) && decide (m.length = manLength m) &&
    decide (fieldAt m 0 4 = 0x4D465354) && decide (fieldAt m 4 2 = 1) && decide (manKey m ≤ 7) && zeroRange m 7 1 &&
    decide (manModelId m ≠ 0) && decide (manVersion m ≠ 0) && decide (1 ≤ manPairs m) && decide (manPairs m ≤ 36) &&
    zeroRange m 0x15 3 && decide (1 ≤ manObjCount m) && decide (manObjCount m ≤ 4096) && zeroRange m 0x24 92 &&
    ((List.range (manObjCount m)).all fun i =>
      zeroRange m (128 + 32 * i + 2) 2 && zeroRange m (128 + 32 * i + 0xC) 4 && objOk m (manObj m i)) &&
    ((List.range (manShardCount m)).all fun k =>
      let e := manShard m k
      decide (e.source % 4096 = 0) && decide (1 ≤ e.len) && decide (e.len ≤ extentBytes) &&
        zeroRange m (128 + 32 * manObjCount m + 80 * k + 0x4C) 4) &&
    noOverlap ((manObjs m).map fun e => (e.2.first, e.2.count)) &&
    ((List.range (manPairs m)).all (manPairOk m)) &&
    ((List.range (manRelocCount m)).all fun i =>
      let r := manReloc m i
      let o := manObj m r.1
      decide (r.2 % 8 = 0) && decide (r.1 < manObjCount m) && (decide (o.kind = 3) || decide (o.kind = 5)) &&
        decide (r.2 + 8 ≤ objStored m o))

/-- Whether the relocated fields, by relocation entry, hold values below the footprint of every pair's package that holds the object (R310). -/
def manRelocsOk (m : Bytes) (fields : List DWord) : Bool :=
  (List.range (manRelocCount m)).all fun i =>
    let o := manObj m (manReloc m i).1
    (List.range (manPairs m)).all fun p =>
      (decide (o.pair ≠ p) && decide (o.pair ≠ 0xFF)) || decide ((fields.getD i 0).toNat < manFootprint m p)

/-- Bytes of one place of the manifest area, which has four (R302). -/
def manifestBytes : Nat := 0x1000000

/-- The signed bytes and the signature (R309). -/
def manSigned (m : Bytes) : Bytes × Bytes := (m.take (m.length - 512), m.drop (m.length - 512))

/-! Objects of a slot. -/

/-- The pair number of this package (R419). -/
def State.pairNum (s : State) : Nat := s.rd PAIR_CTL.PAIR_NUM

/-- The objects of slot `n` that this package holds. -/
def State.slotObjs (s : State) (n : Nat) : List (Nat × Obj) := manHeld (s.slot n).manifest s.pairNum

/-- Cellar address of a slot's footprint. -/
def State.slotBase (s : State) (n : Nat) : Nat := (s.slot n).base * extentBytes

/-- The stored bytes of an object of slot `n`. -/
def State.objBytes (s : State) (n : Nat) (o : Obj) : Bytes :=
  s.celSafe (s.slotBase n + o.off) (objStored (s.slot n).manifest o)

/-- The bytes of the slot's first object of a type; none when it holds no such object. -/
def State.slotObj (s : State) (n kind : Nat) : Option Bytes :=
  ((s.slotObjs n).find? fun e => decide (e.2.kind = kind)).map fun e => s.objBytes n e.2

/-! The attention map (R180). -/

/-- A chain's entry. -/
structure Chain where
  layer : Nat
  group : Nat
  h : Nat
  format : Nat
  x0 : Nat
  y0 : Nat
  x1 : Nat
  y1 : Nat
  span : Nat
  lsSlots : Nat
  lsBase : Nat
  deriving DecidableEq, Repr

/-- Chain entry at byte `16 × c` of a map. -/
def chainAt (m : Bytes) (c : Nat) : Chain :=
  let b := (m.drop (16 * c)).take 16
  { layer := fieldAt b 0 1, group := fieldAt b 1 1, h := fieldAt b 2 1, format := fieldAt b 3 1, x0 := fieldAt b 4 1, y0 := fieldAt b 5 1,
    x1 := fieldAt b 6 1, y1 := fieldAt b 7 1, span := fieldAt b 8 2, lsSlots := fieldAt b 0xA 1, lsBase := fieldAt b 0xC 4 }

/-- The chains of a slot, in ascending chain order. -/
def State.chains (s : State) (n : Nat) : List Chain :=
  match s.slotObj n 4 with
  | some m => (List.range (m.length / 16)).map (chainAt m)
  | none => []

/-- The chain count of a slot, Cn (R174): the stored length of its attention map ÷ 16. -/
def State.chainCount (s : State) (n : Nat) : Nat :=
  match (s.slotObjs n).find? fun e => decide (e.2.kind = 4) with
  | some e => objStored (s.slot n).manifest e.2 / 16
  | none => 0

/-- The cores of a rectangle in ascending core number. -/
def rectCores (x0 y0 x1 y1 : Nat) : List Nat :=
  (List.range (y1 + 1 - y0)).flatMap fun j => (List.range (x1 + 1 - x0)).map fun i => coreAt (x0 + i) (y0 + j)

/-- The owner cores of a chain, numbered in ascending core number (R180). -/
def Chain.owners (c : Chain) : List Nat := rectCores c.x0 c.y0 c.x1 c.y1

/-! The expert map (R211). -/

/-- A layer entry. -/
structure ExLayer where
  layer : Nat
  k : Nat
  e : Nat
  rowPacks : Nat
  hot : Nat
  groupTokens : Nat
  early : Nat
  tag : Nat
  firstEntry : Nat
  routeGroup : Nat
  groups : List Nat
  deriving DecidableEq, Repr

/-- An expert entry. -/
structure ExEntry where
  expert : Nat
  replicas : Nat
  pairs : List Nat
  weight : Nat
  deriving DecidableEq, Repr

def exLayers (m : Bytes) : Nat := fieldAt m 0 2
def exDSlot (m : Bytes) : Nat := fieldAt m 4 4
def exCSlot (m : Bytes) : Nat := fieldAt m 8 4
/-- DISPATCHh and COMBINEh (R211). -/
def exDispatch (m : Bytes) (h : Nat) : Nat := fieldAt m (0x10 + 8 * h) 8
def exCombine (m : Bytes) (h : Nat) : Nat := fieldAt m (0x20 + 8 * h) 8

def exLayerAt (m : Bytes) (i : Nat) : ExLayer :=
  let b := (m.drop (64 + 32 * i)).take 32
  { layer := fieldAt b 0 1, k := fieldAt b 1 1, e := fieldAt b 2 2, rowPacks := fieldAt b 4 1, hot := fieldAt b 5 1,
    groupTokens := fieldAt b 6 2, early := fieldAt b 8 2, tag := fieldAt b 0xA 2, firstEntry := fieldAt b 0xC 4,
    routeGroup := fieldAt b 0x10 2, groups := (List.range 4).map fun j => fieldAt b (0x12 + 2 * j) 2 }

def exEntryAt (m : Bytes) (i : Nat) : ExEntry :=
  let b := (m.drop (64 + 32 * exLayers m + 16 * i)).take 16
  { expert := fieldAt b 0 2, replicas := fieldAt b 2 1, pairs := (List.range 4).map fun j => fieldAt b (4 + j) 1, weight := fieldAt b 8 8 }

/-- The expert layers of a map. -/
def exAll (m : Bytes) : List ExLayer := (List.range (exLayers m)).map (exLayerAt m)

/-- The expert layers of a slot. -/
def State.exLayersOf (s : State) (n : Nat) : List ExLayer :=
  match s.slotObj n 5 with
  | some m => exAll m
  | none => []

/-! The tile plan (R202, R319). -/

/-- A group entry. -/
structure PlanGroup where
  kind : Nat
  layer : Nat
  stage : Nat
  group : Nat
  count : Nat
  depends : List Nat
  arg : Nat
  deriving DecidableEq, Repr

def planGroupAt (p : Bytes) (i : Nat) : PlanGroup :=
  let b := (p.drop (16 + 32 * i)).take 32
  { kind := fieldAt b 0 1, layer := fieldAt b 1 1, stage := fieldAt b 2 2, group := fieldAt b 4 2, count := fieldAt b 8 4,
    depends := (List.range 4).map fun j => fieldAt b (0xC + 2 * j) 2, arg := fieldAt b 0x14 4 }

/-- The groups of a plan. -/
def planGroups (p : Bytes) : List PlanGroup := (List.range (fieldAt p 0 4)).map (planGroupAt p)

/-- The tile plan of a slot. -/
def State.plan (s : State) (n : Nat) : Bytes := (s.slotObj n 3).getD []

/-! The program image (R139). -/

/-- A segment entry. -/
structure Segment where
  x0 : Nat
  y0 : Nat
  x1 : Nat
  y1 : Nat
  imem : Nat
  len : Nat
  src : Nat
  deriving DecidableEq, Repr

def imgSegCount (b : Bytes) : Nat := fieldAt b 6 2
def imgId (b : Bytes) : Nat := fieldAt b 8 8
def imgBarCount (b : Bytes) : Nat := fieldAt b 0x10 2
/-- ENTRYx. -/
def imgEntry (b : Bytes) (x : Nat) : Nat := fieldAt b (0x20 + 4 * x) 4

def imgSeg (b : Bytes) (i : Nat) : Segment :=
  let e := (b.drop (64 + 16 * i)).take 16
  { x0 := fieldAt e 0 1, y0 := fieldAt e 1 1, x1 := fieldAt e 2 1, y1 := fieldAt e 3 1, imem := fieldAt e 4 4, len := fieldAt e 8 4,
    src := fieldAt e 0xC 4 }

def imgSegs (b : Bytes) : List Segment := (List.range (imgSegCount b)).map (imgSeg b)

/-- Barrier entries: (id, member count). -/
def imgBars (b : Bytes) : List (Nat × Nat) :=
  (List.range (imgBarCount b)).map fun i =>
    let v := fieldAt b (64 + 16 * imgSegCount b + 4 * i) 4
    (v / 2 ^ 24, v % 2 ^ 16)

/-- Whether the segment's rectangle takes in a core. -/
def Segment.covers (g : Segment) (c : Nat) : Bool :=
  decide (g.x0 ≤ c % 64) && decide (c % 64 ≤ g.x1) && decide (g.y0 ≤ c / 64) && decide (c / 64 ≤ g.y1)

/-- Whether two segments write overlapping bytes of one core (R140). -/
def Segment.clash (a b : Segment) : Bool :=
  decide (a.x0 ≤ b.x1) && decide (b.x0 ≤ a.x1) && decide (a.y0 ≤ b.y1) && decide (b.y0 ≤ a.y1) &&
    decide (a.len ≠ 0) && decide (b.len ≠ 0) && decide (a.imem < b.imem + b.len) && decide (b.imem < a.imem + a.len)

def noClash : List Segment → Bool
  | [] => true
  | g :: r => (r.all fun h => !g.clash h) && noClash r

/-- Whether an image is well formed (R139, R140). -/
def imageOk (b : Bytes) : Bool :=
  decide (64 ≤ b.length) && decide (fieldAt b 0 4 = 0x47505331) && decide (fieldAt b 4 2 = 1) && decide (1 ≤ imgSegCount b) &&
    decide (imgSegCount b ≤ 4096) && decide (imgBarCount b ≤ 256) && zeroRange b 0x12 14 &&
    decide (64 + 16 * imgSegCount b + 4 * imgBarCount b ≤ b.length) &&
    ((imgSegs b).all fun g =>
      decide (g.x0 ≤ g.x1) && decide (g.x1 ≤ 63) && decide (g.y0 ≤ g.y1) && decide (g.y1 ≤ 63) && decide (g.imem % 8 = 0) &&
        decide (g.len % 8 = 0) && decide (g.imem + g.len ≤ 0x40000) && decide (g.src % 64 = 0) && decide (g.src + g.len ≤ b.length)) &&
    noClash (imgSegs b) &&
    ((List.range (imgBarCount b)).all fun i =>
      let v := fieldAt b (64 + 16 * imgSegCount b + 4 * i) 4
      decide (v / 2 ^ 16 % 256 = 0) && decide (1 ≤ v % 2 ^ 16) && decide (v % 2 ^ 16 ≤ 32768)) &&
    allDistinct ((imgBars b).map (·.1)) &&
    ((List.range 8).all fun x => decide (imgEntry b x = 0xFFFFFFFF) || (decide (imgEntry b x < 0x40000) && decide (imgEntry b x % 8 = 0)))

/-! Slot states and space. -/

/-- The code of a state in MDL_SLOTn_STATE (R311), with its PHASE. -/
def SlotState.code : SlotState → Nat × Nat
  | .evicted => (0, 3)
  | .loadManifest => (1, 0)
  | .loadSpace => (1, 1)
  | .loadShards => (1, 2)
  | .verifying => (2, 3)
  | .ready => (3, 3)
  | .draining => (4, 3)

/-- Set the bit of a slot in MDL_EVT, raising the MDL source when the register becomes nonzero (R331, R551). -/
def State.mdlEvt (s : State) (n : Nat) : State :=
  let was := s.rd MDL_EVT_LO.CHANGED + s.rd MDL_EVT_HI.CHANGED
  let s := if n < 32 then s.wr MDL_EVT_LO.CHANGED (s.rd MDL_EVT_LO.CHANGED ||| 2 ^ n)
    else s.wr MDL_EVT_HI.CHANGED (s.rd MDL_EVT_HI.CHANGED ||| 2 ^ (n - 32))
  if was = 0 then s.raiseIrq .mdl 0 0 else s

/-- Change slot `n`; a change of state or phase shows in MDL_EVT. -/
def State.updSlot (s : State) (n : Nat) (f : Slot → Slot) : State :=
  let was := (s.slot n).st
  let s := s.updSlotRaw n f
  if (s.slot n).st = was then s else s.mdlEvt n

/-- Replace the slot table: each slot whose state or phase that changes shows in MDL_EVT (R331). -/
def State.putSlots (s : State) (m : SMap Slot) : State :=
  (List.range 64).foldl (fun (t : State) n => if (s.slot n).st = (SMap.get Slot.evicted m n).st then t else t.mdlEvt n) { s with slots := m }

/-- Whether an entry counts in its model slot's reference count (R238). -/
def SeqState.counts : SeqState → Bool
  | .queued | .prefill | .decode | .paused => true
  | _ => false

/-- The reference count of a slot (R325). -/
def State.slotRefs (s : State) (n : Nat) : Nat :=
  (s.table.filter fun e => e.2.st.counts && decide (e.2.slot = n)).length

/-- Extents in use: (base, length) of every slot that has a footprint. -/
def State.extentsUsed (s : State) : List (Nat × Nat) :=
  (s.slots.filter fun e => decide (e.2.extents ≠ 0)).map fun e => (e.2.base, e.2.extents)

/-- The first extent of the region and the end of its usable part: the top extent is the manifest area (R302). -/
def State.regionBounds (s : State) : Nat × Nat :=
  (s.rd MDL_REGION.BASE, s.rd MDL_REGION.BASE + (s.rd MDL_REGION.SIZE - 1))

/-- The lowest run of `n` free numbers from `cur` up and below `lim`, given the used intervals in ascending order. -/
def lowestRun (n lim : Nat) : Nat → List (Nat × Nat) → Option Nat
  | cur, [] => if cur + n ≤ lim then some cur else none
  | cur, (a, k) :: r => if cur + n ≤ a ∧ cur + n ≤ lim then some cur else lowestRun n lim (max cur (a + k)) r

/-- The lowest free run of extents that holds `n` (R303), given the slots whose extents count. -/
def State.freeRun (s : State) (used : List (Nat × Nat)) (n : Nat) : Option Nat :=
  lowestRun n s.regionBounds.2 s.regionBounds.1 (sortBy (fun a b => decide (a.1 < b.1)) used)

/-- No slot is seated: MDL_SEATED.VALID reads 0, and no wing shows a seated slot's table set (R327, R356). -/
def State.unseat (s : State) : State := (List.range 4).foldl (fun s w => s.wr CMP_SET.LOADED 0 w) { s with seated := none }

/-- Entry to EVICTED: the extents are free and LAST_CODE is written; a class 0x02 code is logged once (R312, R530). The fields that no
rule says change are kept (DEDUCED, notes/assumptions/8.md). -/
def State.evictSlot (s : State) (n : Nat) (code : Code) : State :=
  let s := s.updSlot n fun m =>
    { m with st := .evicted, base := 0, extents := 0, repl := none, lastCode := code, manifest := [], done := [], failedOnce := [],
             bad := [], image := none, report := none, reports := [], recheckFirst := [], checkedAt := [], noCopy := false, tried := [] }
  let s := if s.seated = some n then s.unseat else s
  if Err.cls code = 0x02 then s.logErr (s.mkErr code sevInfo nodeNone) else s

end Sys2Proof.Machine
end

