-- ==== Sys2Proof/Machine/Kv.lean ====
section
/-!
DEFINITION. The KV pool and the page tables (R170 to R179), and the loft's units (R193 to R199), as operations that every package
performs alike. Where the spec says frames are taken in the same order everywhere and does not say which, the lowest-numbered free frame,
piece or unit is taken (DESIGN CHOICE, notes/assumptions/9.md).
-/
namespace Sys2Proof.Machine

/-- Bytes of a frame, a page and a loft unit (R170). -/
def frameBytes : Nat := 65536

/-- First frame of the pool and the frame after its last. -/
def State.pool (s : State) : Nat × Nat :=
  (s.rd SEQ_KV_BASE.FIRST_FRAME, s.rd SEQ_KV_BASE.FIRST_FRAME + s.rd SEQ_KV_SIZE.FRAMES)

/-- Insert into an ascending list without repeats. -/
def insertNat (x : Nat) : List Nat → List Nat
  | [] => [x]
  | y :: ys => if x < y then x :: y :: ys else if x = y then y :: ys else y :: insertNat x ys

/-- Free frames of the pool: neither allocated nor reserved (R178). -/
def State.kvFree (s : State) : Nat := s.rd SEQ_KV_SIZE.FRAMES - s.kv.frames.length

/-- The lowest free run of `n` frames. -/
def State.freeFrames (s : State) (n : Nat) : Option Nat := lowestRun n s.pool.2 s.pool.1 (s.kv.frames.map fun f => (f, 1))

/-- A whole-frame write takes its lines off the bad-line list and marks their rows (R365, R366, R368). -/
def State.frameWritten (s : State) (f : Nat) : State :=
  let mine (l : Nat) : Bool := decide (l / (frameBytes / 64) = f)
  let s := (s.cel.badLines.filter mine).foldl (fun s l => s.markRow l) s
  { s with cel := { s.cel with badLines := s.cel.badLines.filter fun l => !mine l } }

/-- Fill a frame with zero packs (R172, R31). -/
def State.zeroFrame (s : State) (f : Nat) : State :=
  { s with cellar := Memory.zeroPacks s.cellar (f * frameBytes) frameBytes }.frameWritten f

/-- Clear a frame of directories to zero (R176). -/
def State.clearFrame (s : State) (f : Nat) : State :=
  { s with cellar := Memory.zero s.cellar (f * frameBytes) frameBytes }.frameWritten f

/-- Take the lowest free run of `n` frames. -/
def State.takeFrames (s : State) (n : Nat) : Option (List Nat × State) :=
  (s.freeFrames n).map fun f =>
    let fs := (List.range n).map (f + ·)
    (fs, s.updKv fun k => { k with frames := fs.foldl (fun l x => insertNat x l) k.frames })

/-- Free frames. -/
def State.dropFrames (s : State) (fs : List Nat) : State :=
  s.updKv fun k => { k with frames := k.frames.filter fun f => !fs.contains f }

/-- The lowest free piece of the frames already cut, if any. -/
def State.freePiece (s : State) : Option Nat :=
  s.kv.pieceFrames.findSome? fun f => (List.range 16).findSome? fun k => if s.kv.pieces.contains (16 * f + k) then none else some (16 * f + k)

/-- Take a piece, cutting the lowest free frame when no cut frame has one left (R176). -/
def State.takePiece (s : State) : Option (Nat × State) :=
  match s.freePiece with
  | some p => some (p, s.updKv fun k => { k with pieces := insertNat p k.pieces })
  | none =>
    match s.takeFrames 1 with
    | some ([f], s) => some (16 * f, s.updKv fun k => { k with pieceFrames := insertNat f k.pieceFrames, pieces := insertNat (16 * f) k.pieces })
    | _ => none

/-- Free a piece, and its frame when it was the frame's last (R176). -/
def State.dropPiece (s : State) (p : Nat) : State :=
  let f := p / 16
  let s := s.updKv fun k => { k with pieces := k.pieces.filter (· ≠ p) }
  if s.kv.pieces.any fun q => decide (q / 16 = f) then s
  else (s.updKv fun k => { k with pieceFrames := k.pieceFrames.filter (· ≠ f) }).dropFrames [f]

/-- The pages that `n` tokens from position `p0` take a chain into: page p is new when some token lies at position 64p (R177). -/
def newPages (p0 n : Nat) : List Nat := (List.range (ceilDiv (p0 + n) 64 - ceilDiv p0 64)).map (ceilDiv p0 64 + ·)

/-- Frames that `n` tokens of a sequence at position `p0` need, with `cn` chains and `spare` free pieces: one for each new page of each
chain, and those for the new chunks (R177, R178). -/
def framesNeeded (cn p0 n spare : Nat) : Nat :=
  let ps := newPages p0 n
  let chunks := cn * (ps.filter fun p => decide (p % 512 = 0)).length
  cn * ps.length + ceilDiv (chunks - spare) 16

/-- Pieces free in the frames already cut. -/
def State.sparePieces (s : State) : Nat := 16 * s.kv.pieceFrames.length - s.kv.pieces.length

/-- The largest number of tokens, at most `n`, whose pages and chunks the pool can hold (R178). -/
def State.kvFit (s : State) (e n : Nat) : Nat :=
  let cn := s.chainCount (s.seq e).slot
  let p0 := (s.seq e).position
  let ok (k : Nat) : Bool := decide (framesNeeded cn p0 k s.sparePieces ≤ s.kvFree)
  if ok n then n else
    -- the need changes only where a page begins, so the bound lies just below a page's first position
    ((newPages p0 n).reverse.findSome? fun p => if ok (64 * p - p0) then some (64 * p - p0) else none).getD 0

/-- Reserve one page of one chain, with its chunk when the page opens one (R177, R178): the frame is zero-filled (R172). -/
def State.reservePage (s : State) (e c p : Nat) : State :=
  let s := if p % 512 = 0 then
      match s.takePiece with
      | some (q, s) =>
        (s.updKv fun k => { k with reservedPieces := k.reservedPieces ++ [(e, c, p / 512, q)] }).celWrite (4096 * q) (List.replicate 4096 0)
      | none => s
    else s
  match s.takeFrames 1 with
  | some ([f], s) => (s.updKv fun k => { k with reservedPages := k.reservedPages ++ [(e, c, p, f)] }).zeroFrame f
  | _ => s

/-- Reserve what `n` tokens of sequence `e` need, page by page and within a page chain by chain. -/
def State.reserveTokens (s : State) (e n : Nat) : State :=
  let cn := s.chainCount (s.seq e).slot
  (newPages (s.seq e).position n).foldl (fun s p => (List.range cn).foldl (fun s c => s.reservePage e c p) s) s

/-- Allocate the reserved pages and chunks of sequence `e` into its page tables (R177). -/
def State.commitPages (s : State) (e : Nat) : State :=
  let ps := s.kv.reservedPages.filter fun r => decide (r.1 = e)
  let qs := s.kv.reservedPieces.filter fun r => decide (r.1 = e)
  let s := s.updSeqKv e fun k =>
    { k with pages := ps.foldl (fun m r => SMap.set none m (16384 * r.2.1 + r.2.2.1) (some { fill := 0, frame := r.2.2.2, crc := 0 })) k.pages,
             pieces := qs.foldl (fun m r => SMap.set none m (32 * r.2.1 + r.2.2.1) (some r.2.2.2)) k.pieces }
  s.updKv fun k => { k with reservedPages := k.reservedPages.filter fun r => decide (r.1 ≠ e),
                            reservedPieces := k.reservedPieces.filter fun r => decide (r.1 ≠ e) }

/-- Return every reservation to the pool. -/
def State.dropReserved (s : State) : State :=
  let fs := s.kv.reservedPages.map (·.2.2.2)
  let qs := s.kv.reservedPieces.map (·.2.2.2)
  let s := s.updKv fun k => { k with reservedPages := [], reservedPieces := [] }
  qs.foldl (fun s q => s.dropPiece q) (s.dropFrames fs)

/-- Write FILL of every page of a sequence for positions up to `pos` (R177). -/
def State.writeFill (s : State) (e pos : Nat) : State :=
  s.updSeqKv e fun k =>
    { k with pages := k.pages.map fun r =>
        (r.1, r.2.map fun pe => { pe with fill := min 64 (pos - 64 * (r.1 % 16384)) }) }

/-- The frames that a sequence's page-table entries name, in entry order; empty while they name loft units. -/
def State.pageFrames (s : State) (e : Nat) : List Nat := (s.kvOf e).pages.filterMap fun r => r.2.map (·.frame)

/-- Free every frame, chunk, directory, prompt frame and loft unit of a sequence (R238, R196). -/
def State.freeKv (s : State) (e : Nat) : State :=
  let k := s.kvOf e
  let mv := s.kv.moves.filter fun m => decide (m.seq = e)
  let frames := if s.kv.inLoft.contains e then [] else s.pageFrames e
  let units := mv.flatMap (·.units) ++ (if s.kv.inLoft.contains e then s.pageFrames e else [])
  let s := s.dropFrames (frames ++ k.dir ++ k.prompt ++ mv.flatMap (·.frames))
  let s := (k.pieces.filterMap (·.2)).foldl (fun s q => s.dropPiece q) s
  s.updKv fun v =>
    { v with seqs := SMap.set SeqKv.none v.seqs e SeqKv.none, loftUnits := v.loftUnits.filter fun u => !units.contains u,
             moves := v.moves.filter fun m => decide (m.seq ≠ e), inLoft := v.inLoft.filter fun x => decide (x ≠ e),
             slots := v.slots.filter fun r => decide (r.2.2.1 ≠ e) }

/-- The lowest `n` free loft units, when so many are free. -/
def State.takeUnits (s : State) (n : Nat) : Option (List Nat × State) :=
  let size := s.rd SEQ_LOFT_SIZE.UNITS
  if s.kv.loftUnits.length + n ≤ size then
    let us := (List.range n).foldl (fun (acc : List Nat × List Nat) _ =>
      match lowestRun 1 size 0 (acc.2.map fun u => (u, 1)) with
      | some u => (acc.1 ++ [u], insertNat u acc.2)
      | none => acc) ([], s.kv.loftUnits)
    some (us.1, s.updKv fun k => { k with loftUnits := us.2 })
  else none

/-- Free loft units. -/
def State.dropUnits (s : State) (us : List Nat) : State :=
  s.updKv fun k => { k with loftUnits := k.loftUnits.filter fun u => !us.contains u }

/-- The bytes of a frame. -/
def State.frameImage (s : State) (f : Nat) : Bytes := s.celSafe (f * frameBytes) frameBytes

/-- Directory word of a chunk (R174). -/
def dirWord : Option Nat → Nat
  | some p => 2 ^ 63 + p % 2 ^ 28
  | none => 0

/-- Page-table entry (R175). -/
def pageWord : Option PageEnt → Nat
  | some p => p.crc.toNat * 2 ^ 32 + 2 ^ 31 + p.fill % 128 * 2 ^ 24 + p.frame % 2 ^ 24
  | none => 0

/-- The word of a page table at a cellar address, when the address lies in a directory or a chunk (R174, R175): its sequence, whether it is a
directory word, and its index. -/
def State.tablePlace (s : State) (a : Nat) : Option (Nat × Bool × Nat) :=
  s.kv.seqs.findSome? fun r =>
    match r.2.dir.head? with
    | some d =>
      if d * frameBytes ≤ a ∧ a < d * frameBytes + r.2.dir.length * frameBytes then some (r.1, true, (a - d * frameBytes) / 8)
      else
        r.2.pieces.findSome? fun q =>
          match q.2 with
          | some p =>
            if 4096 * p ≤ a ∧ a < 4096 * p + 4096 then some (r.1, false, 16384 * (q.1 / 32) + 512 * (q.1 % 32) + (a - 4096 * p) / 8) else none
          | none => none
    | none => none

/-- What a directory word and a page-table entry say (R174, R175). -/
def dirOf (v : Nat) : Option Nat := if 2 ^ 63 ≤ v then some (v % 2 ^ 28) else none
def pageOf (v : Nat) : Option PageEnt :=
  if v / 2 ^ 31 % 2 = 1 then some { fill := v / 2 ^ 24 % 128, frame := v % 2 ^ 24, crc := BitVec.ofNat 32 (v / 2 ^ 32) } else none

/-- The byte of a sequence's directory or chunk at a cellar address, when the address lies in one (R174, R175): that of the word last stored there,
where it still says what the table holds, bits that mean nothing included (R176). -/
def State.tableByte (s : State) (a : Nat) : Option Byte :=
  (s.tablePlace a).map fun (e, dir, i) =>
    let raw := leNat (Memory.read s.cellar (a - a % 8) 8)
    let w := if dir then
        let p := SMap.get none (s.kvOf e).pieces i
        if dirOf raw = p then raw else dirWord p
      else
        let p := SMap.get none (s.kvOf e).pages i
        if pageOf raw = p then raw else pageWord p
    BitVec.ofNat 8 (w / 256 ^ (a % 8))

/-- A word stored by a core at a cellar address: in a directory or a chunk the page table says what was stored, since no such store is refused
(R176) (DESIGN CHOICE, notes/assumptions/18.md). -/
def State.tableStore (s : State) (a v : Nat) : State :=
  match s.tablePlace a with
  | none => s
  | some (e, dir, i) =>
    { s with cellar := Memory.write s.cellar a (leBytes 8 v) }.updSeqKv e fun k =>
      if dir then { k with pieces := SMap.set none k.pieces i (dirOf v) } else { k with pages := SMap.set none k.pages i (pageOf v) }

/-! The page walk (R182 to R185). -/

/-- A page that the walk emits (R182, R183): its chain, its sequence with the positions of the step, its page, and its owner core. -/
structure Visit where
  chain : Nat
  ch : Chain
  e : Nat
  first : Nat
  last : Nat
  page : Nat
  core : Nat

/-- The frame of a page: its table entry's, or the one reserved for the step (R178). -/
def State.pageFrame (s : State) (e c p : Nat) : Nat :=
  match SMap.get none (s.kvOf e).pages (16384 * c + p) with
  | some x => x.frame
  | none =>
    ((s.kv.reservedPages.find? fun r => decide (r.1 = e) && decide (r.2.1 = c) && decide (r.2.2.1 = p)).map (·.2.2.2)).getD 0

/-- The owner core of span `n` of a sequence's chain (R182). -/
def Chain.spanOwner (c : Chain) (e n : Nat) : Nat := c.owners.getD ((e + n) % c.owners.length) 0

/-- Every page of the step, by ascending chain, sequence index and page (R182, R183, R185). -/
def State.visits (s : State) : List Visit :=
  let cs := s.chains s.step.modelSlot
  ((List.range cs.length).zip cs).flatMap fun (n, c) =>
    s.step.items.flatMap fun i =>
      let last := i.firstPos + i.tokens - 1
      (List.range (last / 64 + 1)).map fun p =>
        { chain := n, ch := c, e := i.index, first := i.firstPos, last := last, page := p, core := c.spanOwner i.index (p / c.span) }

end Sys2Proof.Machine
end

