-- ==== Sys2Proof/Machine/Program.lean ====
section
/-!
DEFINITION. Putting a program into the cores (R139 to R143, R328) and a version's table set into the wings (R341 to R345).
-/
namespace Sys2Proof.Machine

/-- The table set of a slot (R340): the first 4 KiB of its WEIGHTS object of lowest index whose PAIR is 0xFF; none when it has none. -/
def State.tableSet (s : State) (n : Nat) : Option Bytes :=
  ((s.slotObjs n).find? fun e => decide (e.2.kind = 1) && decide (e.2.pair = 0xFF)).map fun e =>
    s.celSafe (s.slotBase n + e.2.off) 4096

/-- Entries of a table set: (SLOT, GENERATION, code lengths) (R341). -/
def setEntries (t : Bytes) : List (Nat × Nat × List Nat) :=
  (List.range (min (fieldAt t 4 1) 16)).map fun i =>
    let e := (t.drop (0x40 + 160 * i)).take 160
    (fieldAt e 0 1 % 16, fieldAt e 1 1, (e.drop 0x20).flatMap fun b => [b.toNat % 16, b.toNat / 16])

/-- Whether a table set keeps R341 and those checks of R342 that need no other slot (DEDUCED, notes/assumptions/125.md). -/
def setOk (t : Bytes) : Bool :=
  let n := fieldAt t 4 1
  let es := setEntries t
  decide (fieldAt t 0 4 = 0x54424C53) && decide (n ≤ 16) && zeroRange t 5 59 && zeroRange t (0x40 + 160 * n) (4096 - (0x40 + 160 * n)) &&
    ((List.range n).all fun i => decide (fieldAt t (0x40 + 160 * i) 1 < 16) && zeroRange t (0x42 + 160 * i) 30) && allDistinct (es.map (·.1)) &&
    es.all fun e => e.2.2.any (fun l => decide (l ≠ 0)) && decide ((e.2.2.map fun l => if l = 0 then 0 else 2 ^ (15 - l)).sum ≤ 2 ^ 15)

/-- Whether slot `k` is LOADING, VERIFYING, READY or DRAINING and its table set has arrived here. -/
def State.setHere (s : State) (k : Nat) : Bool :=
  match (s.slot k).st with
  | .verifying | .ready | .draining => true
  | .loadShards => ((s.slotObjs k).find? fun e => decide (e.2.kind = 1) && decide (e.2.pair = 0xFF)).any fun e => (s.slot k).done.contains e.2.first
  | _ => false

/-- Whether the table set of slot `n`, which is being verified, keeps R342: its own checks, and no clash with another slot's set (DEDUCED,
notes/assumptions/125.md). -/
def State.tablesOk (s : State) (n : Nat) : Bool :=
  match s.tableSet n with
  | none => true
  | some t =>
    setOk t && (List.range 64).all fun k =>
      decide (k = n) || !s.setHere k || (((s.tableSet k).map setEntries).getD []).all fun e =>
        (setEntries t).all fun f => !(decide (e.1 = f.1) && decide (e.2.1 = f.2.1)) || decide (e.2.2 = f.2.2)

/-- Load a table into a slot of a wing, or leave it pending while the slot's reference count is nonzero (R344). A slot already VALID with
the same GENERATION is left (R345). -/
def WingSt.loadTable (w : WingSt) (n gen : Nat) (lens : List Nat) : WingSt :=
  let t := SMap.get TableSlot.reset w.tables n
  if t.valid ∧ t.gen = gen then w
  else if t.inflight = 0 then
    { w with tables := SMap.set TableSlot.reset w.tables n { valid := true, gen := gen, lens := lens, inflight := 0, pend := none } }
  else { w with tables := SMap.set TableSlot.reset w.tables n { t with pend := some (gen, lens) } }

/-- CMP_SET.LOADED of a wing: 1 once no load of the seated set waits for its slot (R356). -/
def State.showTables (s : State) (w : Nat) : State :=
  s.wr CMP_SET.LOADED (if (s.wing w).tables.any (fun t => t.2.pend.isSome) then 0 else 1) w

/-- The stewards of the four wings load the table set of a slot (R345), shown in CMP_SET. -/
def State.loadTables (s : State) (n : Nat) : State :=
  let es := ((s.tableSet n).map setEntries).getD []
  (List.range 4).foldl (fun s w =>
    let s := s.updWing w fun wg => es.foldl (fun wg e => wg.loadTable e.1 e.2.1 e.2.2) wg
    (s.wr CMP_SET.MODEL_SLOT n w).showTables w) s

/-- The object index of a slot's current image: the last PROGRAM_LOAD's, or its PROGRAM object of lowest index (R328). -/
def State.currentImage (s : State) (n : Nat) : Option Nat :=
  match (s.slot n).image with
  | some i => some i
  | none => ((s.slotObjs n).find? fun e => decide (e.2.kind = 2)).map (·.1)

/-- The bytes of an image object. -/
def State.imageBytes (s : State) (n i : Nat) : Bytes := s.objBytes n (manObj (s.slot n).manifest i)

/-- The image the cores hold: that of the seated slot. -/
def State.seatedImage (s : State) : Option Bytes :=
  match s.seated with
  | some n => (s.currentImage n).map (s.imageBytes n)
  | none => none

/-- The cores that an image's segments cover. -/
def imgCores (b : Bytes) : List Nat := (imgSegs b).flatMap fun g => rectCores g.x0 g.y0 g.x1 g.y1

/-- START the contexts of a core at an image's entries; 0xFFFF_FFFF leaves a context HALTED (R139, R142). -/
def Core.startImage (k : Core) (b : Bytes) : Core :=
  (List.range 8).foldl (fun k x => if imgEntry b x = 0xFFFFFFFF then k else k.startCtx x (imgEntry b x)) k

/-- START every context of every core that an image covers (R142). -/
def State.startImage (s : State) (b : Bytes) : State :=
  (imgCores b).foldl (fun s c => s.updCore c fun k => k.startImage b) s

/-- START every context afresh at the seated image's entries, or leave the cores HALTED (R73, R142). -/
def State.startSeated (s : State) : State :=
  match s.seatedImage with
  | some b => s.startImage b
  | none => s

/-- Write the segments of an image into the cores and set the barriers from it (R142, R131). -/
def State.writeImage (s : State) (b : Bytes) : State :=
  let s := (imgSegs b).foldl (fun s g =>
    let src := (b.drop g.src).take g.len
    (rectCores g.x0 g.y0 g.x1 g.y1).foldl (fun s c => s.updCore c fun k => { k with imem := Memory.write k.imem g.imem src }) s) s
  { s with barriers := (imgBars b).foldl (fun m e => SMap.set Barrier.reset m e.1 { Barrier.reset with count := e.2 }) [] }

/-- Steps 3 and 4 of R142 for a slot's image object, with the table set loaded between steps 2 and 3 (R345): the slot is seated and the
local-store slot record is void (R192). -/
def State.seat (s : State) (n i : Nat) : State :=
  let s := s.loadTables n
  let b := s.imageBytes n i
  let s := (s.writeImage b).updSlotRaw n fun m => { m with image := some i }
  let s := { s with seated := some n }
  (s.updKv fun k => { k with slots := [] }).startImage b

end Sys2Proof.Machine
end

