-- ==== Sys2Proof/Machine/SeqTable.lean ====
section
/-!
DEFINITION. The sequence table (R233 to R242): an entry's bytes, handles, and the state changes of R239 with what each frees and reports;
and the client accounts (R261 to R264).
-/
namespace Sys2Proof.Machine

/-- The state code of an entry (R238). -/
def SeqState.code : SeqState → Nat
  | .free => 0
  | .queued => 1
  | .prefill => 2
  | .decode => 3
  | .paused => 4
  | .expired => 5
  | .errored => 6

/-- The 128 bytes of an entry (R236). -/
def SeqEntry.bytes (e : SeqEntry) : Bytes :=
  leBytes 1 e.st.code ++ leBytes 1 (e.prio % 8 * 32 + e.part % 16) ++ leBytes 1 e.home.toNat ++ leBytes 1 (e.cls % 16) ++
    leBytes 2 e.gen ++ leBytes 2 (e.client % 4096) ++ leBytes 1 e.slot ++ leBytes 1 e.topK ++ leBytes 1 e.lastSkip ++
    leBytes 1 ((if e.inLast then 4 else 0) + (if e.moving then 2 else 0) + (if e.promptReady then 1 else 0)) ++
    leBytes 4 e.promptLen ++ leBytes 4 e.position ++ leBytes 4 e.maxNew ++ leBytes 4 e.generated ++ leBytes 4 e.stopToken.toNat ++
    leBytes 4 e.lastToken.toNat ++ leBytes 4 (e.dirFrame % 2 ^ 24) ++ leBytes 4 e.temperature.toNat ++ leBytes 4 e.topP.toNat ++
    leBytes 8 e.key.toNat ++ leBytes 8 e.counter.toNat ++ leBytes 8 e.userTag.toNat ++ leBytes 8 e.admitTime ++ leBytes 8 e.lastStep ++
    leBytes 8 e.ttlEnd ++ leBytes 8 e.promptAddr ++ leBytes 8 e.waitFrom ++ leBytes 2 e.errorCode.toNat ++ List.replicate 14 0

/-- The byte of the sequence table at a cellar address, when the address lies in the table (R233, R236). -/
def State.seqTableByte (s : State) (a : Nat) : Option Byte :=
  let base := s.rd SEQ_TABLE_BASE.FRAME * frameBytes
  if s.table ≠ [] ∧ base ≤ a ∧ a < base + 0x800000 then ((s.seq ((a - base) / 128)).bytes)[(a - base) % 128]? else none

/-- The handle of an entry (R234). -/
def State.handle (s : State) (e : Nat) : Word := BitVec.ofNat 32 ((s.seq e).gen * 65536 + e)

/-- The index a handle names for a partition of a home: none where R234 answers NO_SEQUENCE. -/
def State.lookup (s : State) (home : PkgId) (part : Nat) (h : Nat) : Option Nat :=
  let e := h % 65536
  let q := s.seq e
  if q.st ≠ .free ∧ q.gen = h / 65536 ∧ q.part = part ∧ q.home = home then some e else none

/-- Indices of entries that are not FREE, ascending. -/
def State.liveSeqs (s : State) : List Nat := (s.table.filter fun r => decide (r.2.st ≠ .free)).map (·.1)

/-- Entries of a partition of a home. -/
def State.partLive (s : State) (home : PkgId) (part : Nat) : Nat :=
  (s.table.filter fun r => decide (r.2.st ≠ .free) && decide (r.2.part = part) && decide (r.2.home = home)).length

/-- The lowest-numbered FREE entry (R235). -/
def State.freeEntry (s : State) : Option Nat :=
  lowestRun 1 65536 0 (s.liveSeqs.map fun e => (e, 1))

/-- Key of a client: (home, client) (R261). -/
def clientKey (home : PkgId) (client : Nat) : Nat := 4096 * home.toNat + client % 4096

/-- The client of an entry. -/
def SeqEntry.clientKey (e : SeqEntry) : Nat := Machine.clientKey e.home e.client

/-- Add to counter `m` of a client, kept at the home alone; each stops at its largest value (R264). -/
def State.account (s : State) (home : PkgId) (client m n : Nat) : State :=
  if home = s.me then
    s.updClient (clientKey home client) fun k =>
      { k with acct := k.acct.set m (min (k.acct.getD m 0 + n) (2 ^ 64 - 1)) }
  else s

/-- A RESULT entry (R286). -/
def resultEntry (op : Nat) (code : Code) (handle stamp : Word) (flags : Nat) (tag : DWord) (step detail : Nat) : ResEntry :=
  { kind := 2, a := BitVec.ofNat 8 op, code := code, handle := handle, x := stamp, y := BitVec.ofNat 32 flags, tag := tag,
    stepLo := BitVec.ofNat 32 step, z := BitVec.ofNat 32 detail }

/-- Flags of a RESULT (R286). -/
def flagClamped : Nat := 1
def flagLoftFull : Nat := 2
def flagRetry : Nat := 4
def flagUnreachable : Nat := 8

/-- Keep a deferred entry (R296): the home as its own state, its partner in case the home is lost (R298). -/
def State.defer (s : State) (home : PkgId) (part seq : Nat) (e : ResEntry) : State :=
  let d : Deferred := { part := BitVec.toFin (BitVec.ofNat 4 part), seq := seq, entry := e }
  if home = s.me then { s with deferred := s.deferred ++ [d] }
  else if home = s.partner then s.updPair fun p => { p with partnerDeferred := p.partnerDeferred ++ [d] }
  else s

/-- The final RESULT of a RESUME that awaits one (R297), deferred at its home; the record of the RESUME ends, and the frames of a copy
back that has not completed are freed (DEDUCED, notes/assumptions/79.md). -/
def State.finishResume (s : State) (e : Nat) (code : Code) : State :=
  let rs := s.kv.resumes.filter fun r => decide (r.seq = e)
  let s := s.updKv fun k => { k with resumes := k.resumes.filter fun r => decide (r.seq ≠ e) }
  let s := s.dropFrames (rs.flatMap fun r => match r.st with | .copying fs => fs | _ => [])
  rs.foldl (fun s r => s.defer (s.seq e).home r.part e (resultEntry 0x04 code (s.handle e) r.stamp 0 r.tag s.step.id 0)) s

/-- To FREE: everything the sequence owns is freed and GENERATION increases (R235, R238). -/
def State.toFree (s : State) (e : Nat) : State :=
  let s := { s.finishResume e Err.NO_SEQUENCE with promptReady := s.promptReady.filter (· ≠ e) }
  (s.freeKv e).updSeq e fun q => { SeqEntry.blank with gen := (q.gen + 1) % 65536 }

/-- The EVENT entry of a sequence that becomes EXPIRED or ERRORED (R286, R296). -/
def State.deferEvent (s : State) (e : Nat) (state : Nat) (code : Code) : State :=
  let q := s.seq e
  s.defer q.home q.part e { kind := 3, a := BitVec.ofNat 8 state, code := code, handle := s.handle e, x := 0, y := 0, tag := q.userTag,
                            stepLo := BitVec.ofNat 32 s.step.id, z := 0 }

/-- To ERRORED with a code (R239). -/
def State.toErrored (s : State) (e : Nat) (code : Code) : State :=
  if (s.seq e).st.counts then
    let s := s.finishResume e (if code = Err.LOFT_CHECK then code else Err.ERRORED)
    let s := (s.freeKv e).updSeq e fun q =>
      { q with st := .errored, errorCode := code, moving := false, promptReady := false, ttlEnd := 0, dirFrame := 0, promptAddr := 0 }
    s.deferEvent e 6 code
  else s

/-- Whether a copy back of the sequence has begun, at item 2 of R197: it then no longer expires (R196). -/
def State.copyBegun (s : State) (e : Nat) : Bool :=
  s.kv.resumes.any fun r => decide (r.seq = e) && (match r.st with | .short => false | _ => true)

/-- To EXPIRED (R196). -/
def State.toExpired (s : State) (e : Nat) : State :=
  let s := s.finishResume e Err.EXPIRED
  let s := (s.freeKv e).updSeq e fun q => { q with st := .expired, moving := false, ttlEnd := 0, dirFrame := 0, promptAddr := 0 }
  let s := s.deferEvent e 5 Err.EXPIRED
  (s.bump SEQ_LOFT_STS.EXPIRED).raiseIrq .seq 0 2

/-- Expiry at a rack time: every paused sequence whose time to live has ended and whose copy back has not begun (R196). -/
def State.expire (s : State) (t : Nat) : State :=
  s.liveSeqs.foldl (fun s e =>
    let q := s.seq e
    if q.st = .paused ∧ q.ttlEnd ≤ t ∧ !s.copyBegun e then s.toExpired e else s) s

/-- The state a resumed sequence takes (R239). -/
def SeqEntry.resumed (q : SeqEntry) : SeqState :=
  if q.position = 0 then .queued else if q.position < q.promptLen then .prefill else .decode

/-- End reason of a token (R242, R286): 2 STOP, 1 MAX_NEW, 3 LENGTH, 0 none, judged after the entry has been advanced. -/
def SeqEntry.endReason (q : SeqEntry) : Nat :=
  if q.lastToken = q.stopToken ∧ q.stopToken ≠ 0xFFFFFFFF then 2
  else if q.maxNew ≤ q.generated then 1
  else if 1048576 ≤ q.position then 3
  else 0

end Sys2Proof.Machine
end

