-- ==== Sys2Proof/Machine/WorkList.lean ====
section
/-!
DEFINITION. The work list (R247 to R259): candidates, the three passes, the list's bytes and its check.
-/
namespace Sys2Proof.Machine

/-- Pairs of the household. -/
def State.pairs (s : State) : Nat := s.pair.members.length / 2

/-- Members serving: those not lost. -/
def State.serving (s : State) : List PkgId := s.pair.members.filter fun p => !s.pair.lost.contains p

/-- The pair number of a member. -/
def State.pairOf (s : State) (p : PkgId) : Nat := ((s.pair.pairNums.find? fun e => decide (e.1 = p)).map (·.2)).getD 0

/-- The leading member of a pair: the serving member of lowest slot (R247). -/
def State.leading (s : State) (pair : Nat) : Option PkgId :=
  (sortBy (fun a b => decide (a.toNat < b.toNat)) (s.serving.filter fun p => decide (s.pairOf p = pair))).head?

/-- The step leader (R247). -/
def State.leader (s : State) : PkgId := (s.leading (s.rd SEQ_HH_CTL.LEADER_PAIR)).getD s.me

/-- Tokens that the dispatch and combine slots of a step's expert layers allow (R215); none when the slot has no expert layer. -/
def State.exBound (s : State) (slot : Nat) : Option Nat :=
  match s.slotObj slot 5 with
  | none => none
  | some m =>
    (exAll m).foldl (fun b l =>
      let q := min ((exDSlot m - 4096) / (l.k * 64 * l.rowPacks)) (exCSlot m / (l.k * 2 * (112 * l.rowPacks)))
      let t := 2 * (q * s.pairs)
      some (match b with | some x => min x t | none => t)) none

/-- The capacity cap of a step (R250). -/
def State.capOf (s : State) (slot : Nat) : Nat :=
  match s.exBound slot with
  | some b => min (s.rd SEQ_STEP_LIMIT.TOKENS) b
  | none => s.rd SEQ_STEP_LIMIT.TOKENS

/-- The time of the latest start of mantel slot `n` at or before `t`, if any (R257). -/
def mantelStart (n t : Nat) : Option Nat := if 156250 * n ≤ t then some ((t - 156250 * n) / 10000000 * 10000000 + 156250 * n) else none

/-- The valid mantel slots due at a boundary at `t` after one at `t0`, in slot order (R258). -/
def State.dueSlots (s : State) (t0 t : Nat) : List Nat :=
  (List.range 64).filter fun n =>
    s.on SEQ_MANTELn.VALID 0 n && (match mantelStart n t with | some x => decide (t0 < x) | none => false)

/-- Whether mantel slot `n` owns an entry (R259). -/
def State.owns (s : State) (n : Nat) (q : SeqEntry) : Bool :=
  if s.on SEQ_MANTELn.KIND 0 n then decide (q.cls = s.rd SEQ_MANTELn.OWNER 0 n) else decide (q.part = s.rd SEQ_MANTELn.OWNER 0 n)

/-- Whether an entry is a candidate (R248) (DEDUCED, notes/assumptions/85.md). -/
def SeqEntry.candidate (q : SeqEntry) : Bool :=
  !q.moving && (match q.st with
    | .decode => true
    | .queued | .prefill => q.promptReady
    | _ => false)

/-- Candidate order (R248). -/
def candLt (a b : Nat × SeqEntry) : Bool :=
  if a.2.prio ≠ b.2.prio then decide (b.2.prio < a.2.prio)
  else if a.2.lastStep ≠ b.2.lastStep then decide (a.2.lastStep < b.2.lastStep)
  else decide (a.1 < b.1)

/-- The candidates in candidate order. -/
def State.candidates (s : State) : List (Nat × SeqEntry) := sortBy candLt (s.table.filter fun r => r.2.candidate)

/-- The reasons of R253, R290 and R330. -/
def skipBudget : Nat := 1
def skipNoKv : Nat := 2
def skipCapacity : Nat := 3
def skipPreempted : Nat := 4
def skipVersion : Nat := 5
def skipPrompt : Nat := 6
def skipNot : Nat := 7
def skipHeld : Nat := 8
def skipRepair : Nat := 9

/-- A list in the making: the state whose pool and credits it draws on, the items, T, and the room of each (home, partition). -/
structure Build where
  s : State
  items : List Item
  t : Nat
  rooms : List (PkgId × List Nat)
  skips : List (Nat × Nat)

/-- Room of a partition of a home (R290). -/
def roomOf (rooms : List (PkgId × List Nat)) (home : PkgId) (part : Nat) : Nat :=
  ((rooms.find? fun e => decide (e.1 = home)).map fun e => e.2.getD part 0).getD 0

/-- Take one from the room of a partition of a home. -/
def takeRoom (rooms : List (PkgId × List Nat)) (home : PkgId) (part : Nat) : List (PkgId × List Nat) :=
  mapWhere (fun e => decide (e.1 = home)) (fun e => (e.1, e.2.set part (e.2.getD part 0 - 1))) rooms

/-- CREDIT in nanotokens (R262). -/
def Client.credit (c : Client) : Nat := c.burst * 1000000000 - c.owed

/-- Whether a client is unlimited (R262). -/
def Client.unlimited (c : Client) : Bool := decide (c.rate = 0xFFFFF)

/-- Tokens a candidate wants in a room; the target binds a MIXED piece when it is honoured (R251). -/
def State.want (s : State) (q : SeqEntry) (room cap t : Nat) (target : Option Nat) : Nat :=
  let left := q.promptLen - q.position
  match q.st with
  | .decode => min 1 room
  | _ =>
    if s.on SEQ_PART_CTLn.MODE 0 q.part then
      let n := min left (min (256 * s.rd SEQ_PART_CTLn.CHUNK 0 q.part) room)
      match target with
      | some g => min n (g - t)
      | none => n
    else
      let w := min left (min 8192 cap)
      if room < w then 0 else w

/-- Record the reason a candidate was left out. -/
def Build.skip (b : Build) (e code : Nat) : Build := { b with skips := (b.skips.filter fun k => decide (k.1 ≠ e)) ++ [(e, code)] }

/-- place(s, n) of R251: the item, or the reason it has none. -/
def Build.place (b : Build) (cap e : Nat) (q : SeqEntry) (n : Nat) (mark : Bool) : Build :=
  let full := if q.inLast then skipPreempted else skipCapacity
  if b.items.any fun i => decide (i.index = e) then b
  else if n = 0 ∨ cap < b.t + n then b.skip e full
  else
    let cl := b.s.client q.clientKey
    let n := if cl.unlimited then n else min n (cl.credit / 1000000000)
    if n = 0 then b.skip e skipBudget
    else
      let n := b.s.kvFit e n
      if n = 0 then b.skip e skipNoKv
      else
        let pre := decide (q.st ≠ .decode)
        let smp := !pre || decide (q.position + n = q.promptLen)
        if smp ∧ roomOf b.rooms q.home q.part = 0 then b.skip e skipHeld
        else
          let s := b.s.reserveTokens e n
          let s := if cl.unlimited then s else s.updClient q.clientKey fun c => { c with owed := c.owed + n * 1000000000 }
          { s := s, t := b.t + n, rooms := if smp then takeRoom b.rooms q.home q.part else b.rooms,
            skips := b.skips.filter fun k => decide (k.1 ≠ e),
            items := b.items ++ [{ index := e, slotMark := mark, sample := smp, prefill := pre, part := q.part, firstPos := q.position,
                                   tokens := n, input := if pre then 0 else q.lastToken }] }

/-- Pass 1 for one due mantel slot: reserved tokens in candidate order (R251). -/
def Build.passSlot (cap : Nat) (cands : List (Nat × SeqEntry)) (b : Build) (n : Nat) : Build :=
  (cands.foldl (fun (acc : Build × Nat) r =>
    let b := acc.1
    if acc.2 = 0 ∨ !b.s.owns n r.2 then acc
    else
      let b' := b.place cap r.1 r.2 (b.s.want r.2 (min acc.2 (cap - b.t)) cap b.t none) true
      (b', acc.2 - (b'.t - b.t))) (b, b.s.rd SEQ_MANTELn.RESERVE 0 n)).1

/-- The three passes (R251). -/
def Build.run (b : Build) (cap target : Nat) (due : List Nat) (cands : List (Nat × SeqEntry)) : Build :=
  let b := due.foldl (Build.passSlot cap cands) b
  let b := (cands.filter fun r => decide (r.2.st = .decode)).foldl (fun b r => b.place cap r.1 r.2 1 false) b
  (cands.filter fun r => decide (r.2.st ≠ .decode)).foldl
    (fun b r => b.place cap r.1 r.2 (b.s.want r.2 (cap - b.t) cap b.t (some target)) false) b

/-- The item's 16 bytes (R254). -/
def Item.bytes (i : Item) : Bytes :=
  leBytes 2 i.index ++ leBytes 1 ((if i.slotMark then 4 else 0) + (if i.sample then 2 else 0) + (if i.prefill then 1 else 0)) ++
    leBytes 1 (i.part % 16) ++ leBytes 4 i.firstPos ++ leBytes 4 i.tokens ++ leBytes 4 i.input.toNat

/-- The 64-byte header with a check value (R254). -/
def listHeader (id t : Nat) (digest : DWord) (items tokens attempt slot : Nat) (leader : PkgId) (check : Nat) : Bytes :=
  leBytes 8 id ++ leBytes 8 t ++ leBytes 8 digest.toNat ++ leBytes 4 items ++ leBytes 4 tokens ++ leBytes 1 attempt ++ leBytes 1 slot ++
    leBytes 1 (t % 10000000 / 156250) ++ leBytes 1 leader.toNat ++ leBytes 4 (if 2 ≤ tokens then ceilDiv tokens 2 else tokens) ++
    leBytes 4 check ++ List.replicate 20 0

/-- LIST_CHECK of the list of the step in progress (R254). -/
def State.listCheck (s : State) : Word :=
  crc32c (listHeader s.step.id s.step.lastBoundary s.step.digest s.step.items.length s.step.tokens s.step.attempt s.step.modelSlot
    s.step.leader 0 ++ s.step.items.flatMap Item.bytes)

/-- The list that the leader broadcasts (R247, R254). -/
def State.header (s : State) : ListHeader :=
  { stepId := BitVec.ofNat 64 s.step.id, time := s.step.lastBoundary, digest := s.step.digest, tokens := s.step.tokens, attempt := s.step.attempt,
    modelSlot := s.step.modelSlot, leader := s.step.leader, check := s.step.check, items := s.step.items }

/-- LAST_SKIP and WAIT_FROM of one entry after a build at `t` (R236, R253). -/
def State.applySkip (s : State) (t : Nat) (placed : Bool) (e code : Nat) : State :=
  let code := if placed then 0 else code
  s.updSeq e fun q => { q with lastSkip := code, waitFrom := if code ≠ 0 ∧ q.lastSkip = 0 then t else q.waitFrom }

/-- The reason of an entry that no pass judged. -/
def SeqEntry.idleSkip (q : SeqEntry) : Nat :=
  if q.moving then skipNot
  else match q.st with
    | .queued => skipPrompt
    | _ => skipNot

/-- Build the list of the step after the boundary at `s.step.lastBoundary` (R243 item 6): the model slot, the passes, the reasons, and
the step as the one in progress. With no item no step is in progress. -/
def State.buildList (s : State) : State :=
  let t := s.step.lastBoundary
  let all := s.candidates
  let cands := all.filter fun r => !(s.slot r.2.slot).noCopy
  let due := s.dueSlots s.step.prevBoundary t
  let first := (due.findSome? fun n => cands.find? fun r => s.owns n r.2).orElse fun _ => cands.head?
  let slot := (first.map fun r => r.2.slot).getD 0
  let cap := s.capOf slot
  let b0 : Build := { s := s, items := [], t := 0, rooms := s.step.rooms, skips := [] }
  let b := b0.run cap (min (s.rd SEQ_TARGET.TOKENS) cap) due (cands.filter fun r => decide (r.2.slot = slot))
  let items := sortBy (fun a c => decide (a.index < c.index)) b.items
  let s := s.liveSeqs.foldl (fun s e =>
    let q := s.seq e
    let code := if q.candidate then
        if (s.slot q.slot).noCopy then skipRepair
        else if q.slot ≠ slot then skipVersion
        else ((b.skips.find? fun k => decide (k.1 = e)).map (·.2)).getD 0
      else q.idleSkip
    s.applySkip t (items.any fun i => decide (i.index = e)) e code) b.s
  let leader := s.leader
  let s := s.updStep fun p =>
    { p with active := decide (items ≠ []), id := if items = [] then p.id else p.id + 1, attempt := 0, items := items, tokens := b.t,
             modelSlot := slot, leader := leader, started := false, headers := [], descs := [], built := false, walked := false, ended := [], routed := [],
             expertKnown := [], partDone := none, mirrorSent := false, mirrorAcked := false, partnerMirror := none, faults := [], seatFailed := false, mirrorFaults := 0, remoteAborts := 0 }
  let s := s.updStep fun p => { p with check := if items = [] then 0 else s.listCheck }
  let s := (s.wr SEQ_STEP_STS.ATTEMPT 0).wr SEQ_STEP_STS.TOKENS b.t
  if items = [] then s
  else if leader = s.me then (s.toOthers fun d => .workList d s.header).updStep fun p => { p with started := true }
  else s

end Sys2Proof.Machine
end

