-- ==== Sys2Proof/Machine/Packets.lean ====
section
/-!
DEFINITION. Packets (R402, R403): the cellar's hash (R361), destination wings, requests, responses and error responses (R401), and what a
member sends on the chimney.
-/
namespace Sys2Proof.Machine

/-- The wing of a target (R402). -/
def targetWing (a : BitVec 64) : Nat :=
  match srfSpace a with
  | 0 => wingOf (srfCore a)
  | 1 => (celHash (srfOff a)).1 % 4
  | 2 =>
    let k := srfOff a / 2 ^ 32
    if k < 8 then k / 2 else k % 4
  | _ => 0

/-- The wing of a node, or the home wing of a hall node (R387). -/
def nodeWing (n : Nat) : Nat :=
  if n < 0x1000 then wingOf n
  else if n < 0x1008 then (n - 0x1000) / 2
  else if n < 0x1018 then n % 4
  else if n < 0x1024 then (n - 0x1018) % 4
  else if n < 0x1028 then n % 4
  else if n = 0x1028 then 2
  else 3

/-- Packet types (R403). -/
def tLOAD : Nat := 0
def tSTORE : Nat := 1
def tATOMIC : Nat := 2
def tMESSAGE : Nat := 3
def tTAKE : Nat := 4
def tBULK_WRITE : Nat := 5
def tBULK_READ : Nat := 6
def tCHIMNEY : Nat := 7
def tDATA : Nat := 8
def tACK : Nat := 9
def tBULK_DATA : Nat := 10
def tERROR : Nat := 11

/-- A request, message or bulk packet of a node of this package. -/
def State.request (s : State) (a : BitVec 64) (type vc node sink length arg : Nat) (payload : Bytes) : Packet :=
  { address := a, vc := BitVec.ofNat 2 vc, type := BitVec.ofNat 4 type, src := s.me, node := BitVec.ofNat 13 node,
    sink := BitVec.ofNat 8 sink, length := BitVec.ofNat 13 length, wing := BitVec.ofNat 2 (targetWing a),
    epoch := BitVec.ofNat 8 s.pair.epoch, arg := BitVec.ofNat 7 arg, payload := payload }

/-- The node that a target address names (R382, R399): a core, the controller of a stack, a steward, or hall steward 0 for a porch window. -/
def targetNode (a : BitVec 64) : Nat :=
  match srfSpace a with
  | 0 => srfCore a
  | 1 => nodeStack (celHash (srfOff a)).1
  | 2 => 0x1000 + srfOff a / 2 ^ 32
  | _ => nodeHall

/-- The plane and the lane within it of a packet from a node to an address, as 2 × plane + lane (R405). -/
def planeLane (node : Nat) (a : BitVec 64) : Nat :=
  let o := srfOff a
  let d := match srfSpace a with
    | 0 => srfCore a
    | 2 => o / 2 ^ 32
    | _ => o / 2 ^ 20
  if srfSpace a = 1 then 2 * (celHash o).2.2.1 + (bitsN o 20 20 ^^^ bitsN o 21 21)
  else 2 * ((node + d) % 8) + (node + d) / 8 % 2

/-- The response to a request (R402), from its home, or from the gateway that answers for a place elsewhere (R401). -/
def State.response (s : State) (p : Packet) (type : Nat) (payload : Bytes) : Packet :=
  let home := if srfPkg p.address = s.me then targetNode p.address else nodeGateway (nodeWing p.node.toNat)
  { address := srfAddr p.src 0 0, vc := 1, type := BitVec.ofNat 4 type, src := s.me, node := p.node, sink := p.sink,
    length := BitVec.ofNat 13 payload.length, wing := BitVec.ofNat 2 (nodeWing p.node.toNat), epoch := BitVec.ofNat 8 s.pair.epoch,
    arg := 0, payload := payload, sender := some (home, planeLane p.node.toNat p.address) }

/-- Answer a request. -/
def State.answer (s : State) (p : Packet) (type : Nat) (payload : Bytes) : State := s.emit (.packet p.src (s.response p type payload))

/-- Answer a request with an error response of a code. -/
def State.answerError (s : State) (p : Packet) (code : Code) : State := s.answer p tERROR (leBytes 2 code.toNat)

/-- The first 12 bytes of a packet's header, DETAIL of a fabric record (R402, R529). -/
def pktHeader (p : Packet) : Bytes :=
  leBytes 8 (p.vc.toNat * 2 ^ 62 + p.type.toNat * 2 ^ 58 + p.src.toNat * 2 ^ 51 + p.node.toNat * 2 ^ 38 + p.sink.toNat * 2 ^ 30 +
    p.length.toNat * 2 ^ 17 + p.wing.toNat * 2 ^ 15 + p.epoch.toNat * 2 ^ 7 + p.arg.toNat) ++ leBytes 4 (p.address.toNat % 2 ^ 32)

/-- Log a fabric code for a packet at a gateway. -/
def State.logPacket (s : State) (code : Code) (sev node : Nat) (p : Packet) : State :=
  s.logErr (s.mkErr code sev node p.address.toNat (detail := pktHeader p))

/-- Whether a packet asks for a response. -/
def pktAsks (p : Packet) : Bool := decide (p.type.toNat ≤ 6) && decide (p.type.toNat ≠ tMESSAGE)

/-- Whether a gateway or hall link answers an address with FAB_ADDR (R401). A slot outside the household counts as absent from the
cabling plan (DEDUCED, notes/assumptions/11.md) (DESIGN CHOICE, notes/assumptions/49.md). -/
def State.badAddress (s : State) (a : BitVec 64) : Bool :=
  decide (bits64 a 63 58 ≠ 0) || decide (4 ≤ srfSpace a) || decide (35 < srfSlot a) ||
    (decide (srfPkg a ≠ s.me) && !s.pair.members.contains (srfPkg a)) || !s.srfInSpace a

/-- Flits of a packet (R402). -/
def packetFlits (p : Packet) : Nat := 1 + ceilDiv (p.payload.length - 48) 64

/-- The lane that carries the flows of gateway lane `n` while it has one of its own: the one the plan remaps there, or its spare (R414, R442). -/
def State.ownLane (s : State) (n : Nat) : Option Nat :=
  let l := ((List.range 72).find? fun i => decide ((s.lane i).asLane = some n)).getD n
  match (s.lane l).spared with
  | some sp => some sp
  | none => if (s.lane l).carrying then some l else none

/-- The other lane of a gateway lane's plane. -/
def otherLane (n : Nat) : Nat := if n % 18 % 2 = 0 then n + 1 else n - 1

/-- The lane that carries the flows of gateway lane `n`: its own, or the one that carries those of the plane's other lane (R414). -/
def State.physLane (s : State) (n : Nat) : Nat := ((s.ownLane n).orElse fun _ => s.ownLane (otherLane n)).getD n

/-- Move codewords that wait into a lane's replay buffer, which holds at most 63 (R413) (DEDUCED, notes/assumptions/65.md). -/
def LaneSt.drain : Nat → LaneSt → LaneSt
  | 0, a => a
  | fuel + 1, a =>
    if 0 < a.backlog ∧ a.replay.length < 63 then
      LaneSt.drain fuel { a with backlog := a.backlog - 1, replay := a.replay ++ [a.txNext], txNext := (a.txNext + 1) % 64 }
    else a

/-- A flit leaves on a lane: it takes a credit of its channel and a slot of the codeword being formed, which goes, and is kept for replay, with its
tenth flit or with the last flit of a packet (R411, R413). -/
def LaneSt.put (a : LaneSt) (vc : Nat) (last : Bool) : LaneSt :=
  let a := { a with credits := a.credits.set vc (a.credits.getD vc 0 - 1), slots := a.slots + 1 }
  if a.slots = 10 ∨ last then LaneSt.drain 64 { a with backlog := a.backlog + 1, slots := 0 } else a

/-- The link header of a codeword with sequence number `q` (R412): the last SEQ accepted, whether a resend is asked, and the credits of the first channel that
has some to return. -/
def LaneSt.linkHeader (a : LaneSt) (q : Nat) : BitVec 20 :=
  let v := ((List.range 4).find? fun v => decide (0 < a.owed.getD v 0)).getD 0
  BitVec.ofNat 20 (q % 64 * 2 ^ 14 + (a.rxNext + 63) % 64 * 2 ^ 8 + (if a.nak then 2 ^ 7 else 0) + v * 2 ^ 5 + min 31 (a.owed.getD v 0))

/-- The credits that a codeword takes back with it. -/
def LaneSt.repay (a : LaneSt) : LaneSt :=
  match (List.range 4).find? fun v => decide (0 < a.owed.getD v 0) with
  | some v => { a with owed := a.owed.set v (a.owed.getD v 0 - 31) }
  | none => a

/-- A codeword goes out on a lane: a data codeword of sequence number `q`, or a control codeword (R413). -/
def State.sendCodeword (s : State) (l : Nat) (data : Bool) (q : Nat) : State :=
  (s.emit (.linkHeader l data ((s.lane l).linkHeader q))).updLane l LaneSt.repay

/-- Change a lane's link layer; the data codewords that this lets go are sent (R413). -/
def State.onLane (s : State) (l : Nat) (f : LaneSt → LaneSt) : State :=
  let q := (s.lane l).txNext
  let s := s.updLane l f
  (List.range (((s.lane l).txNext + 64 - q) % 64)).foldl (fun (s : State) i => s.sendCodeword l true (q + i)) s

/-- Send a request, message or bulk packet. A request that leaves the package to a bad address, or to a lost package, is answered with an
error response instead (R401); the code of the second answer is a free value (DEDUCED, notes/assumptions/64.md). -/
def State.sendPacket (s : State) (p : Packet) : State :=
  let d := srfPkg p.address
  if d = s.me then s.emit (.packet d p)
  else if pktAsks p ∧ s.badAddress p.address then
    (s.logPacket Err.FAB_ADDR sevInfo (nodeGateway (nodeWing p.node.toNat)) p).answerError p Err.FAB_ADDR
  else if pktAsks p ∧ s.pair.lost.contains d then
    let (v, s) := s.draw
    s.answerError p (v.setWidth 16)
  else s.emit (.packet d p)

/-- A chimney packet from hall steward 0 of a member to that of another (R390) (DESIGN CHOICE, notes/assumptions/130.md). -/
def State.chimneyPacket (s : State) (frm d : PkgId) (b : Bytes) : Packet :=
  { s.request (srfAddr d 2 (8 * 2 ^ 32)) tCHIMNEY 0 nodeHall 0 b.length 0 b with src := frm }

/-- A chimney payload to every member, this package among them, one after the other in ascending order (R390) (DEDUCED, notes/assumptions/47.md). -/
def State.toMembers (s : State) (b : Bytes) : State := { s with out := s.out ++ s.pair.members.map fun d => .chimney d b }

/-- A message that a steward sends to a receive queue of a core of this package on the chimney (R221, R390). -/
def State.stewardMessage (s : State) (core queue tag : Nat) (payload : Bytes) : State :=
  let a := BitVec.ofNat 64 ((srfAddr s.me 0 (core * 2 ^ 20)).toNat + tag % 65536 * 4)
  s.sendPacket (s.request a tMESSAGE 0 (nodeSteward (wingOf core)) 0 payload.length queue payload)

/-! Memory by SRF address (R399). -/

/-- A byte of the cellar as it reads: the sequence table, the directories and the chunks show the tables this model holds as data
(notes/assumptions/18.md). -/
def State.celByte (s : State) (a : Nat) : Byte :=
  match s.seqTableByte a with
  | some b => b
  | none =>
    match s.tableByte a with
    | some b => b
    | none => Memory.byte s.cellar a

/-- Bytes of the cellar. -/
def State.celRead (s : State) (a n : Nat) : Bytes := (List.range n).map fun i => s.celByte (a + i)

/-- Bytes of the local stores from an offset of space 0 on: a run that passes a core's 1 MiB goes on in the next core (R399). -/
def State.lsSpan (s : State) (o n : Nat) : Bytes :=
  let k := 0x100000 - o % 0x100000
  if n ≤ k then (s.core (o / 0x100000)).rdLs (o % 0x100000) n
  else (s.core (o / 0x100000)).rdLs (o % 0x100000) k ++ (s.core (o / 0x100000 + 1)).rdLs 0 (n - k)

/-- A write to the local stores from an offset of space 0 on. -/
def State.lsFill (s : State) (o : Nat) (b : Bytes) : State :=
  let k := 0x100000 - o % 0x100000
  if b.length ≤ k then s.updCore (o / 0x100000) fun q => q.wrLs (o % 0x100000) b
  else (s.updCore (o / 0x100000) fun q => q.wrLs (o % 0x100000) (b.take k)).updCore (o / 0x100000 + 1) fun q => q.wrLs 0 (b.drop k)

/-- Bytes of this package's memory at an SRF address: local store, cellar, a steward's memory, or a porch window. -/
def State.memRead (s : State) (a : BitVec 64) (n : Nat) : Bytes :=
  match srfSpace a with
  | 0 => s.lsSpan (srfOff a) n
  | 1 => s.celRead (srfOff a) n
  | 2 => Memory.read (SMap.get [] s.stewards (srfOff a / 2 ^ 32)) (srfOff a % 2 ^ 32) n
  | _ => Memory.read (s.porch (srfOff a / 2 ^ 20)).mem (srfOff a % 2 ^ 20) n

/-- A write to the cellar by a request: the bytes, and the words of the page tables among them (R176). -/
def State.celStore (s : State) (a : Nat) (b : Bytes) : State :=
  let words := (List.range ((a + b.length + 7) / 8 - a / 8)).map fun k => 8 * (a / 8 + k)
  let news := words.map fun x => (x, leNat ((List.range 8).map fun i => if a ≤ x + i ∧ x + i < a + b.length then b.getD (x + i - a) 0 else s.celByte (x + i)))
  news.foldl (fun s w => s.tableStore w.1 w.2) (s.celWrite a b)

/-- A write of bytes to this package's memory at an SRF address. -/
def State.memWrite (s : State) (a : BitVec 64) (b : Bytes) : State :=
  match srfSpace a with
  | 0 => s.lsFill (srfOff a) b
  | 1 => s.celStore (srfOff a) b
  | 2 => { s with stewards := SMap.upd [] s.stewards (srfOff a / 2 ^ 32) fun m => Memory.write m (srfOff a % 2 ^ 32) b }
  | _ => s.updPorch (srfOff a / 2 ^ 20) fun p => { p with mem := Memory.write p.mem (srfOff a % 2 ^ 20) b }

/-- The check of a remote address by a core (R118): none when it may be sent. `n` is the access size. -/
def State.remoteCheck (s : State) (a : BitVec 64) (n : Nat) : Option Code :=
  if bits64 a 63 58 ≠ 0 ∨ 2 ≤ srfSpace a ∨ !s.srfInSpace a then some Err.REMOTE_ADDR
  else if srfRack a ≠ s.pair.rack then some Err.REMOTE_RACK
  else if srfOff a % n ≠ 0 then some Err.REMOTE_ALIGN
  else none

end Sys2Proof.Machine
end

