-- ==== Sys2Proof/Machine/Tiles.lean ====
section
/-!
DEFINITION. The wings' tile lists (R202 to R208, R138): building descriptors from the tile plan, group completion, availability, and handing
descriptors out.
-/
namespace Sys2Proof.Machine

/-! The two half-batches (R226). -/

/-- Tokens of a half-batch. -/
def State.halfTokens (s : State) (h : Bool) : Nat :=
  let t := s.step.tokens
  if 2 ≤ t then (if h then t / 2 else ceilDiv t 2) else if h then 0 else t

/-- First token of a half-batch in work-list order. -/
def State.halfStart (s : State) (h : Bool) : Nat := if h then s.halfTokens false else 0

/-- The half-batches that hold tokens. -/
def State.halves (s : State) : List Bool := [false, true].filter fun h => decide (0 < s.halfTokens h)

/-- The half as the HALF field shows it. -/
def halfNat (h : Bool) : Nat := if h then 1 else 0

/-! Roles and dealing. -/

/-- The wings that have an active core. -/
def State.boostWings (s : State) : List Nat := (List.range 4).filter fun v => decide (s.rd WNG_KIND_ROLE.ACTIVE_ROWS v ≠ 0)

/-- The wing to whose list tail tile `i` goes: that of the deal, or, when it has no active core, the others that have one in turn (R99). -/
def State.tailWing (s : State) (i : Nat) : Nat :=
  let vs := s.boostWings
  if vs.contains (i % 4) then i % 4 else vs.getD (i / 4 % vs.length) (i % 4)

/-- Whether the switch of a kindling core that changed rail has still to settle; the model takes the whole 2 µs that R98 allows (DESIGN CHOICE,
notes/assumptions/116.md). -/
def State.isSettling (s : State) (c : Nat) : Bool :=
  isKindling c && decide (s.rackTime < SMap.get 0 s.kind.settling (32 * wingOf c + c / 64 % 32))

/-- Whether a core is one of those that tail tiles go to: the active ones (R94) or, when no wing has one, every kindling core, since the step completes
in every case (R99) (DESIGN CHOICE, notes/assumptions/116.md). -/
def State.takesTail (s : State) (c : Nat) : Bool := s.isBoost c || (decide (s.boostWings = []) && isKindling c)

/-- Whether a kind goes to active boost cores (R203). -/
def tailKind (k : Nat) : Bool := decide (k = 3) || decide (k = 4)

/-- Whether a kind's groups run once for each half-batch (R226; DEDUCED, notes/assumptions/12.md). -/
def splitKind (k : Nat) : Bool := decide (4 ≤ k)

/-- Whether this member serves its pair alone. -/
def State.survivor (s : State) : Bool := s.pair.lost.contains s.partner

/-- Whether this member's lists hold the EXPERT descriptor of an INDEX, and the wing it is dealt to (R207). -/
def State.dealExpert (s : State) (i : Nat) : Option Nat :=
  if s.survivor then some (i % 4) else if i % 2 = s.position then some (i / 2 % 4) else none

/-! Descriptors. -/

/-- The 64 plan bytes of a descriptor (R202). -/
def planArgs (plan : Bytes) (g : PlanGroup) (i : Nat) : Bytes :=
  let b := (plan.drop (g.arg + 64 * (i % g.count))).take 64
  b ++ List.replicate (64 - b.length) 0

/-- Pad a byte string with zeros. -/
def padTo (n : Nat) (b : Bytes) : Bytes := b ++ List.replicate (n - b.length) 0

/-- The 128 bytes of a descriptor (R202). -/
def Desc.bytes (d : Desc) : Bytes :=
  leBytes 1 d.kind ++ leBytes 1 d.layer ++ leBytes 1 (halfNat d.half) ++ leBytes 1 (if d.pending then 1 else 0) ++ leBytes 2 d.stage ++
    leBytes 2 d.group ++ leBytes 4 d.index ++ leBytes 4 d.trip ++ padTo 112 (d.body.take 112)

/-- STEP_END (R203). -/
def stepEndBytes : Bytes := padTo 128 (leBytes 1 0 ++ leBytes 1 0xFF)

/-- A listed descriptor of a plan group (DEDUCED, notes/assumptions/53.md). -/
def mkDesc (g : PlanGroup) (half : Bool) (index wing : Nat) (body : Bytes) : Desc :=
  { kind := g.kind, layer := g.layer, half := half, stage := g.stage, group := g.group, index := index, trip := 0, pending := false,
    wing := wing, owner := none, expert := 0, body := body, st := .listed }

/-- DENSE and TAIL descriptors of a group: over the whole step (R203, R226) (DEDUCED, notes/assumptions/53.md). -/
def State.wholeDescs (s : State) (plan : Bytes) (g : PlanGroup) : List Desc :=
  (List.range g.count).map fun i =>
    mkDesc g false i (if tailKind g.kind then s.tailWing i else i % 4)
      (padTo 48 (leBytes 4 0 ++ leBytes 4 s.step.tokens) ++ planArgs plan g i)

/-- ROUTE descriptors of a group: up to 32 tokens each, for each half-batch (R203, R226), over every token of the half-batch (DESIGN CHOICE, notes/assumptions/141.md). -/
def State.routeDescs (s : State) (g : PlanGroup) : List Desc :=
  s.halves.flatMap fun h =>
    (List.range (ceilDiv (s.halfTokens h) 32)).map fun i =>
      mkDesc g h i (s.tailWing i)
        (leBytes 4 (s.halfStart h + 32 * i) ++ leBytes 4 (min 32 (s.halfTokens h - 32 * i)) ++
          leBytes 8 ((Config.area 0 g.layer (halfNat h) 0).toNat + 2048 * i))

/-- Expert entries of a layer that this package's pair holds, with their replica index (R213). -/
def State.heldExperts (s : State) (m : Bytes) (l : ExLayer) : List (ExEntry × Nat) :=
  (List.range l.e).filterMap fun e =>
    let x := exEntryAt m (l.firstEntry + e)
    (findIdx (fun p => decide (p = s.pairNum)) (x.pairs.take x.replicas) 0).map fun r => (x, r.1)

/-- Payload of an EXPERT descriptor (R222) (DEDUCED, notes/assumptions/102.md). -/
def State.expertBody (s : State) (plan : Bytes) (g : PlanGroup) (h : Bool) (x : ExEntry) (r i first runs : Nat) : Bytes :=
  padTo 48 (leBytes 2 x.expert ++ leBytes 1 r ++ leBytes 1 ((Config.area 4 g.layer (halfNat h) x.expert).toNat % 4) ++ leBytes 4 first ++
    leBytes 8 (srfAddr s.me 1 (x.weight + (Config.area 5 g.layer g.group (i % g.count)).toNat)).toNat ++
    leBytes 8 (srfAddr s.me 1 (Config.area 2 g.layer (halfNat h) x.expert).toNat).toNat ++ leBytes 2 runs) ++ planArgs plan g i

/-- The early EXPERT descriptors of a layer: token group 0 of the first expert group, at most EARLY of each expert (R221). What a
descriptor shows in RUNS before the counts are known the spec does not say: a free value (DEDUCED, notes/assumptions/102.md). -/
def State.earlyDescs (s : State) (plan m : Bytes) (gs : List PlanGroup) (l : ExLayer) : List Desc :=
  match gs.find? fun g => decide (some g.group = l.groups.head?) with
  | none => []
  | some g =>
    s.halves.flatMap fun h => (s.heldExperts m l).flatMap fun xr =>
      (List.range (min l.early g.count)).filterMap fun i =>
        (s.dealExpert i).map fun w =>
          { mkDesc g h i w (s.expertBody plan g h xr.1 xr.2 i 0 ((Config.area 6 g.layer (halfNat h) xr.1.expert).toNat % 65536)) with
            pending := true, expert := xr.1.expert }

/-- Build the lists of the step in progress (R202, R207); the headers of its attempt that have come already stay (R219); contexts that waited past STEP_END may be served again (R138). -/
def State.openStep (s : State) : State :=
  let plan := s.plan s.step.modelSlot
  let gs := planGroups plan
  let m := (s.slotObj s.step.modelSlot 5).getD []
  let ls := s.exLayersOf s.step.modelSlot
  let ds := gs.flatMap fun g =>
    match g.kind with
    | 1 => s.wholeDescs plan g
    | 3 => s.wholeDescs plan g
    | 4 => s.routeDescs g
    | _ => []
  let es := ls.flatMap fun l => s.earlyDescs plan m gs l
  s.updStep fun p =>
    { p with descs := ds ++ es, sentHeaders := [], walked := false, built := true, routed := [], expertKnown := [], ended := [],
             arith := {}, expert := {}, partDone := none, mirrorSent := false, mirrorAcked := false,
             contributed := false, kvCrc := [] }

/-! Completion and availability. -/

/-- Whether every descriptor that a group will have for a half exists. -/
def State.groupKnown (s : State) (g : PlanGroup) (h : Bool) : Bool :=
  match g.kind with
  | 5 => s.step.routed.contains (g.layer, h)
  | 6 => s.step.expertKnown.contains (g.layer, h)
  | 7 => s.step.expertKnown.contains (g.layer, h)
  | _ => true

/-- The serving member that acts for a position of a pair: the member there, or the survivor (R214). -/
def State.memberAt (s : State) (pair pos : Nat) : Option PkgId :=
  let ms := s.serving.filter fun p => decide (s.pairOf p = pair)
  (ms.find? fun p => decide (p.toNat / 2 % 2 = pos)).orElse fun _ => ms.head?

/-- The pairs that hold a replica of some expert of a layer. -/
def State.replicaPairs (s : State) (m : Bytes) (l : ExLayer) : List Nat :=
  (List.range s.pairs).filter fun d => (List.range l.e).any fun e =>
    let x := exEntryAt m (l.firstEntry + e)
    (x.pairs.take x.replicas).contains d

/-- Whether this package, as a source, has its combined rows of a layer-half (R224). -/
def State.combined (s : State) (layer : Nat) (h : Bool) : Bool :=
  match s.slotObj s.step.modelSlot 5 with
  | none => true
  | some m =>
    (exAll m).all fun l =>
      decide (l.layer ≠ layer) || (s.replicaPairs m l).all fun d => [0, 1].all fun pos =>
        let p := s.memberAt d pos
        s.step.headers.any fun x =>
          x.combine && decide (x.layer = layer) && decide (x.half = h) && decide (x.src = d) && decide (s.memberAt d x.pos = p)

/-- Whether a descriptor has been completed or retired, or, taken early, is of an expert that received no row (R206, R225). -/
def Desc.finished (d : Desc) : Bool := decide (d.st = .done) || (decide (d.kind = 6) && !d.pending && decide (d.trip = 0))

/-- Whether a group has completed, for a half-batch where its kind is split (R206). -/
def State.groupDone (s : State) (gs : List PlanGroup) (id : Nat) (h : Bool) : Bool :=
  match gs.find? fun g => decide (g.group = id) with
  | none => true
  | some g =>
    if splitKind g.kind then
      decide (s.halfTokens h = 0) ||
        (s.groupKnown g h && (decide (g.kind ≠ 7) || s.combined g.layer h) && s.step.descs.all fun d => decide (d.group ≠ id) || decide (d.half ≠ h) || d.finished)
    else s.step.descs.all fun d => decide (d.group ≠ id) || decide (d.st = .done)

/-- Whether a listed descriptor is available (R204). -/
def State.available (s : State) (gs : List PlanGroup) (d : Desc) : Bool :=
  decide (d.st = .listed) &&
    match gs.find? fun g => decide (g.group = d.group) with
    | none => true
    | some g =>
      g.depends.all fun id =>
        decide (id = 0xFFFF) ||
          (if splitKind g.kind then s.groupDone gs id d.half else s.groupDone gs id false && s.groupDone gs id true)

/-- Whether a core may take a descriptor at some time (R94, R185, R203). -/
def State.mayTake (s : State) (c : Nat) (d : Desc) : Bool :=
  decide (d.wing = wingOf c) && decide (d.st = .listed) &&
    match d.owner with
    | some o => decide (o = c)
    | none => if tailKind d.kind then s.takesTail c else !s.isBoost c

/-- Hand-out order: (STAGE, GROUP, INDEX) (R204), and where these are equal half-batch and then expert (DESIGN CHOICE, notes/assumptions/140.md). -/
def descLt (a b : Desc) : Bool :=
  if a.stage ≠ b.stage then decide (a.stage < b.stage)
  else if a.group ≠ b.group then decide (a.group < b.group)
  else if a.index ≠ b.index then decide (a.index < b.index)
  else if a.half ≠ b.half then b.half
  else decide (a.expert < b.expert)

/-- Whether R185 holds a descriptor back from a core: an ordinary tile while the core still has ATTEND_PAGE descriptors of an earlier layer to
take, those that the walk has still to make among them, and an ATTEND_PAGE descriptor while it has an earlier one in the order of chain, sequence and
page. -/
def State.heldByWalk (s : State) (c : Nat) (d : Desc) : Bool :=
  (!s.step.walked && s.visits.any fun v => decide (v.core = c) && decide (v.ch.layer < d.layer)) || s.step.descs.any fun a =>
    decide (a.kind = 2) && decide (a.st = .listed) && decide (a.owner = some c) &&
      (if d.kind = 2 then decide (a.index < d.index) else decide (a.layer < d.layer))

/-- The place of the descriptor a core's TAKE receives (R204, R185). -/
def State.pick (s : State) (c : Nat) : Option (Nat × Desc) :=
  let gs := planGroups (s.plan s.step.modelSlot)
  let ok := ((List.range s.step.descs.length).zip s.step.descs).filter fun e =>
    s.mayTake c e.2 && s.available gs e.2 && !s.heldByWalk c e.2 && !(tailKind e.2.kind && s.isSettling c)
  (sortBy (fun a b => descLt a.2 b.2) ok).head?

/-- Whether descriptors remain that a core could take later (R205). -/
def State.remains (s : State) (c : Nat) : Bool :=
  (s.step.descs.any fun d => s.mayTake c d) ||
    (!s.isBoost c &&
      (!s.step.walked ||
        (planGroups (s.plan s.step.modelSlot)).any fun g => decide (5 ≤ g.kind) && s.halves.any fun h => !s.groupKnown g h))

/-- The power phase that a taken descriptor of a kind makes active (R450). -/
def State.phaseOf (s : State) (kind : Nat) : Nat :=
  match kind with
  | 1 => if s.step.items.any fun i => i.prefill then 0 else 1
  | 2 => 3
  | 3 => 5
  | 4 => 5
  | _ => 4

/-- The DATA response of a TAKE (R403) (DEDUCED, notes/assumptions/62.md). -/
def State.takeResult (s : State) (c x : Nat) (b : Bytes) : State :=
  s.emit (.packet s.me
    { address := srfAddr s.me 0 0, vc := 1, type := 8, src := s.me, node := BitVec.ofNat 13 c, sink := BitVec.ofNat 8 x, length := 128,
      wing := BitVec.ofNat 2 (wingOf c), epoch := BitVec.ofNat 8 s.pair.epoch, arg := 0, payload := b })

/-- Whether the tile lists of the step in progress are built: its list agreed, its model slot seated, and its attempt begun (R142, R202, R255). -/
def State.listsBuilt (s : State) : Bool := s.step.active && s.step.started && s.step.built && decide (s.step.seating = [])

/-- Serve the TAKE of context `x` of core `c`: a descriptor, STEP_END, or nothing yet (R138, R204, R205). -/
def State.serveTake (s : State) (c x : Nat) : Option State :=
  if !s.listsBuilt ∨ s.step.ended.contains (c, x) then none
  else
    match s.pick c with
    | some (i, d) =>
      let s := s.updStep fun p => { p with descs := p.descs.set i { d with st := .taken c x, took := some c } }
      some ((s.phaseCause (s.phaseOf d.kind)).takeResult c x d.bytes)
    | none =>
      if s.remains c then none
      else some ((s.updStep fun p => { p with ended := p.ended ++ [(c, x)] }).takeResult c x stepEndBytes)

/-- The descriptors that a context holds are completed (R206). -/
def State.completeTaken (s : State) (c x : Nat) : State :=
  s.updStep fun p => { p with descs := mapWhere (fun d => decide (d.st = .taken c x)) (fun d => { d with st := .done }) p.descs }

/-- A TAKE reaches its wing steward (R204 to R206). -/
def State.takeArrives (s : State) (c x : Nat) : State :=
  let s := s.completeTaken c x
  match s.serveTake c x with
  | some s => s
  | none => s.updStep fun p => { p with takeWaits := p.takeWaits ++ [{ core := c, ctx := x }] }

/-- Serve the waiting TAKEs of a wing, in the order they came (R205). -/
def State.serveWaits (s : State) (w : Nat) : State :=
  s.step.takeWaits.foldl (fun s t =>
    if wingOf t.core = w then
      match s.serveTake t.core t.ctx with
      | some s => s.updStep fun p => { p with takeWaits := p.takeWaits.filter fun u => decide (u ≠ t) }
      | none => s
    else s) s

/-- Switches that have settled are forgotten, and the cores that waited for theirs are served (R98). -/
def State.settle (s : State) : State :=
  if s.kind.settling.any fun e => decide (e.2 ≤ s.rackTime) then
    let s : State := { s with kind := { s.kind with settling := s.kind.settling.filter fun e => decide (s.rackTime < e.2) } }
    (List.range 4).foldl State.serveWaits s
  else s

/-- The descriptor a context holds: its GROUP, INDEX and layer tag (R60, R529, R535). -/
def State.descOf (s : State) (c x : Nat) : Option Desc := s.step.descs.find? fun d => decide (d.st = .taken c x)

/-- The layer tag of a context's work; 0xFF outside descriptors. -/
def State.layerOf (s : State) (c x : Nat) : Nat := ((s.descOf c x).map (·.layer)).getD 0xFF

end Sys2Proof.Machine
end

