-- ==== Sys2Proof/Machine/Counts.lean ====
section
/-!
DEFINITION. Rows and counts of the expert layers (R209, R213 to R215, R219 to R225, R229): routing records, the rows between pairs, the exchange
descriptors, and what follows once an expert's counts are known.
-/
namespace Sys2Proof.Machine

/-! Routing records (R209, R210). -/

/-- The expert map and the layer entry of a layer tag of the step's model slot. -/
def State.exLayer (s : State) (layer : Nat) : Option (Bytes × ExLayer) :=
  match s.slotObj s.step.modelSlot 5 with
  | none => none
  | some m => ((exAll m).find? fun l => decide (l.layer = layer)).map fun l => (m, l)

/-- Cellar address of the routing record of token `j` of a half-batch (DESIGN CHOICE, notes/assumptions/46.md). -/
def recordAddr (layer : Nat) (h : Bool) (j : Nat) : Nat := (Config.area 0 layer (halfNat h) 0).toNat + 64 * j

/-- The eight entries of a routing record, as 64-bit words. -/
def State.record (s : State) (layer : Nat) (h : Bool) (j : Nat) : List Nat :=
  let b := s.celRead (recordAddr layer h j) 64
  (List.range 8).map fun i => fieldAt b (8 * i) 8

/-- Whether a routing record is valid (R210). -/
def recordOk (l : ExLayer) (es : List Nat) : Bool :=
  let used := es.take l.k
  used.all (fun e => decide (bitsN e 31 31 = 1) && decide (bitsN e 30 10 = 0) && decide (bitsN e 9 0 < l.e)) &&
    (es.drop l.k).all (fun e => decide (e = 0)) && allDistinct (used.map fun e => bitsN e 9 0)

/-- The experts a token selects (DEDUCED, notes/assumptions/55.md). -/
def State.selected (s : State) (l : ExLayer) (h : Bool) (j : Nat) : List Nat :=
  ((s.record l.layer h j).filter fun e => decide (bitsN e 31 31 = 1)).map fun e => bitsN e 9 0

/-! Rows (R213 to R215). -/

/-- The rows a source pair sends a destination pair for one expert: the tokens `j` of the half in ascending order. -/
def State.expertRows (s : State) (m : Bytes) (l : ExLayer) (h : Bool) (src dst e : Nat) : List Nat :=
  let x := exEntryAt m (l.firstEntry + e)
  (List.range (s.halfTokens h)).filter fun j =>
    decide (j % s.pairs = src) && decide (x.pairs.getD (j % x.replicas) 0xFF = dst) && (s.selected l h j).contains e

/-- The experts of a layer of which a pair holds a replica, ascending (R217). -/
def expertsOf (m : Bytes) (l : ExLayer) (pair : Nat) : List Nat :=
  (List.range l.e).filter fun e =>
    let x := exEntryAt m (l.firstEntry + e)
    (x.pairs.take x.replicas).contains pair

/-- The positions for which this package sends and receives in place of its pair (R214). -/
def State.myPositions (s : State) : List Nat := if s.survivor then [0, 1] else [s.position]

/-- The receivers in a pair for what this package sends (DEDUCED, notes/assumptions/54.md). -/
def State.receivers (s : State) (pair : Nat) : List PkgId :=
  let rs := s.myPositions.filterMap fun m => s.memberAt pair m
  rs.foldl (fun acc p => if acc.contains p then acc else acc ++ [p]) []

/-- The payload of a DISPATCH or COMBINE descriptor (R223). -/
def exchangeBody (dest : BitVec 64) (list rows first : Nat) : Bytes :=
  padTo 112 (leBytes 8 dest.toNat ++ leBytes 8 list ++ leBytes 4 rows ++ leBytes 4 first)

/-- The first byte of the footprint of the step's model slot in a package. Where another package placed it this package does not hold (R303): a free value,
a whole extent (DESIGN CHOICE, notes/assumptions/132.md). -/
def State.footBase (s : State) (p : PkgId) : Nat :=
  if p = s.me then s.slotBase s.step.modelSlot
  else (Config.peerBase p.toNat s.step.modelSlot).toNat * extentBytes

/-- A cellar address of this package's relocated expert map, as the map of package `p` has it (R303, R308). -/
def State.mapAddrAt (s : State) (p : PkgId) (a : Nat) : Nat := a - s.footBase s.me + s.footBase p

/-- The step's tokens in row order, as the list of 4-byte token numbers that LIST names (R223; the number is the token's place in the step,
DEDUCED, notes/assumptions/22.md). -/
def State.rowTokens (s : State) (m : Bytes) (l : ExLayer) (h : Bool) (src dst : Nat) : List Nat :=
  ((expertsOf m l dst).flatMap (s.expertRows m l h src dst)).map (s.halfStart h + ·)

/-- The descriptors of one exchange group: for each other pair with rows and each receiver there, with its token list in the cellar.
`area` is the area's address in this package's map, and the lists stand at `Config.area kind` (DESIGN CHOICE, notes/assumptions/46.md) (DEDUCED, notes/assumptions/54.md). -/
def State.exchangeDescs (s : State) (g : PlanGroup) (m : Bytes) (l : ExLayer) (h : Bool) (kind : Nat) (pairs : List Nat)
    (dests : Nat → List PkgId) (area : Nat) (rows : Nat → List Nat) : State :=
  let ts := (pairs.filter fun d => decide (rows d ≠ [])).flatMap fun d => (dests d).map fun p => (d, p)
  let s := pairs.foldl (fun s d =>
    s.celWrite (Config.area kind l.layer (halfNat h) d).toNat ((rows d).flatMap (leBytes 4))) s
  let slot := if kind = 1 then exDSlot m else exCSlot m
  let ds := ((List.range ts.length).zip ts).map fun (i, t) =>
    { mkDesc g h i (i % 4)
        (exchangeBody (srfAddr t.2 1 (s.mapAddrAt t.2 area + s.pairNum * slot)) (Config.area kind l.layer (halfNat h) t.1).toNat (rows t.1).length 0) with
      expert := t.1, toks := rows t.1 }
  s.updStep fun p => { p with descs := p.descs ++ ds }

/-! Expert counts (R219, R221, R222, R225, R229). -/

/-- The dispatch headers held for this package's own position of a layer-half, by ascending source pair (R219). -/
def State.dispatchHeaders (s : State) (layer : Nat) (h : Bool) : List HeldHeader :=
  (List.range s.pairs).filterMap fun src =>
    s.step.headers.find? fun x =>
      !x.combine && decide (x.layer = layer) && decide (x.half = h) && decide (x.src = src) && decide (x.pos = s.position)

/-- The count of an expert in a header. -/
def headerCount (x : HeldHeader) (e : Nat) : Nat := ((x.entries.find? fun r => decide (r.1 = e)).map (·.2)).getD 0

/-- Rows that stand before an expert's in a source's slot (R215). -/
def rowsBefore (x : HeldHeader) (e : Nat) : Nat := (x.entries.filter fun r => decide (r.1 < e)).foldl (fun n r => n + r.2) 0

/-- The row list of an expert (R222): one run per source pair with rows. -/
def State.rowList (s : State) (m : Bytes) (l : ExLayer) (h : Bool) (hs : List HeldHeader) (e : Nat) : List Bytes :=
  (hs.filter fun x => decide (headerCount x e ≠ 0)).map fun x =>
    leBytes 8 (srfAddr s.me 1 (exDispatch m (halfNat h) + x.src * exDSlot m + rowsBefore x e * 64 * l.rowPacks)).toNat ++
      leBytes 4 (headerCount x e) ++ leBytes 4 0

/-- Tokens of token group `g` of an expert with `c` rows (R222). -/
def groupTrip (l : ExLayer) (c g : Nat) : Nat := min l.groupTokens (c - g * l.groupTokens)

/-- The tokens of the rows that an expert replica of this pair receives, in the expert's row order (R215, R222). -/
def State.expertToks (s : State) (m : Bytes) (l : ExLayer) (h : Bool) (e : Nat) : List Nat :=
  ((List.range s.pairs).flatMap fun src => s.expertRows m l h src s.pairNum e).map (s.halfStart h + ·)

/-- Whether a descriptor is an early one of an expert of a layer-half, its count not known yet (R221). -/
def Desc.early (d : Desc) (layer : Nat) (h : Bool) (e : Nat) : Bool :=
  d.pending && decide (d.kind = 6) && decide (d.layer = layer) && decide (d.half = h) && decide (d.expert = e)

/-- An early descriptor once the count is known (R221, R222, R225): its trip count and, when it has not been taken, RUNS, or its retirement. -/
def Desc.countKnown (d : Desc) (trip runs : Nat) (toks : List Nat) : Desc :=
  { d with pending := false, trip := trip, toks := toks.take trip,
           body := if d.st = .listed then d.body.take 0x18 ++ leBytes 2 runs ++ d.body.drop 0x1A else d.body,
           st := if d.st = .listed ∧ trip = 0 then .done else d.st }

/-- The counts of one expert replica are known (R221, R222, R225, R229): the descriptors of its groups, its row list, the count messages to
the cores that took an early one, and its part of the expert record. -/
def State.expertCounted (s : State) (gs : List PlanGroup) (m : Bytes) (l : ExLayer) (h : Bool) (hs : List HeldHeader) (x : ExEntry)
    (r : Nat) : State :=
  let c := hs.foldl (fun n y => n + headerCount y x.expert) 0
  let runs := s.rowList m l h hs x.expert
  let toks := s.expertToks m l h x.expert
  let s := s.celWrite (Config.area 2 l.layer (halfNat h) x.expert).toNat (runs.flatMap id)
  let hot := decide (max l.groupTokens (l.hot * ceilDiv (s.halfTokens h * l.k) l.e) < c) && (s.survivor || decide (s.position = 0))
  let s := if hot then s.updStep fun p => { p with expert := hotEvent p.expert l.layer x.expert c } else s
  let old := s.step.descs.filter fun d => d.early l.layer h x.expert
  let trip := groupTrip l c 0
  let s := (old.filterMap (·.took)).foldl (fun s core =>
    s.stewardMessage core ((Config.area 4 l.layer (halfNat h) x.expert).toNat % 4) l.tag
      (leBytes 4 trip ++ leBytes 4 x.expert ++ leBytes 4 l.layer ++ leBytes 4 (halfNat h))) s
  let plan := s.plan s.step.modelSlot
  let new := (l.groups.filter fun id => decide (id ≠ 0xFFFF)).flatMap fun id =>
    match gs.find? fun g => decide (g.group = id) with
    | none => []
    | some g =>
      (List.range (g.count * ceilDiv c l.groupTokens)).filterMap fun i =>
        if old.any fun d => decide (d.group = id) && decide (d.index = i) then none
        else
          let n := groupTrip l c (i / g.count)
          let first := i / g.count * l.groupTokens
          (s.dealExpert i).map fun w =>
            { mkDesc g h i w (s.expertBody plan g h x r i first runs.length) with
              trip := n, expert := x.expert, toks := (toks.drop first).take n }
  s.updStep fun p =>
    { p with descs := mapWhere (fun d => d.early l.layer h x.expert) (fun d => d.countKnown trip runs.length toks) p.descs ++ new }

/-- With every source's header held, the expert counts of a layer-half are known: EXPERT descriptors for every replica and COMBINE
descriptors for every source that sent rows (R222, R223, R225). -/
def State.countsKnown (s : State) (layer : Nat) (h : Bool) : State :=
  let hs := s.dispatchHeaders layer h
  match s.exLayer layer with
  | none => s
  | some (m, l) =>
    if !s.listsBuilt ∨ hs.length < s.pairs ∨ s.step.expertKnown.contains (layer, h) then s
    else
      let gs := planGroups (s.plan s.step.modelSlot)
      let s := (s.heldExperts m l).foldl (fun s xr => s.expertCounted gs m l h hs xr.1 xr.2) s
      let s := match gs.find? fun g => decide (g.kind = 7) && decide (g.layer = layer) with
        | none => s
        | some g =>
          s.exchangeDescs g m l h 3 (List.range s.pairs) (fun d => s.serving.filter fun p => decide (s.pairOf p = d))
            (exCombine m (halfNat h)) (fun d => s.rowTokens m l h d s.pairNum)
      (List.range 4).foldl State.serveWaits (s.updStep fun p => { p with expertKnown := p.expertKnown ++ [(layer, h)] })

/-- Headers that came before the lists were built are judged held from the start: every layer-half whose headers have all come has its counts (R219). -/
def State.countsHeld (s : State) : State :=
  (s.step.headers.map fun x => (x.layer, x.half)).eraseDups.foldl (fun s k => s.countsKnown k.1 k.2) s

end Sys2Proof.Machine
end

