-- ==== Sys2Proof/Machine/Abort.lean ====
section
/-!
DEFINITION. Faults and what they do (R73, R429, R433, R434, R533 to R536): repeats, the abort and restart of a step, context faults, and the
hand-over of a package's work.
-/
namespace Sys2Proof.Machine

/-! The sequences a fault concerns. -/

/-- The sequences that own tokens `lo` up to `lo + n` in work-list order. -/
def seqsOfTokens (lo n : Nat) : Nat → List Item → List Nat
  | _, [] => []
  | at_, i :: r => (if at_ < lo + n ∧ lo < at_ + i.tokens then [i.index] else []) ++ seqsOfTokens lo n (at_ + i.tokens) r

/-- Every sequence of the step. -/
def State.stepSeqs (s : State) : List Nat := s.step.items.map (·.index)

/-- The sequences whose tokens a descriptor's instructions carry (R32; DEDUCED for the exchange and expert kinds,
notes/assumptions/13.md). -/
def State.descSeqs (s : State) (d : Desc) : List Nat :=
  match d.kind with
  | 2 => [fieldAt d.body 4 4 % 65536]
  | 4 => seqsOfTokens (fieldAt d.body 0 4) (fieldAt d.body 4 4) 0 s.step.items
  | 5 | 6 | 7 => (d.toks.flatMap fun t => seqsOfTokens t 1 0 s.step.items).eraseDups
  | _ => s.stepSeqs

/-! Lanes (R441). -/

/-- Wing of a gateway lane, and its number there; lanes 72 to 87 are the pair link's. -/
def laneWing (l : Nat) : Nat := l / 18
def laneLocal (l : Nat) : Nat := l % 18
def isPairLane (l : Nat) : Bool := decide (72 ≤ l)

/-- Whether a lane is mapped out (R443). -/
def State.mappedOut (s : State) (l : Nat) : Bool := decide (s.rd PAIR_MAPOUTm.OUT 0 (l / 32) / 2 ^ (l % 32) % 2 = 1)

/-- Set or clear a lane's bit in PAIR_MAPOUT. -/
def State.setMapOut (s : State) (l : Nat) (v : Bool) : State :=
  s.wr PAIR_MAPOUTm.OUT (setBitsN (s.rd PAIR_MAPOUTm.OUT 0 (l / 32)) (l % 32) (l % 32) (if v then 1 else 0)) 0 (l / 32)

/-- Pair-link lanes carrying, PAIR_STS.LANES. -/
def State.pairLanes (s : State) : Nat := ((List.range 16).filter fun i => (s.lane (72 + i)).carrying).length

/-- Whether lane `i` (0 to 15) of a wing carries its flows, itself or by a spare, or will again after a rest. -/
def State.laneServes (s : State) (w i : Nat) : Bool :=
  (s.lane (18 * w + i)).carrying || (s.lane (18 * w + i)).idle || (s.lane (18 * w + i)).spared.isSome

/-- Whether lane `i` of a wing is lost until a release restores it: it is mapped out, or has been released and is still in training (R443). -/
def State.laneLost (s : State) (w i : Nat) : Bool :=
  !s.laneServes w i && (s.mappedOut (18 * w + i) || (s.lane (18 * w + i)).training)

/-- Whether a wing has lost both lanes of a plane (R444). -/
def State.planeLost (s : State) (w p : Nat) : Bool := s.laneLost w (2 * p) && s.laneLost w (2 * p + 1)

/-! Household membership. -/

/-- Every perturbation register returns to its reset value (R507). -/
def State.lockPtb (s : State) : State :=
  { s with
    regs := s.regs.filter fun r => decide (r.1 % 0x1000 < PG_PTB_CTL.WORD.base) || decide (PG_PTB_STS.WORD.base < r.1 % 0x1000), ptbSteps := [] }

/-- The debug grant ends (R507): every perturbation register returns to its reset value and locks. -/
def State.endGrant (s : State) : State :=
  if s.mgmt.grant.isNone then s
  else
    let s := s.lockPtb
    let s := (s.updMgmt fun m => { m with grant := none }).wr64 SEC_DEBUG_END_LO.NOT_AFTER 0
    (s.logErr (s.mkErr Err.DEBUG_END sevInfo nodeWainil)).raiseIrq .sec 0 0

/-- A grant without IN_SERVICE ends when the package enters a serving state (R507). -/
def State.grantServes (s : State) (m : Member) : State :=
  match m, s.mgmt.grant with
  | .paired, some g => if g.1 / 4 % 2 = 1 then s else s.endGrant
  | .alone, some g => if g.1 / 4 % 2 = 1 then s else s.endGrant
  | .rejoining, some g => if g.1 / 4 % 2 = 1 then s else s.endGrant
  | _, _ => s

/-- Enter a membership state: PAIR_STS.STATE, its interrupt, and PAIR_ALIVE low in every state that does not toggle it (R421, R436, R551). -/
def State.setMember (s : State) (m : Member) : State :=
  if s.pair.member = m then s
  else
    let s := ((s.updPair fun p => { p with member := m }).raiseIrq .pair 0 0).grantServes m
    if m = .paired ∨ m = .alone ∨ m = .rejoining then s
    else (s.updPair fun p => { p with aliveOut := false }).emit (.pin "PAIR_ALIVE_OUT" false)

/-- The package takes no further part in a step. -/
def State.leaveStep (s : State) : State :=
  s.updStep fun p => { p with active := false, started := false, descs := [], takeWaits := [] }

/-- The 32 bytes of STEP_ABORT (R533). -/
def abortBytes (attempt : Nat) (code : Code) (origin : PkgId) (step : Nat) : Bytes :=
  let b := leBytes 1 0x11 ++ leBytes 1 attempt ++ leBytes 2 code.toNat ++ leBytes 1 origin.toNat ++ List.replicate 3 0 ++ leBytes 8 step ++
    List.replicate 16 0
  b.take 0x10 ++ leBytes 4 (crc32c b).toNat ++ b.drop 0x14

/-- This member halts with its household (R433): HOUSEHOLD_HALT in every partition, no further step; table, KV and slots are kept (DEDUCED, notes/assumptions/84.md). -/
def State.haltHere (s : State) : State :=
  if s.pair.member = .outside ∨ s.pair.member = .halted then s
  else
    let s := s.logErr (s.mkErr Err.HOUSEHOLD_HALT sevHousehold nodeHall)
    (s.stopAll.leaveStep).setMember .halted

/-- The household halts by what this member alone knows (R433). Every member is to halt: it tells the others with a STEP_ABORT of CODE HOUSEHOLD_HALT, since no
packet of the spec says so (DESIGN CHOICE, notes/assumptions/149.md). -/
def State.haltHousehold (s : State) : State :=
  if s.pair.member = .outside ∨ s.pair.member = .halted then s
  else (s.toOthers fun d => .chimney d (abortBytes s.step.attempt Err.HOUSEHOLD_HALT s.me s.step.id)).haltHere

/-- A home that leaves its service has nothing more to apply or to write: its partner applies its accepted records and delivers its results (R22, R435). -/
def State.dropHome (s : State) : State :=
  { s with accepted := [], deferred := []
           rings := SMap.mapVals Ring.reset (fun _ r => { r with held := [], due := [], unconfirmed := [], discarding := false, resetLeft := 0 }) s.rings }

/-- The package leaves its service and is OUT (R428, R429, R431). -/
def State.goOut (s : State) : State := s.leaveStep.dropHome.setMember .out

/-- A fault met between t3 and t6 stops bring-up at the stage where it arose (R512): FAIL and its code. -/
def State.failBringUp (s : State) (code : Code) : State :=
  if s.rd HAL_BOOT_STS.STAGE < 2 ∨ 4 < s.rd HAL_BOOT_STS.STAGE ∨ s.on HAL_BOOT_STS.FAIL then s
  else ((s.wr HAL_BOOT_STS.FAIL 1).wr HAL_BOOT_STS.FAIL_CODE code.toNat).raiseIrq .hal 0 2

/-- Hand the package's work over (R429, R433, R436): issue stops, HANDOVER goes out on the pair link, PAIR_ALIVE is held low, and the package
is OUT; a survivor's own hand-over leaves both members out and halts the household. -/
def State.handOver (s : State) : State :=
  match s.pair.member with
  | .paired =>
    let s := s.stopAll.emit .handover
    let s := s.logErr (s.mkErr Err.HANDOVER sevPackage nodeHall)
    s.goOut
  | .alone => (s.stopAll.emit .handover).haltHousehold
  | .rejoining => s.stopAll.goOut
  | _ => s

/-- An uncorrectable fault inside the package: its record, then the hand-over (R434). A fault of R80 or R82, or of the sweep, names a failed core (R92). -/
def State.fatal (s : State) (r : ErrRec) : State :=
  let core := decide (r.node < 0x1000) && [Err.LS_UNCORRECTABLE, Err.IMEM_UNCORRECTABLE, Err.SWEEP_CORE_FAIL].contains r.code
  let s := if core then s.updPair fun p => { p with failedCores := insertNat r.node p.failedCores } else s
  (s.logErr r).handOver

/-- Whether the package must stay out for a repair that comes before any rejoin: the power-on checks after an undervoltage (R464), a failed core to remap
(R92), a marked row to spare (R368), a plane of a wing that has lost both lanes (R444), or its own replacement (R93, R367, R415) (DEDUCED,
notes/assumptions/123.md). -/
def State.mustRepair (s : State) : Bool :=
  s.kept.condemned || s.power.issueCut || decide (s.power.railCut ≠ []) || decide (s.pair.failedCores ≠ []) || decide (s.cel.markedRows ≠ []) ||
    (List.range 4).any fun w => (List.range 8).any fun p => s.planeLost w p

/-- Whether a repair is still to be made before the package rejoins on its own: one that must come first, a bad shard (R330), a pair
link that is down (R420). -/
def State.repairsOpen (s : State) : Bool :=
  s.mustRepair || (s.slots.any fun e => decide (e.2.bad ≠ [])) || decide (s.pairLanes < 8)

/-- Whether the partner is ALONE, this package's work with it (R436). -/
def State.partnerAlone (s : State) : Bool :=
  s.pair.members.contains s.partner && !s.pair.lost.contains s.partner && s.pair.lost.contains s.me

/-- Begin the copy from the partner (R436, R437); PAIR_MAINT.REJOIN reads 0 unless it was written (R10). -/
def State.beginRejoin (s : State) : State := ((s.wr PAIR_MAINT.REJOIN 0).updPair fun p => { p with copyDone := false }).emit .rejoinStart |>.setMember .rejoining

/-- With AUTO_REJOIN an OUT package rejoins once its repairs are complete and its partner serves alone, unless it is kept out until replaced (R93, R367,
R415, R436). -/
def State.repaired (s : State) : State :=
  if s.pair.member = .out ∧ s.on PAIR_CTL.AUTO_REJOIN ∧ s.partnerAlone ∧ !s.repairsOpen then s.beginRejoin else s

/-! Aborting and restarting a step. -/

/-- Whether a fault repeats one of an earlier attempt (R535): the same code from the same descriptor, or outside descriptors at the same address. A
malformed pack repeats only at the same address (R32). -/
def State.isRepeat (s : State) (code : Code) (desc : Option (Nat × Nat)) (addr : Nat) : Bool :=
  s.step.faults.any fun f =>
    decide (f.code = code) && decide (f.attempt < s.step.attempt) && decide (f.desc = desc) &&
      ((desc.isSome && decide (code ≠ Err.PACK_FORMAT)) || decide (f.addr = addr))

/-- Mark sequences to be made ERRORED at the boundary that ends the step (R244). -/
def State.markErrored (s : State) (code : Code) (seqs : List Nat) : State :=
  s.updStep fun p => { p with toError := p.toError ++ seqs.map fun e => { handle := s.handle e, code := code } }

/-- Send STEP_ABORT for the attempt in progress to every member, this package among them (R533) (DEDUCED, notes/assumptions/47.md). -/
def State.sendAbort (s : State) (code : Code) : State :=
  let b := abortBytes s.step.attempt code s.me s.step.id
  (s.toMembers b).updPair fun p => { p with lastAbort := b, abortAt := s.rackTime }

/-- A fault of the step whose handling is an abort (R32, R533, R535). The first occurrence logs and sends STEP_ABORT to every member, this
package among them. A repeat marks `seqs` ERRORED and the step goes on (DEDUCED, notes/assumptions/14.md). With no step in progress the
fault is logged alone. -/
def State.raiseFault (s : State) (code : Code) (node : Nat) (ctx : Option Nat) (desc : Option (Nat × Nat)) (addr layer : Nat)
    (detail : Bytes) (seqs : List Nat) : State :=
  let r (sev : Nat) := s.mkErr code sev node addr none
    (match seqs with | e :: _ => if sev = sevSequence then s.handle e else 0 | [] => 0) ctx desc layer detail
  if !s.step.active then s.logErr (r sevInfo)
  else if s.isRepeat code desc addr then
    (s.logErr (r sevSequence)).markErrored code seqs
  else
    let s := s.logErr (r sevStep)
    (s.updStep fun p => { p with faults := p.faults ++ [{ code := code, attempt := p.attempt, desc := desc, addr := addr }] }).sendAbort code

/-- End the bulk transfers of an aborted attempt with REMOTE_ERR (R220, R125), and empty the message unit: receive queues unconfigured,
queued sends and held messages gone (R398). -/
def Core.endTransfers (k : Core) : Core :=
  let ls := k.dmas.foldl (fun m d => Memory.write m d.compl (completionWord 3 d.done)) k.ls
  { k with ls := ls, dmas := [], sends := [], rqs := [], recvOrder := [], held := [] }

/-- Packets discarded when a core's message unit empties its network input. -/
def State.countDiscards (s : State) : State :=
  s.cores.foldl (fun t r => if r.2.held = [] then t else t.bump FAB_HOLD.DISCARDS r.2.held.length (wingOf r.1)) s

/-- The step is ready to be taken: this package leads it or has compared its list, so the descriptors are built (R255). A step
whose seat still waits begins once it is made (R142). -/
def State.launch (s : State) : State := if s.step.active ∧ s.step.started ∧ s.step.seating = [] then s.openStep.countsHeld else s

/-- Steps 1 of R142: STOP to every context of every core. A TAKE that still waits at its steward is answered with STEP_END, so that the STOP takes
effect when that response arrives (R70; DEDUCED, notes/assumptions/28.md). -/
def State.stopForSeat (s : State) : State :=
  let s := s.step.takeWaits.foldl (fun s w => s.takeResult w.core w.ctx stepEndBytes) s
  (s.updStep fun p => { p with takeWaits := [] }).stopAll

/-- A step aborted at attempt 7 (R536): every sequence of its list is ERRORED, and the next step is built from the resulting table. -/
def State.retryLimit (s : State) : State :=
  let s := s.stepSeqs.foldl (fun s e =>
    (s.logErr (s.mkErr Err.STEP_RETRY_LIMIT sevSequence nodeHall 0 (some (s.seq e).part) (s.handle e))).toErrored e Err.STEP_RETRY_LIMIT) s
  s.dropReserved.buildList

/-- The attempt begins from the boundary: the same list, its check over the present header, broadcast afresh by the leader (R254, R431). No list of
descriptors stands until it is built. -/
def State.beginAttempt (s : State) : State :=
  let s := s.updStep fun p => { p with leader := s.leader, headers := [], sentHeaders := [], descs := [], built := false, walked := false, ended := [], routed := [],
                                       expertKnown := [],
                                       partDone := none, partnerMirror := none, contributed := false, contributions := [] }
  let s := s.updStep fun p => { p with check := s.listCheck }
  let s := s.wr SEQ_STEP_STS.ATTEMPT s.step.attempt
  if s.step.leader = s.me then (s.toOthers fun d => .workList d s.header).updStep fun p => { p with started := true }
  else s.updStep fun p => { p with started := false }

/-- The same step restarts with ATTEMPT increased by one (R431). -/
def State.retryStep (s : State) : State := (s.updStep fun p => { p with attempt := p.attempt + 1 }).beginAttempt

/-- A batch with the entry of a waiting PROGRAM_LOAD record given its code, in the place it has held since its boundary (R142, R287). -/
def answeredBatch (b : Batch) (r : CmdRec) (code : Code) : Batch :=
  if b.part = r.part then { b with entries := mapWhere (fun e => e.wait && decide (e.x = r.stamp)) (fun e => { e with wait := false, code := code }) b.entries }
  else b

/-- The RESULT of a waiting PROGRAM_LOAD of a home (R141, R142): in the batches due to this package's partitions, or in those kept for the partner's. -/
def answerLoad (x : PkgId × CmdRec) (code : Code) (s : State) : State :=
  let f (b : Batch) : Batch := answeredBatch b x.2 code
  if x.1 = s.me then s.updRing x.2.part.val fun g => { g with due := mapWhere (fun b => !b.replay) f g.due }
  else (s.updRing x.2.part.val fun g => { g with due := mapWhere (·.replay) f g.due }).updPair fun p => { p with partnerDue := p.partnerDue.map f }

/-- With every core HALTED, the seats that wait are made in order (R142, R328), a slot that waited for its contexts is freed (R327), and a PROGRAM_LOAD among
them is answered. -/
def State.finishSeating (s : State) : State :=
  let q := s.step.seating
  let s := s.updStep fun p => { p with seating := [], seatFailed := false }
  q.foldl (fun s x =>
    let s := if x.evict then s.evictSlot x.slot 0 else s.seat x.slot x.image
    match x.cmd with
    | some r => answerLoad r Err.OK s
    | none => s) s

/-- Seat the model slot of the step in progress (R328): at once where every core is HALTED, else once the wait of R142 ends. -/
def State.seatStep (s : State) : State :=
  if !s.step.active ∨ s.seated = some s.step.modelSlot then s
  else
    match s.currentImage s.step.modelSlot with
    | none => s
    | some i =>
      let s := s.stopForSeat
      if s.step.seating = [] ∧ s.allHalted then s.seat s.step.modelSlot i
      else
        s.updStep fun p => { p with seating := p.seating ++ [{ slot := p.modelSlot, image := i, load := false, cmd := none, since := s.rackTime }] }

/-! The leader's list (R255, R256). -/

/-- LIST_MISMATCH here, with `pairs` the pairs of which packages are known to report it against the same broadcast (R255, R256): with no other pair than its own
the package's work is handed over; otherwise the fault is the leader's, whose work goes to its partner, and no package starts the step. -/
def State.listMismatch (s : State) (pairs : List Nat) : State :=
  let alone := pairs.all fun p => decide (p = s.pairNum)
  let s := s.logErr (s.mkErr Err.LIST_MISMATCH (if alone then sevPackage else sevInfo) nodeHall)
  if alone then s.handOver else s.updStep fun p => { p with started := false }

/-- Whether a broadcast is of the attempt in progress. -/
def State.listIsNow (s : State) (h : ListHeader) : Bool := s.step.active && decide (h.stepId.toNat = s.step.id) && decide (h.attempt = s.step.attempt)

/-- Whether a broadcast is of a step or an attempt that this package has still to reach. -/
def State.listIsLater (s : State) (h : ListHeader) : Bool :=
  decide (s.step.id < h.stepId.toNat) || (decide (h.stepId.toNat = s.step.id) && decide (s.step.attempt < h.attempt))

/-- Compare the leader's broadcast with the list built here; the step starts where both checks agree, unless packages of more than one pair differ from
the broadcast (R255, R256). The leader itself then hands over. -/
def State.compareList (s : State) (h : ListHeader) (pairs : List Nat) : State :=
  let several := decide (1 < pairs.eraseDups.length)
  if s.step.leader = s.me then (if several then s.handOver else s)
  else if s.step.started then s
  else if h.digest = s.step.digest ∧ h.check = s.step.check then
    (if several then s else (s.updStep fun p => { p with started := true }).launch)
  else s.listMismatch pairs

/-- A broadcast held is compared once its attempt is in progress. -/
def State.takeList (s : State) : State :=
  match s.step.heldList with
  | none => s
  | some (h, n) =>
    if s.listIsNow h then (s.updStep fun p => { p with heldList := none }).compareList h n
    else if s.listIsLater h then s
    else s.updStep fun p => { p with heldList := none }

/-- Items 3 and 4 of R431: contexts stop, bulk transfers end, message units empty, EPOCH increases, barriers return to phase 0 (R135), the
local-store slot record is void (R192), and the step restarts from its boundary with its contexts started afresh (R73, R398). A TAKEOVER applied in an attempt
that has begun leads to no further count: the attempt begins again with the lists and the leader it gives (DEDUCED, notes/assumptions/84.md). -/
def State.restartAs (s : State) (counted : Bool) : State :=
  let s := s.countDiscards
  let s := (s.haltAll).mapCores fun _ k => k.endTransfers
  let s := { s with barriers := s.barriers.mapVals Barrier.reset fun _ b => { Barrier.reset with count := b.count },
                    wings := s.wings.mapVals WingSt.reset fun _ w => { w with xrack := [], xwait := [] } }
  let s := if counted then s.updPair fun p => { p with epoch := (p.epoch + 1) % 256 } else s
  let s := s.updStep fun p => { p with takeWaits := [], restartDue := false }
  let s := s.updKv fun k => { k with slots := [] }
  let s := if !s.step.active then s else if !counted then s.beginAttempt else if 7 ≤ s.step.attempt then s.retryLimit else s.retryStep
  let s := if s.step.seating = [] then s else s.finishSeating
  (if s.step.active ∧ s.seated ≠ some s.step.modelSlot then s.seatStep else s.startSeated).launch.takeList

/-- Items 3 and 4 of R431 as a restart, which ATTEMPT and EPOCH count. -/
def State.restartNow (s : State) : State := s.restartAs true

/-- The step restarts, once no shard waits to be re-hashed for a failing block (R352). -/
def State.restart (s : State) : State :=
  if s.cores.any fun k => decide (k.2.rehash ≠ []) then s.updStep fun p => { p with restartDue := true } else s.restartNow

/-! Context faults (R73, R144). -/

/-- Context `x` of core `c` enters FAULTED: CORE_FAULT keeps the first (R561). -/
def State.enterFaulted (s : State) (c x : Nat) (code : Code) : State :=
  let s := s.updCtx c x fun t => { t with st := .faulted, wait := .none, sink := none }
  let s := if s.on CORE_FAULT.VALID c then s
    else ((s.wr CORE_FAULT.VALID 1 c).wr CORE_FAULT.CTX x c).wr CORE_FAULT.CODE code.toNat c
  s.raiseIrq .core c 0

/-- The GROUP and INDEX of the descriptor a context works on. -/
def State.descId (s : State) (c x : Nat) : Option (Nat × Nat) := (s.descOf c x).map fun d => (d.group, d.index)

/-- The sequences of a context's work. -/
def State.workSeqs (s : State) (c x : Nat) : List Nat := match s.descOf c x with | some d => s.descSeqs d | none => s.stepSeqs

/-- A fault of the step in the work of a context (R32). -/
def State.stepFault (s : State) (c x : Nat) (code : Code) (addr : Nat) : State :=
  s.raiseFault code c (some x) (s.descId c x) addr (s.layerOf c x) [] (s.workSeqs c x)

/-- A context fault of the instruction word `w` at `pc`: the context is FAULTED and its descriptor, should the fault be a repeat, counts as retired, so that the step can end
without it (DEDUCED, notes/assumptions/14.md). -/
def State.ctxFaultAt (s : State) (c x : Nat) (code : Code) (addr : Nat) (w : Insn) (pc : BitVec 18) : State :=
  let rep := s.isRepeat code (s.descId c x) addr
  let s := (s.enterFaulted c x code).raiseFault code c (some x) (s.descId c x) addr (s.layerOf c x)
    (faultDetail w pc) (s.workSeqs c x)
  if rep then s.completeTaken c x else s

/-- A context fault of the instruction at the context's pc. -/
def State.ctxFault (s : State) (c x : Nat) (code : Code) (addr : Nat) (w : Insn) : State :=
  s.ctxFaultAt c x code addr w ((s.core c).ctx x).pc

end Sys2Proof.Machine
end

