-- ==== Sys2Proof/Machine/Issue.lean ====
section
/-!
DEFINITION. Issue (R66, R72, R106): the RUNNING context executes the word; the damper's issue tokens (R453); the order of local accesses against
queued hearth instructions (R160).
-/
namespace Sys2Proof.Machine

/-- The RUNNING context of core `c` issues word `w`: `f x` is the instruction's effect for context `x`. With no RUNNING context, or while issue
is held (R461, R464, R465, R469), nothing issues; a class the part does not define faults (R106). An instruction that faults at issue is no handshake in CORE_HS_CNT (DESIGN CHOICE,
notes/assumptions/115.md) (DEDUCED, notes/assumptions/59.md) (DEDUCED, notes/assumptions/60.md) (DEDUCED, notes/assumptions/63.md) (DEDUCED, notes/assumptions/91.md). -/
def State.issue (s : State) (c : Nat) (w : Insn) (f : Nat → State → State) : State :=
  if s.issueHeld c then s
  else
    match (s.core c).running with
    | none => s
    | some x => if badClass w then s.ctxFault c x Err.ILLEGAL_OP 0 w else f x s

/-- An instruction that a context finishes in issue: `g` changes its registers, then it advances. -/
def State.finish (s : State) (c x : Nat) (g : Ctx → Ctx) : State := (s.updCtx c x g).retire c x

/-- Whether wing of core `c` holds an issue token (R453) (DEDUCED, notes/assumptions/59.md). -/
def State.hasToken (s : State) (c : Nat) : Bool := decide (0 < SMap.get 0 s.power.budget (wingOf c))

/-- A hearth, vector or stream instruction takes an issue token before it starts; with none granted it waits in issue (R453) (DEDUCED, notes/assumptions/59.md) (DEDUCED, notes/assumptions/91.md).
In Glow no gated unit is active (R469): the package is Burning once one has work (R470). -/
def State.gated (s : State) (c : Nat) (f : State → State) : State :=
  let s := s.burn.updPower fun p => { p with asked := p.asked + 1 }
  if s.hasToken c then
    f (s.updPower fun p => { p with granted := p.granted + 1, idleSince := s.rackTime, budget := SMap.upd 0 p.budget (wingOf c) (· - 1) })
  else s

/-! The hearth's regions (R156). -/

/-- Fields of a hearth word (R155). -/
def hCA (w : Insn) : Nat := immBits w 31 25
def hCB (w : Insn) : Nat := immBits w 24 18
def hFMT (w : Insn) : Nat := immBits w 31 30
def hLayer (w : Insn) : Nat := immBits w 7 0
def hRelease (w : Insn) : Bool := decide (immBits w 29 29 = 1)

/-- Bytes of a tile with sidecar capacity `c` (R36). -/
def tileBytes (c : Nat) : Nat := 4096 + ceilDiv c 16 * 64

/-- Bytes of a row that WOUT writes. -/
def woutRow (w : Insn) : Nat := if hFMT w = 0 then 64 else 32

/-- Regions that a hearth instruction reads: (offset, bytes). -/
def HearthEntry.reads (h : HearthEntry) : List (Nat × Nat) :=
  match fOP h.w with
  | 0x01 => [(h.ra, tileBytes (hCA h.w)), (h.rb, tileBytes (hCB h.w))]
  | 0x02 => [(h.ra, 4096), (h.rb, 4096)]
  | 0x0A => [(h.ra, 16384)]
  | 0x0C => [(h.ra, 114688)]
  | _ => []

/-- Regions that a hearth instruction writes. -/
def HearthEntry.writes (h : HearthEntry) : List (Nat × Nat) :=
  match fOP h.w with
  | 0x08 => (List.range 32).map fun i => (h.ra + i * h.rb, woutRow h.w)
  | 0x09 => [(h.ra, 16384)]
  | 0x0C => [(h.rb, tileBytes (hCA h.w))]
  | _ => []

/-- Whether a region meets one of a list. -/
def meets (a n : Nat) (l : List (Nat × Nat)) : Bool := l.any fun r => decide (a < r.1 + r.2) && decide (r.1 < a + n)

/-- Whether a load of a region must wait for a queued hearth write (R160 item 3): the running instruction's work is done in this model when it
starts, so the entries after it count. -/
def Core.loadWaits (k : Core) (a n : Nat) : Bool := (k.hearthQ.drop 1).any fun h => meets a n h.writes

/-- Whether a store to a region must wait for a queued hearth instruction (R160 items 2 and 3). -/
def Core.storeWaits (k : Core) (a n : Nat) : Bool := (k.hearthQ.drop 1).any fun h => meets a n h.writes || meets a n h.reads

/-- Whether the context's own queued hearth instructions have still to write a region that its SEND or push DMA reads (R160 item 4). -/
def Core.sendWaits (k : Core) (x : Nat) : Bool := (k.hearthQ.drop 1).any fun h => decide (h.ctx = x) && decide (h.writes ≠ [])

/-! Perturbation (R545 to R547). -/

/-- Whether an armed injection of a KIND places an error at this opportunity of point `pt`, and the state that has made it (R545, R547) (DESIGN CHOICE, notes/assumptions/100.md). -/
def State.inject (s : State) (page pt kind addr : Nat) : Bool × State :=
  if s.on PG_PTB_STS.ACTIVE page ∧ s.rd PG_PTB_CTL.TARGET page / 2 ^ pt % 2 = 1 ∧ s.rd PG_PTB_INJ.KIND page = kind ∧ 0 < s.rd PG_PTB_STS.LEFT page ∧
      (s.on PG_PTB_CTL.ANY_ADDR page ∨ s.rd64 PG_PTB_ADDR_LO.ADDRESS page = addr) then
    (true, (s.wr PG_PTB_STS.LEFT (s.rd PG_PTB_STS.LEFT page - 1) page).bump PG_PTB_STS.INJECTED 1 page)
  else (false, s)

/-- What the code of a word shows once injected errors are added: KIND 1 flips one bit, KIND 2 two (R547). -/
def State.eccWith (s : State) (page pt addr : Nat) (e : Ecc) : Ecc × Bool × State :=
  let ce := s.inject page pt 1 addr
  let ue := ce.2.inject page pt 2 addr
  let e' := if e = .uncorrectable ∨ ue.1 then Ecc.uncorrectable else if e = .clean ∧ ce.1 then Ecc.corrected else e
  (e', ce.1 || ue.1, ue.2)

/-- A local-store word of core `c` at an offset is read: a corrected error counts (R80, R551); an uncorrectable one is withheld, logged, and
the package hands its work over. The result is none when the word is withheld. -/
def State.lsRead (s : State) (c off : Nat) (e : Ecc) : Bool × State :=
  let (e, injected, s) := s.eccWith (Block.core.page c) 1 off e
  match e with
  | .clean => (true, s)
  | .uncorrectable =>
    (false, s.fatal (s.mkErr Err.LS_UNCORRECTABLE sevPackage c (srfAddr s.me 0 (c * 2 ^ 20 + off)).toNat (injected := injected)))
  | _ => (true, ((s.bump CORE_LS_ECC.CE_COUNT 1 c).wr CORE_LS_ECC.LAST_BANK (off / 64 % 16) c).raiseIrq .core c 1)

/-- The words of a read of `n` bytes from an offset whose codes can show an error: those that the command names and, while a perturbation is
active in the page, every word, since an injection may strike it (R547). -/
def State.errWords (s : State) (page off n unit : Nat) (es : Errs) : List Nat :=
  let count := if n = 0 then 0 else (off + n - 1) / unit - off / unit + 1
  if s.on PG_PTB_STS.ACTIVE page then List.range count else (List.range count).filter fun k => es.any fun e => decide (e.1 = k)

/-- A read of `n` bytes of core `c`'s local store, word by word (R80): each corrected word counts, and the read is withheld whole when a word
of it is uncorrectable. -/
def State.lsReads (s : State) (c off n : Nat) (es : Errs) : Bool × State :=
  (s.errWords (Block.core.page c) off n 8 es).foldl (fun r k =>
    if r.1 then r.2.lsRead c (if k = 0 then off else (off / 8 + k) * 8) (Errs.at es k) else r) (true, s)

/-- A read of several regions one after the other: the words are counted through from the first region's first. -/
def State.lsRegions (s : State) (c : Nat) (gs : List (Nat × Nat)) (es : Errs) : Bool × State :=
  let r := gs.foldl (fun (r : (Bool × State) × Nat) g =>
    (if r.1.1 then r.1.2.lsReads c g.1 g.2 (Errs.after es r.2) else r.1, r.2 + ceilDiv g.2 8)) ((true, s), 0)
  r.1

end Sys2Proof.Machine
end

