-- ==== Sys2Proof/Machine/Guard.lean ====
section
/-!
DEFINITION. Who reaches a register page, and when it is served (R474, R475, R514, R554, R555, R558): the gate that every register write passes.
-/
namespace Sys2Proof.Machine

/-- The page that an offset of a requester's BAR0 names, as a PF page (R554, R555): a VF reaches its own directory, which the model keeps as page
16,384 + n beyond PF BAR0, and the POR page of its partition. None where the window has no such page (DEDUCED, notes/assumptions/98.md). -/
def reqPage (q : Requester) (off : Nat) : Option Nat :=
  match q with
  | .vf p =>
    match off / 0x1000 with
    | 0 => some (16384 + p.val)
    | 1 => some (16 + p.val)
    | _ => none
  | _ => some (off / 0x1000)

/-- The PF BAR0 offset that an offset of a requester's BAR0 names. -/
def reqOff (q : Requester) (off : Nat) : Option Nat := (reqPage q off).map fun p => p * 0x1000 + off % 0x1000

/-- The MSI-X function whose table or PBA a page of a requester's BAR0 holds, and whether it is the PBA (R554, R555). -/
def msixPage (q : Requester) (off : Nat) : Option (Nat × Bool) :=
  match q, off / 0x1000 with
  | .vf p, 2 => some (p.val + 1, false)
  | .vf p, 3 => some (p.val + 1, true)
  | .vf _, _ => none
  | _, 12 => some (0, false)
  | _, 13 => some (0, true)
  | _, _ => none

/-- The bring-up stage from which a block's pages are served (R514). -/
def Block.stage : Block → Nat
  | .dir | .hal | .mgt | .sec | .pwr | .thm | .pair | .swp => 1
  | .cel | .seq | .mdl | .por => 3
  | .wng | .lar | .cmp | .fab | .core => 4

/-- Whether the package is in recovery (R490). -/
def State.inRecovery (s : State) : Bool := decide (s.rd HAL_BOOT_STS.STAGE = 7)

/-- Whether a block's pages are served now (R474, R475, R514). In recovery, stage 7, BAR0 holds only the MGT page (R490) (DEDUCED, notes/assumptions/89.md). -/
def State.serves (s : State) (b : Block) : Bool :=
  let st := s.rd HAL_BOOT_STS.STAGE
  (if st = 7 then decide (b = .mgt) else decide (b.stage ≤ st) && !(s.mgmt.stalled && decide (b.stage = st))) &&
    match s.power.fire with
    | .smoored => (match b with | .pwr | .thm | .mgt => true | _ => false)
    | .banked => (match b with | .cel | .wng | .lar | .cmp | .fab | .core => false | _ => true)
    | _ => true

/-- Whether a requester may write the block's own registers (R558). Wainil reaches every page internally. -/
def mayWrite (q : Requester) (b : Block) (inst : Nat) : Bool :=
  match q with
  | .wainil => true
  | .pf => (match b with | .dir | .wng | .cmp | .core | .thm => false | _ => true)
  | .vf p => (match b with | .por => decide (inst = p.val) | _ => false)

/-- Whether a write by a requester to a block's own registers reaches them. -/
def State.takes (s : State) (q : Requester) (b : Block) (inst : Nat := 0) : Bool := s.hears q && s.serves b && mayWrite q b inst

/-- An access over PCIe, whose TLP returns the link to L0 (R475), or by Wainil: nothing where it does not arrive (R272). -/
def State.arrives (s : State) (q : Requester) (f : State → State) : Res :=
  .next (if s.hears q then f (if q = .wainil then s else s.linkActive) else s)

/-- An access to a page that is not served now: in Smoored it is logged as R12 has it (DEDUCED, notes/assumptions/44.md); before its bring-up stage
and in Banked it is not (R474, R475, R514). `off` is the offset in the requester's BAR0. -/
def State.missed (s : State) (q : Requester) (off : Nat) : State :=
  if s.power.fire = .smoored ∧ q ≠ .wainil then s.logRegAccess off else s

/-- The offset in a requester's BAR0 of a register of a block's page. -/
def reqAddr (q : Requester) (b : Block) (inst reg : Nat) : Nat :=
  match q with
  | .vf _ => 0x1000 + reg
  | _ => b.page inst * 0x1000 + reg

/-- A write by a requester to register `reg` of a block's page that starts an action: nothing where the page is not served or not writable by the
requester. -/
def State.action (s : State) (q : Requester) (b : Block) (inst reg : Nat) (f : State → State) : Res :=
  s.arrives q fun s => if s.takes q b inst then f s else if s.serves b then s else s.missed q (reqAddr q b inst reg)

end Sys2Proof.Machine
end

