-- ==== Sys2Proof/Machine/Results.lean ====
section
/-!
DEFINITION. The result rings (R283 to R298): batches as bytes, what fits, the hall buffer, ROOM, and the interrupts that signal them.
-/
namespace Sys2Proof.Machine

/-! Bytes. -/

/-- Whether a record shows any arithmetic flag. -/
def arithAny (a : ArithRec) : Bool := decide (a.sat + a.wlow + a.ovf + a.clamp + a.nonf ≠ 0)

/-- The 32 bytes of an entry (R286). -/
def entryBytes (e : ResEntry) : Bytes :=
  [e.kind, e.a] ++ leBytes 2 e.code.toNat ++ leBytes 4 e.handle.toNat ++ leBytes 4 e.x.toNat ++ leBytes 4 e.y.toNat ++
    leBytes 8 e.tag.toNat ++ leBytes 4 e.stepLo.toNat ++ leBytes 4 e.z.toNat

/-- Slots of a batch of `n` entries (R284): header, records block, entries, and a PAD for an odd number. -/
def batchSlots (n : Nat) : Nat := 4 + n + n % 2

/-- Header bytes 0x00 to 0x3B (R284). -/
def batchHeader (b : Batch) (n : Nat) (more held : Bool) : Bytes :=
  leBytes 8 b.stepId.toNat ++ leBytes 8 b.time ++ leBytes 4 n ++ leBytes 4 (batchSlots n) ++ [b.kind] ++
    leBytes 1 ((if b.replay then 16 else 0) + (if more then 8 else 0) + (if held then 4 else 0) + (if b.expert.count = 0 then 0 else 2) +
      (if arithAny b.arith then 1 else 0)) ++ List.replicate 34 0

/-- The records block (R284). -/
def recordsBlock (b : Batch) : Bytes :=
  if b.kind = 1 then arithBytes b.arith ++ expertBytes b.expert ++ List.replicate 16 0 else List.replicate 64 0

/-! The ring. -/

/-- Ring size in slots (R283). -/
def State.ringSize (s : State) (p : Nat) : Nat := 2 ^ s.rd POR_RING_SIZE.LOG2_SLOTS p

/-- Whether the partition's ring is enabled. -/
def State.ringOn (s : State) (p : Nat) : Bool := s.on POR_CTL.RING_ENABLE p

/-- Slots written and not yet consumed. -/
def Ring.used (r : Ring) : Nat := (r.prod - r.cons).toNat

/-- Free slots (R283). -/
def State.ringFree (s : State) (p : Nat) : Nat := s.ringSize p - (s.ring p).used

/-- Records a batch takes in the hall buffer: its entries and two for its header fields and records block (R289). -/
def batchRecords (b : Batch) : Nat := b.entries.length + 2

/-- Records held in a partition's hall buffer, POR_HELD. -/
def Ring.heldRecords (r : Ring) : Nat := r.held.foldl (fun n b => n + batchRecords b) 0

/-- Host address of free-running slot `i` (R283). -/
def State.slotBus (s : State) (p i : Nat) : Nat := s.rd64 POR_RING_BASE_LO.ADDRESS p + 32 * (i % s.ringSize p)

/-- A batch written (R292): signalled with the RESULT vector once COUNT batches wait. TIME_US = 0 sets no bound on the wait (DEDUCED,
notes/assumptions/24.md). PF0's own RESULT and HELD vectors are never raised (DESIGN CHOICE, notes/assumptions/144.md). -/
def State.signal (s : State) (p : Nat) : State :=
  let r := s.ring p
  let s := s.updRing p fun r =>
    { r with unsignalled := r.unsignalled + 1, firstUnsignalled := if r.unsignalled = 0 then s.rackTime else r.firstUnsignalled }
  if s.rd POR_IRQ_MOD.COUNT p ≤ r.unsignalled + 1 then (s.updRing p fun r => { r with unsignalled := 0 }).sendMsix (p + 1) 0 else s

/-- Write the first `n` entries of a batch into the ring in the three parts of R287: Relaxed Ordering is allowed for the first alone. -/
def State.writeBatch (s : State) (p : Nat) (b : Batch) (n : Nat) (more held : Bool) : State :=
  let i := (s.ring p).prod.toNat
  let es := b.entries.take n
  let body := (recordsBlock b).take 32 :: (recordsBlock b).drop 32 :: (es.map entryBytes ++ (if n % 2 = 1 then [List.replicate 32 0] else []))
  let s := ((List.range body.length).zip body).foldl (fun s (k, x) => s.emit (.hostWrite (s.slotBus p (i + 2 + k)) x true)) s
  let s := s.emit (.hostWrite (s.slotBus p i) (batchHeader b n more held))
  let s := s.emit (.hostWrite (s.slotBus p i + 0x3C) (leBytes 4 ((i / s.ringSize p + 1) % 2)))
  (s.updRing p fun r =>
    { r with prod := r.prod + BitVec.ofNat 32 (batchSlots n), written := true, unconfirmed := r.unconfirmed ++ [{ b with entries := es }] }).signal p

/-- Deferred entries of a partition in ascending entry index (R296). -/
def State.deferredOf (s : State) (p : Nat) : List Deferred :=
  sortBy (fun a b => decide (a.seq < b.seq)) (s.deferred.filter fun d => decide (d.part.val = p))

/-- Add to the last batch as many deferred entries as the free slots allow beyond it (R296). -/
def State.withDeferred (s : State) (p free : Nat) (b : Batch) : Batch × State :=
  let n := min (s.deferredOf p).length (free - 4 - b.entries.length)
  let ds := (s.deferredOf p).take n
  ({ b with entries := b.entries ++ ds.map (·.entry) }, { s with deferred := s.deferred.filter fun d => !ds.contains d })

/-- Whether a batch holds the entry of a PROGRAM_LOAD whose outcome is still to come (R142). -/
def waitingBatch (b : Batch) : Bool := b.entries.any (·.wait)

/-- The batches due that can be written: those before one that waits. -/
def Ring.ready (r : Ring) : List Batch := r.due.takeWhile fun b => !waitingBatch b

/-- The batches due from one that waits. -/
def Ring.later (r : Ring) : List Batch := r.due.dropWhile fun b => !waitingBatch b

/-- Whether a partition has a batch for the result writes. A package that is OUT or REJOINING is no sequence's home and writes none (R22). -/
def State.hasResult (s : State) (p : Nat) : Bool :=
  decide (s.pair.member ≠ .out) && decide (s.pair.member ≠ .rejoining) &&
    (decide ((s.ring p).held ≠ []) || decide ((s.ring p).ready ≠ []))

/-- The batches that the hall buffer takes: one that stands for deferred entries alone is not kept (R289, R296). -/
def keptBatches (bs : List Batch) : List Batch := bs.filter fun b => !b.alone

/-- Whether one of some batches carries entries of a step: MORE of an earlier one (R284). -/
def moreOf (step : DWord) (bs : List Batch) : Bool := bs.any fun x => decide (x.stepId = step) && decide (x.entries ≠ [])

/-- Write the oldest batch of a partition, with `hs` held after it and `ds` due: whole where it fits, and the last of all with the deferred entries that fit
(R296); else as far as whole entries fit, with MORE, and the rest stays in the buffer with what is due (R289). -/
def State.writeOldest (s : State) (p : Nat) (b : Batch) (hs ds : List Batch) : State :=
  let later := (s.ring p).later
  let free := s.ringFree p
  if batchSlots b.entries.length ≤ free then
    let (b, s) := if hs ++ ds ++ later = [] then s.withDeferred p free b else (b, s)
    let s := s.updRing p fun r => { r with held := hs, due := ds ++ later }
    if b.alone ∧ b.entries = [] then s else s.writeBatch p b b.entries.length (moreOf b.stepId (hs ++ ds ++ later)) (decide (hs ≠ []))
  else if 6 ≤ free ∧ b.entries ≠ [] then
    let n := free - 4
    let s := s.updRing p fun r => { r with held := { b with entries := b.entries.drop n } :: hs ++ keptBatches ds, due := later }
    s.writeBatch p b n true true
  else s.updRing p fun r => { r with held := keptBatches (b :: hs ++ ds), due := later }

/-- One turn of a partition (R267, R287, R289, R293): its oldest batch is written while its ring is enabled and the endpoint can write (R272), else what is due is held. HELD is
raised when the buffer leaves empty (R294) (DEDUCED, notes/assumptions/58.md). -/
def State.writeResults (s : State) (p : Nat) : State :=
  let r := s.ring p
  let s :=
    if s.ringOn p && s.hostOpen then
      match r.held, r.ready with
      | b :: hs, ds => s.writeOldest p b hs ds
      | [], b :: ds => s.writeOldest p b [] ds
      | [], [] => s
    else s.updRing p fun q => { q with held := keptBatches (r.held ++ r.ready), due := r.later }
  if r.held = [] ∧ (s.ring p).held ≠ [] then s.sendMsix (p + 1) 1 else s

/-- The next partition in turn for which a test holds, in ascending order from the one after the last served (R267). -/
def nextTurn (last : Nat) (work : Nat → Bool) : Option Nat := ((List.range 16).map fun i => (last + 1 + i) % 16).find? work

/-- Free slots and held records after batches of the given numbers of entries (R289, R290). -/
def fitSizes : List Nat → Nat → Nat × Nat
  | [], f => (f, 0)
  | n :: r, f =>
    let rest := r.foldl (fun a k => a + k + 2) 0
    if batchSlots n ≤ f then fitSizes r (f - batchSlots n)
    else if 6 ≤ f ∧ n ≠ 0 then (0, n - (f - 4) + 2 + rest)
    else (f, n + 2 + rest)

/-- ROOM of a partition whose ending step adds a batch of `n` entries (R290); `n` counts the tokens and the results due, and the deferred
entries it may carry. -/
def State.room (s : State) (p : Nat) (n : Option Nat) : Nat :=
  let sizes := ((s.ring p).held ++ (s.ring p).due).map (fun b => b.entries.length) ++ n.toList
  let (f, h) := if s.ringOn p then fitSizes sizes (s.ringFree p) else (0, (sizes.foldl (fun a k => a + k + 2) 0))
  ((f : Int) - 6 + (4096 - h) - 258).toNat

/-! Rows. -/

/-- A turn of the result writes: one batch of the next partition that has one (R267, R287, R289). -/
def execResultBatchWrite (s : State) : Res :=
  match nextTurn s.resultTurn s.hasResult with
  | none => .next s
  | some p => .next { s.writeResults p with resultTurn := p }

/-- The hold-back time of R292 has passed since the first batch not yet signalled. -/
def execIrqModerationTimeout (p : Part) (s : State) : Res :=
  let r := s.ring p.val
  let us := s.rd POR_IRQ_MOD.TIME_US p.val
  .next (if r.unsignalled ≠ 0 ∧ us ≠ 0 ∧ r.firstUnsignalled + 1000 * us ≤ s.rackTime then
      (s.updRing p.val fun r => { r with unsignalled := 0 }).sendMsix (p.val + 1) 0
    else s)

/-- The batches that stay unconfirmed when a step is: those of later steps. -/
def stillOpen (step : DWord) (p : Part) (bs : List Batch) : List Batch := bs.filter fun b => decide (b.part ≠ p) || decide (step.toNat < b.stepId.toNat)

/-- The partner has confirmed a step of a partition of its own: what it would leave to this package shrinks (R298). -/
def State.peerConfirmed (s : State) (p : Part) (step : DWord) : State :=
  s.updPair fun q =>
    { q with mirrored := q.mirrored.map fun m => { m with held := stillOpen step p m.held, unconfirmed := stillOpen step p m.unconfirmed },
             partnerDue := stillOpen step p q.partnerDue }

/-- A read of the ring after the PHASE_WORD write confirms its batches, and the partner is told the step, once no part of that step is still held
(R298; DEDUCED, notes/assumptions/82.md). `peer` is the partner's confirmation arriving here. -/
def execBatchConfirm (p : Part) (step : DWord) (peer : Bool) (s : State) : Res :=
  let r := s.ring p.val
  if peer then .next (s.peerConfirmed p step)
  else if (r.unconfirmed.any fun b => decide (b.stepId = step)) ∧ !((r.held ++ r.due).any fun b => decide (b.stepId = step)) then
    .next ((s.updRing p.val fun r => { r with confirmed := step, unconfirmed := stillOpen step p r.unconfirmed }).emit (.confirmed p step))
  else .next s

end Sys2Proof.Machine
end

