-- ==== Sys2Proof/Machine/Porch.lean ====
section
/-!
DEFINITION. The porch (R273 to R279, R291, R293, R299): a record written to its slot, the examination of the expected slot by hall steward 0, TORN, the
unbacked part of the aperture, and POR_CTL. A command's effect comes at the next boundary (`State.runCmd`).
-/
namespace Sys2Proof.Machine

/-- The record in the slot of the expected stamp (R277). -/
def Porch.expected (p : Porch) : Bytes := Memory.read p.mem (128 * (p.next.toNat % 8192)) 128

/-- Whether the expected slot shows the expected stamp. -/
def Porch.shows (p : Porch) : Bool := decide (fieldAt p.expected 0x7C 4 = p.next.toNat)

/-- Whether the check of a record holds (R276). -/
def recordCheck (b : Bytes) : Bool := decide ((crc32c (b.take 0x78 ++ b.drop 0x7C)).toNat = fieldAt b 0x78 4)

/-- A member of a household with no step in progress reports pending work to the leader (R246). -/
def State.reportWork (s : State) : State :=
  if s.step.active ∨ s.leader = s.me ∨ (s.pair.member ≠ .paired ∧ s.pair.member ≠ .alone) then s else s.emit (.workReport s.leader)

/-- Accept the record of the expected slot, whole or as TORN (R277, R279): it is mirrored to the partner before NEXT advances (R424) (DEDUCED, notes/assumptions/83.md). -/
def State.accept (s : State) (p : Nat) (torn : Bool) : State :=
  let q := s.porch p
  let r : CmdRec :=
    { part := BitVec.toFin (BitVec.ofNat 4 p), stamp := q.next, time := s.rackTime, torn := torn, bytes := q.expected,
      admin := decide (s.rd MDL_CTL.ADMIN_MASK / 2 ^ p % 2 = 1) }
  let s := { s with accepted := s.accepted ++ [r] }
  let s := if s.pair.member = .paired ∨ s.pair.copying then s.emit (.mirrorRecord r) else s
  let s := { s.reportWork with porchTurn := p }
  let s := if torn then (s.bump POR_TORN.COUNT 1 p).raiseIrq .por p 0 else s
  s.updPorch p fun q => { q with next := q.next + 1, tornFrom := none, accepted := q.accepted + 1 }

/-- Hall steward 0 may examine the porch: enabled, awake, and fewer than 256 records accepted since the last boundary (R291). -/
def State.mayExamine (s : State) (p : Nat) : Bool :=
  s.on POR_CTL.PORCH_ENABLE p && !s.resting && decide ((s.porch p).accepted < 256)

/-- Whether an injected CHECK error strikes the read of a record (R545, R547): the check of that read fails, and the slot is read again (DESIGN CHOICE,
notes/assumptions/100.md). -/
def State.porchInject (s : State) (p : Nat) : Bool × State := s.inject (Block.por.page p) 0 3 0

/-- Examine the expected slot, and the next ones while each is accepted (R277, R279). No window runs while the porch is disabled or the household rests. -/
def State.examineFrom : Nat → State → Nat → State
  | 0, s, _ => s
  | n + 1, s, p =>
    let q := s.porch p
    if !s.on POR_CTL.PORCH_ENABLE p ∨ s.resting then s.updPorch p fun q => { q with tornFrom := none }
    else if !s.mayExamine p then s
    else if !q.shows then s.updPorch p fun q => { q with tornFrom := none }
    else if recordCheck q.expected then
      let i := s.porchInject p
      State.examineFrom n (if i.1 then i.2 else s.accept p false) p
    else if q.tornFrom.isSome then s
    else s.updPorch p fun q => { q with tornFrom := some s.rackTime }

/-- Examine a porch: at most 256 records are accepted between two boundaries (R291). -/
def State.examine (s : State) (p : Nat) : State := State.examineFrom 257 s p

/-- Whether the expected slot of a porch holds a record that can be accepted now. -/
def State.hasRecord (s : State) (p : Nat) : Bool := s.mayExamine p && (s.porch p).shows && recordCheck (s.porch p).expected

/-- Accept records in turns of one, partition after partition (R267), at most `n` of them. -/
def State.acceptTurns : Nat → State → State
  | 0, s => s
  | n + 1, s =>
    match nextTurn s.porchTurn s.hasRecord with
    | none => s
    | some p =>
      let i := s.porchInject p
      State.acceptTurns n (if i.1 then i.2 else s.accept p false)

/-- Examine every porch, as at a boundary: the records that can be accepted, in turns (R267, R291), and then what each expected slot shows. -/
def State.examineAll (s : State) : State := (List.range 16).foldl State.examine (s.acceptTurns 4096)

/-- A record is written to the slot of its stamp, and the expected slot is examined (R276 to R279). A record shorter than 128 bytes is filled with
zeros; in Smoored the write is discarded (R474), on a link that carries no traffic none arrives (R272), and in recovery no porch is there (R490). -/
def State.submit (s : State) (p : Nat) (rec : Bytes) : State :=
  let b := (rec ++ List.replicate (128 - rec.length) 0).take 128
  if s.power.fire = .smoored ∨ !s.pcie.up ∨ s.inRecovery then s
  else (s.linkActive.updPorch p fun q => { q with mem := Memory.write q.mem (128 * (fieldAt b 0x7C 4 % 8192)) b }).examine p

/-- A write of POR_CTL (R299): a reset of an enabled ring or porch refuses the write. RING_RESET also takes the consumer index as zero, which
R293 requires of the consumer word (DEDUCED, notes/assumptions/74.md). -/
def State.porCtl (s : State) (p v : Nat) : State :=
  let off := Block.por.page p * 0x1000 + 0x100
  if bitsN v 3 3 = 1 ∧ s.ringOn p then s.conflict off Err.RING_LIVE
  else if bitsN v 2 2 = 1 ∧ s.on POR_CTL.PORCH_ENABLE p then s.conflict off Err.PORCH_LIVE
  else
    let s := if bitsN v 3 3 = 1 then s.updRing p fun r => { r with prod := 0, cons := 0, consTaken := false } else s
    let s := if bitsN v 2 2 = 1 then (s.updPorch p fun q => { q with next := 1, tornFrom := none }).wr POR_TORN.COUNT 0 p else s
    let s := if bitsN v 1 1 = 1 ∧ !s.ringOn p then s.updRing p fun r => { r with consTaken := false } else s
    ((s.wr POR_CTL.RING_ENABLE (bitsN v 1 1) p).wr POR_CTL.PORCH_ENABLE (bitsN v 0 0) p).examine p

/-- RING_RESET (R293, R299). -/
def execRingReset (q : Requester) (p : Part) (v : Word) (s : State) : Res :=
  s.action q .por p.val 0x100 fun s => s.porCtl p.val (v ||| 8).toNat

/-- PORCH_RESET (R277, R299). -/
def execPorchReset (q : Requester) (p : Part) (v : Word) (s : State) : Res :=
  s.action q .por p.val 0x100 fun s => s.porCtl p.val (v ||| 4).toNat

/-! The commands. Each row writes a record; the rest of its meaning stands at the boundary, in `State.runCmd`. -/

/-- NOP (R280). -/
def execNop (p : Part) (rec : Bytes) (s : State) : Res := .next (s.submit p.val rec)

/-- ADMIT (R241, R281). -/
def execAdmitSeq (p : Part) (rec : Bytes) (s : State) : Res := .next (s.submit p.val rec)

/-- CANCEL (R240). -/
def execCancel (p : Part) (rec : Bytes) (s : State) : Res := .next (s.submit p.val rec)

/-- PAUSE (R193). -/
def execPause (p : Part) (rec : Bytes) (s : State) : Res := .next (s.submit p.val rec)

/-- RESUME (R197). -/
def execResume (p : Part) (rec : Bytes) (s : State) : Res := .next (s.submit p.val rec)

/-- SET_PRIORITY (R240). -/
def execSetPriority (p : Part) (rec : Bytes) (s : State) : Res := .next (s.submit p.val rec)

/-- BUDGET (R261). -/
def execBudget (p : Part) (rec : Bytes) (s : State) : Res := .next (s.submit p.val rec)

/-- QUERY (R282). -/
def execQuery (p : Part) (rec : Bytes) (s : State) : Res := .next (s.submit p.val rec)

/-- PROGRAM_LOAD (R141, R142). -/
def execProgramLoad (p : Part) (rec : Bytes) (s : State) : Res := .next (s.submit p.val rec)

/-- LOAD (R314, R315). -/
def execLoad (p : Part) (rec : Bytes) (s : State) : Res := .next (s.submit p.val rec)

/-- DRAIN (R314). -/
def execDrain (p : Part) (rec : Bytes) (s : State) : Res := .next (s.submit p.val rec)

/-- EVICT (R314). -/
def execEvict (p : Part) (rec : Bytes) (s : State) : Res := .next (s.submit p.val rec)

/-- SLOT_QUERY (R314). -/
def execSlotQuery (p : Part) (rec : Bytes) (s : State) : Res := .next (s.submit p.val rec)

/-- RECHECK (R314). -/
def execRecheck (p : Part) (rec : Bytes) (s : State) : Res := .next (s.submit p.val rec)

/-- A record of an undefined opcode (R280). -/
def execBadOpcode (p : Part) (rec : Bytes) (s : State) : Res := .next (s.submit p.val rec)

/-- The window of R279 ends: the record of the expected slot is accepted as TORN when its check has failed for 10 µs. -/
def execTorn (p : Part) (s : State) : Res :=
  let q := s.porch p.val
  match q.tornFrom with
  | none => .next s
  | some t =>
    if t + 10000 ≤ s.rackTime ∧ s.mayExamine p.val ∧ q.shows ∧ !recordCheck q.expected then .next ((s.accept p.val true).examine p.val)
    else .next s

/-- A word written to the backed part of a porch aperture, and the expected slot examined (R274, R277). -/
def State.porchStore (s : State) (p off : Nat) (w : Word) : State :=
  if s.power.fire = .smoored then s
  else (s.updPorch p fun q => { q with mem := Memory.write q.mem off (leBytes 4 w.toNat) }).examine p

/-- An access to BAR2 in recovery (R490): PF0 alone is presented, and the first 12 MiB of its BAR2 map the update buffer. Elsewhere nothing answers
(DEDUCED, notes/assumptions/89.md). -/
def State.recoveryAccess (s : State) (q : Requester) (p : Part) (off : BitVec 24) (w : Option Word) : State :=
  if q = .pf ∧ p.val = 0 ∧ off.toNat < 12 * 2 ^ 20 then
    match w with
    | some v => s.updMgmt fun m => { m with window := SMap.set 0 m.window (off.toNat / 4) v }
    | none => s.emit (.readData q (SMap.get 0 s.mgmt.window (off.toNat / 4)))
  else if w.isSome then s else s.emit (.readData q 0xFFFFFFFF)

/-- An access of one word at an offset of a porch aperture, by the PF or the partition's VF (R274); none is a read. The backed part returns its contents
without a side effect and takes a write. In the unbacked part a read returns all ones and a write is discarded; it is logged once per partition until
PG_ERR_CNT is cleared. -/
def execPorchUnbackedAccess (q : Requester) (p : Part) (off : BitVec 24) (w : Option Word) (s : State) : Res :=
  s.arrives q fun s =>
    if q ≠ .pf ∧ q ≠ .vf p then s
    else if s.inRecovery then s.recoveryAccess q p off w
    else if off.toNat < 0x100000 then
      match w with
      | some v => s.porchStore p.val (off.toNat / 4 * 4) v
      | none =>
        if s.power.fire = .smoored then s.emit (.readData q 0xFFFFFFFF)
        else s.emit (.readData q (BitVec.ofNat 32 (leNat (Memory.read (s.porch p.val).mem (off.toNat / 4 * 4) 4))))
    else
      let s := if s.power.fire = .smoored then s
        else (s.logErr (s.mkErr Err.POR_UNBACKED sevInfo nodeHall off.toNat (some p.val)) p.val).raiseIrq .por p.val 2
      if w.isSome then s else s.emit (.readData q 0xFFFFFFFF)

end Sys2Proof.Machine
end

