-- ==== Sys2Proof/Machine/Float.lean ====
section
/-!
DEFINITION. The number formats: FP32, BF16, FP8 E4M3, FP4 E2M1 and INT4 as exact values, and one rounding to nearest, ties to even (R33, R34,
R52, R163).
-/
namespace Sys2Proof.Machine

/-- A decoded number: `fin neg m e` is (−1)^neg × m × 2^e. -/
inductive Fp where
  | nan
  | inf (neg : Bool)
  | fin (neg : Bool) (m : Nat) (e : Int)
  deriving DecidableEq, Repr

/-- Divide by 2^d with one rounding to nearest, ties to even. -/
def shrRne (m d : Nat) : Nat :=
  let q := m / 2 ^ d
  let r := m % 2 ^ d
  if 2 * r > 2 ^ d ∨ (2 * r = 2 ^ d ∧ q % 2 = 1) then q + 1 else q

/-- Code of the magnitude m × 2^e in a format of precision `p` whose smallest step is 2^emin, without an upper bound: exponent and fraction
fields follow on from each other, so a carry out of the fraction lands in the exponent. -/
def roundCode (p : Nat) (emin : Int) (m : Nat) (e : Int) : Nat :=
  if m = 0 then 0
  else
    let q := max ((m.log2 + 1 : Nat) + e - p) emin
    let n := if q ≤ e then m * 2 ^ (e - q).toNat else shrRne m (q - e).toNat
    (q - emin).toNat * 2 ^ (p - 1) + n

/-- Decode a code of a format: precision `p`, smallest step 2^emin. -/
def codeValue (p : Nat) (emin : Int) (c : Nat) : Nat × Int :=
  let x := c / 2 ^ (p - 1)
  if x = 0 then (c, emin) else (c % 2 ^ (p - 1) + 2 ^ (p - 1), emin + (x - 1 : Nat))

/-- Decode an FP32 word. -/
def fpOf32 (w : BitVec 32) : Fp :=
  let neg := w.getLsbD 31
  let c := w.toNat % 2 ^ 31
  if 0x7F800000 < c then .nan else if c = 0x7F800000 then .inf neg else .fin neg (codeValue 24 (-149) c).1 (codeValue 24 (-149) c).2

/-- The sign bit in place. -/
def signBit (neg : Bool) (n : Nat) : Nat := if neg then 2 ^ n else 0

/-- Encode in FP32 with one rounding; every NaN is 0x7FC0_0000 (R163). -/
def fpTo32 : Fp → BitVec 32
  | .nan => 0x7FC00000
  | .inf neg => BitVec.ofNat 32 (signBit neg 31 + 0x7F800000)
  | .fin neg m e => BitVec.ofNat 32 (signBit neg 31 + min 0x7F800000 (roundCode 24 (-149) m e))

/-- Decode a BF16 word. -/
def fpOf16 (h : Nat) : Fp := fpOf32 (BitVec.ofNat 32 (h * 65536))

/-- Encode in BF16 with one rounding, overflow to infinity (R163). -/
def fpTo16 : Fp → Nat
  | .nan => 0x7FC0
  | .inf neg => signBit neg 15 + 0x7F80
  | .fin neg m e => signBit neg 15 + min 0x7F80 (roundCode 8 (-133) m e)

/-- Write out to BF16 (R52, R53, R55): the code, whether the value saturated, whether it was not finite. -/
def wout16 : Fp → Nat × Bool × Bool
  | .nan => (0x7FC0, false, true)
  | .inf neg => (signBit neg 15 + 0x7F80, false, true)
  | .fin neg m e => let c := roundCode 8 (-133) m e; (signBit neg 15 + min 0x7F7F c, decide (0x7F7F < c), false)

/-- Write out to FP8 E4M3 (R52, R53, R55). -/
def wout8 : Fp → Nat × Bool × Bool
  | .nan => (0x7F, false, true)
  | .inf neg => (signBit neg 7 + 0x7E, false, true)
  | .fin neg m e => let c := roundCode 4 (-9) m e; (signBit neg 7 + min 0x7E c, decide (0x7E < c), false)

/-- Decode an FP8 E4M3 byte. -/
def fpOf8 (b : Nat) : Fp :=
  let c := b % 128
  if c = 0x7F then .nan else .fin (decide (128 ≤ b % 256)) (codeValue 4 (-9) c).1 (codeValue 4 (-9) c).2

/-- Decode an FP4 E2M1 element in halves: twice its value (R33). -/
def fp4Twice (c : Nat) : Int :=
  let mag : Int := match c % 8 with | 0 => 0 | 1 => 1 | 2 => 2 | 3 => 3 | 4 => 4 | 5 => 6 | 6 => 8 | _ => 12
  if 8 ≤ c % 16 then -mag else mag

/-- An exact value as an integer at a common exponent `q ≤ e`. -/
def fpInt (neg : Bool) (m : Nat) (e q : Int) : Int := let v : Int := (m * 2 ^ (e - q).toNat : Nat); if neg then -v else v

/-- The number of an integer times 2^q. -/
def fpOfInt (v q : Int) : Fp := .fin (decide (v < 0)) v.natAbs q

/-- Negate. -/
def fpNeg : Fp → Fp
  | .nan => .nan
  | .inf n => .inf (!n)
  | .fin n m e => .fin (!n) m e

/-- The exact sum; a zero sum of opposite signs is +0 (R163, IEEE 754 round to nearest). -/
def fpAdd : Fp → Fp → Fp
  | .nan, _ => .nan
  | _, .nan => .nan
  | .inf a, .inf b => if a = b then .inf a else .nan
  | .inf a, .fin _ _ _ => .inf a
  | .fin _ _ _, .inf b => .inf b
  | .fin na ma ea, .fin nb mb eb =>
    let q := min ea eb
    let v := fpInt na ma ea q + fpInt nb mb eb q
    if v = 0 then .fin (na && nb) 0 q else fpOfInt v q

/-- The exact product. -/
def fpMul : Fp → Fp → Fp
  | .nan, _ => .nan
  | _, .nan => .nan
  | .inf a, .inf b => .inf (a != b)
  | .inf a, .fin nb mb _ => if mb = 0 then .nan else .inf (a != nb)
  | .fin na ma _, .inf b => if ma = 0 then .nan else .inf (na != b)
  | .fin na ma ea, .fin nb mb eb => .fin (na != nb) (ma * mb) (ea + eb)

/-- Whether a is less than b; false with a NaN; zeros are equal. -/
def fpLt : Fp → Fp → Bool
  | .nan, _ => false
  | _, .nan => false
  | .inf a, .inf b => a && !b
  | .inf a, .fin _ _ _ => a
  | .fin _ _ _, .inf b => !b
  | .fin na ma ea, .fin nb mb eb => let q := min ea eb; decide (fpInt na ma ea q < fpInt nb mb eb q)

/-- Whether a equals b; false with a NaN. -/
def fpEq : Fp → Fp → Bool
  | .nan, _ => false
  | _, .nan => false
  | a, b => !fpLt a b && !fpLt b a

/-- Whether a number is NaN. -/
def Fp.isNan : Fp → Bool
  | .nan => true
  | _ => false

/-- The magnitude as FP32 orders it: −∞ below every finite value, a NaN with −∞ (R165). -/
def fpOrd : Fp → Fp
  | .nan => .inf true
  | x => x

/-- The larger of two logits or list values, a NaN as −∞. -/
def fpMax (a b : Fp) : Fp := if fpLt (fpOrd a) (fpOrd b) then fpOrd b else fpOrd a

/-- Whether FP32 word `y` lies within one ulp of 1 ÷ (m × 2^e), the ulp taken at the exact result (R58). -/
def rcpNear (m : Nat) (e : Int) (y : BitVec 32) : Bool :=
  match fpOf32 y with
  | .fin _ my ey =>
    let fl : Int := -(m.log2 + e) - (if m = 2 ^ m.log2 then 0 else 1)
    let u := max (fl - 23) (-149)
    -- |y·x − 1| ≤ 2^u·x, all at exponent q
    let q := min (min (ey + e) 0) (u + e)
    decide ((fpInt false (my * m) (ey + e) q - fpInt false 1 0 q).natAbs ≤ (fpInt false m (u + e) q).natAbs)
  | _ => false

/-- The integer square root, by bits. -/
def isqrt (n : Nat) : Nat := (List.range (n.log2 / 2 + 1)).foldr (fun i r => if (r + 2 ^ i) * (r + 2 ^ i) ≤ n then r + 2 ^ i else r) 0

/-- Whether FP32 word `y` lies within one ulp of 1 ÷ √(m × 2^e), the ulp taken at the exact result (R58). -/
def rsqrtNear (m : Nat) (e : Int) (y : BitVec 32) : Bool :=
  match fpOf32 y with
  | .fin true _ _ => false
  | .fin false my ey =>
    -- floor of log2 of the result: −t/2 where x lies in [2^t, 2^(t+1))
    let t : Int := m.log2 + e
    let fl : Int := if m = 2 ^ m.log2 ∧ t % 2 = 0 then -(t / 2) else -(t / 2) - 1
    let u := max (fl - 23) (-149)
    let q := min ey u
    let yi := fpInt false my ey q
    let ui := fpInt false 1 u q
    -- (y − u)²·x ≤ 1 ≤ (y + u)²·x
    let k := min (2 * q + e) 0
    let sq (v : Int) : Int := fpInt false (v.natAbs * v.natAbs * m) (2 * q + e) k
    decide (yi ≤ ui ∨ sq (yi - ui) ≤ fpInt false 1 0 k) && decide (fpInt false 1 0 k ≤ sq (yi + ui))
  | _ => false

/-- Whether FP32 word `y` lies within 2^u of every number from `lo` × 2^q to `hi` × 2^q. -/
def nearRange (lo hi q u : Int) (y : BitVec 32) : Bool :=
  match fpOf32 y with
  | .fin neg my ey =>
    let k := min (min ey q) u
    let v := fpInt neg my ey k
    let w := fpInt false 1 u k
    decide (v ≤ lo * 2 ^ (q - k).toNat + w) && decide (hi * 2 ^ (q - k).toNat ≤ v + w)
  | _ => false

/-- 2^(n ÷ 2^j) × 2^256 from below, for n < 2^j: the product of the roots 2^(2^−i) of the bits of n. -/
def exp2Frac (n j : Nat) : Nat :=
  ((List.range j).foldl (fun (p : Nat × Nat) i =>
    let r := isqrt (p.2 * 2 ^ 256)
    (if n / 2 ^ (j - 1 - i) % 2 = 1 then p.1 * r / 2 ^ 256 else p.1, r)) (2 ^ 256, 2 ^ 257)).1

/-- Bounds of 2^x, x = ±m × 2^e, as integers times 2^q, and the exponent of its ulp (R58). -/
def exp2Bounds (neg : Bool) (m : Nat) (e : Int) : Int × Int × Int × Int :=
  let j := (-e).toNat
  let x : Int := fpInt neg m e (min e 0)
  let n := Int.fdiv x (2 ^ j)
  let f := (Int.fmod x (2 ^ j)).toNat
  let lo : Int := exp2Frac f j
  (lo, if f = 0 then lo else lo + 2 ^ 16, n - 256, max (n - 23) (-149))

/-- Whether FP32 word `y` lies within one ulp of 2^x (R58). -/
def exp2Near (neg : Bool) (m : Nat) (e : Int) (y : BitVec 32) : Bool :=
  let b := exp2Bounds neg m e
  !y.getLsbD 31 && nearRange b.1 b.2.1 b.2.2.1 b.2.2.2 y

/-- log2 of m ÷ 2^⌊log2 m⌋, times 2^128, from below: one bit for each squaring. -/
def log2Frac (m : Nat) : Nat :=
  ((List.range 128).foldl (fun (p : Nat × Nat) _ =>
    let z := p.2 * p.2 / 2 ^ 512
    if 2 ^ 513 ≤ z then (2 * p.1 + 1, z / 2) else (2 * p.1, z)) (0, m * 2 ^ (512 - m.log2))).1

/-- Bounds of log2 (m × 2^e) × 2^128, and the exponent of the error allowed: an ulp outside [0.75, 1.5], 2^−24 within it (R58). -/
def log2Bounds (m : Nat) (e : Int) : Int × Int × Int :=
  let lo : Int := (m.log2 + e) * 2 ^ 128 + log2Frac m
  let x := Fp.fin false m e
  let within := !fpLt x (.fin false 3 (-2)) && !fpLt (.fin false 3 (-1)) x
  (lo, if m = 2 ^ m.log2 then lo else lo + 2 ^ 8, if within then -24 else (lo.natAbs.log2 : Int) - 128 - 23)

/-- Whether FP32 word `y` lies within the bound of log2 (m × 2^e) (R58). -/
def log2Near (m : Nat) (e : Int) (y : BitVec 32) : Bool :=
  let b := log2Bounds m e
  nearRange b.1 b.2.1 (-128) b.2.2 y

end Sys2Proof.Machine
end

