-- ==== Sys2Proof/Machine/Vector.lean ====
section
/-!
DEFINITION. The vector unit (R162 to R165).
-/
namespace Sys2Proof.Machine

/-- TYPE of a vector instruction (R162). -/
def vTYPE (w : Insn) : Nat := immBits w 1 0
def tFP32 : Nat := 0
def tBF16 : Nat := 1
def tINT32 : Nat := 2

/-- The legality of a vector word: its OP, the TYPEs it accepts, and the IMM bits from `used` up, which are reserved (R162) (DEDUCED, notes/assumptions/60.md). -/
def vLegal (w : Insn) (op : Nat) (types : List Nat) (used : Nat) : Bool :=
  decide (fOP w = op) && types.contains (vTYPE w) && decide (immBits w 31 used = 0)

/-- A vector instruction: illegal words fault; otherwise it takes an issue token and `g` changes its context (R106, R162, R453). -/
def State.vec (s : State) (c : CoreId) (w : Insn) (legal : Bool) (g : Ctx → Ctx) : State :=
  s.issue c w fun x s =>
    if !legal then s.ctxFault c x Err.ILLEGAL_OP 0 w
    else s.gated c fun s => s.finish c x g

/-- Lane `i` of a register. -/
def VReg.lane (v : VReg) (i : Nat) : BitVec 32 := v.getD i 0

/-- A lane of a TYPE as a number, and a number as a lane of a TYPE (R162, R163). -/
def laneVal (ty : Nat) (l : BitVec 32) : Fp := if ty = tBF16 then fpOf16 (l.toNat / 65536) else fpOf32 l
def laneOf (ty : Nat) (v : Fp) : BitVec 32 := if ty = tBF16 then BitVec.ofNat 32 (fpTo16 v * 65536) else fpTo32 v

/-- A BF16 result writes zero to bits [15:0] (R162) (DEDUCED, notes/assumptions/101.md). -/
def laneTrim (ty : Nat) (l : BitVec 32) : BitVec 32 := if ty = tBF16 then l &&& 0xFFFF0000 else l

/-- A lane-wise instruction over RA, RB and RC. -/
def vmap (w : Insn) (f : BitVec 32 → BitVec 32 → BitVec 32 → BitVec 32) (t : Ctx) : Ctx :=
  let a := t.vreg (fRA w)
  let b := t.vreg (fRB w)
  let d := t.vreg (fRC w)
  t.setVreg (fRD w) ((List.range 32).map fun i => f (VReg.lane a i) (VReg.lane b i) (VReg.lane d i))

/-- Lane arithmetic: `fi` in INT32, `ff` otherwise with one rounding (R58, R163). -/
def laneOp (ty : Nat) (fi : BitVec 32 → BitVec 32 → BitVec 32) (ff : Fp → Fp → Fp) (a b : BitVec 32) : BitVec 32 :=
  if ty = tINT32 then fi a b else laneOf ty (ff (laneVal ty a) (laneVal ty b))

def execVadd (c : CoreId) (w : Insn) (s : State) : Res :=
  .next (s.vec c w (vLegal w 0x00 [0, 1, 2] 2) (vmap w fun a b _ => laneOp (vTYPE w) (· + ·) fpAdd a b))

def execVsub (c : CoreId) (w : Insn) (s : State) : Res :=
  .next (s.vec c w (vLegal w 0x01 [0, 1, 2] 2) (vmap w fun a b _ => laneOp (vTYPE w) (· - ·) (fun x y => fpAdd x (fpNeg y)) a b))

def execVmul (c : CoreId) (w : Insn) (s : State) : Res :=
  .next (s.vec c w (vLegal w 0x02 [0, 1, 2] 2) (vmap w fun a b _ => laneOp (vTYPE w) (· * ·) fpMul a b))

/-- RA × RB + RC with one rounding (R162). -/
def laneFma (ty : Nat) (a b d : BitVec 32) : BitVec 32 :=
  if ty = tINT32 then a * b + d else laneOf ty (fpAdd (fpMul (laneVal ty a) (laneVal ty b)) (laneVal ty d))

def execVfma (c : CoreId) (w : Insn) (s : State) : Res :=
  .next (s.vec c w (vLegal w 0x03 [0, 1, 2] 2) (vmap w fun a b d => laneFma (vTYPE w) a b d))

/-- The minimum (`up` false) or maximum of two numbers: a NaN yields the other; which of two equal zeros is taken the spec does not say
(notes/assumptions/15.md). -/
def fpPick (up : Bool) (a b : Fp) : Fp :=
  if a.isNan then b else if b.isNan then a
  else if fpEq a b then (if Config.choice 2 then a else b)
  else if fpLt a b = up then b else a

/-- The minimum or maximum of two lanes; INT32 compares signed. -/
def lanePick (ty : Nat) (up : Bool) (a b : BitVec 32) : BitVec 32 :=
  if ty = tINT32 then (if decide (a.toInt < b.toInt) = up then b else a) else laneOf ty (fpPick up (laneVal ty a) (laneVal ty b))

def execVmin (c : CoreId) (w : Insn) (s : State) : Res :=
  .next (s.vec c w (vLegal w 0x04 [0, 1, 2] 2) (vmap w fun a b _ => lanePick (vTYPE w) false a b))

def execVmax (c : CoreId) (w : Insn) (s : State) : Res :=
  .next (s.vec c w (vLegal w 0x05 [0, 1, 2] 2) (vmap w fun a b _ => lanePick (vTYPE w) true a b))

/-- A comparison of two lanes: 0 LT, 1 LE, 2 EQ, 3 NE (R162); with a NaN only NE holds. -/
def laneCmp (ty k : Nat) (a b : BitVec 32) : BitVec 32 :=
  let lt := if ty = tINT32 then decide (a.toInt < b.toInt) else fpLt (laneVal ty a) (laneVal ty b)
  let eq := if ty = tINT32 then decide (a = b) else fpEq (laneVal ty a) (laneVal ty b)
  let r := match k with | 0 => lt | 1 => lt || eq | 2 => eq | _ => !eq
  if r then 1 else 0

def execVcmp (c : CoreId) (w : Insn) (s : State) : Res :=
  .next (s.vec c w (vLegal w 0x06 [0, 1, 2] 5 && decide (immBits w 4 2 ≤ 3)) (vmap w fun a b _ => laneCmp (vTYPE w) (immBits w 4 2) a b))

/-- A lane of RC is nonzero when any of its 32 bits is set, a -0.0 and the low half of a BF16 lane among them (DESIGN CHOICE, notes/assumptions/121.md)
(DEDUCED, notes/assumptions/101.md). -/
def execVsel (c : CoreId) (w : Insn) (s : State) : Res :=
  .next (s.vec c w (vLegal w 0x07 [0, 1, 2] 2) (vmap w fun a b d => laneTrim (vTYPE w) (if d ≠ 0 then a else b)))

/-- The nearest INT32, ties to even, saturating, NaN to zero (R162). -/
def toInt32 : Fp → BitVec 32
  | .nan => 0
  | .inf neg => if neg then 0x80000000 else 0x7FFFFFFF
  | .fin neg m e =>
    let n := if 0 ≤ e then m * 2 ^ min e.toNat 40 else shrRne m (-e).toNat
    if neg then (if 2 ^ 31 ≤ n then 0x80000000 else BitVec.ofInt 32 (-(n : Int)))
    else if 2 ^ 31 ≤ n then 0x7FFFFFFF else BitVec.ofNat 32 n

/-- The conversions of VCVT (R162, R53): BF16 results in [31:16], FP8 in [7:0]. A conversion that saturates adds nothing to the SATURATION count, which R60's
table keeps for write-outs (DESIGN CHOICE, notes/assumptions/113.md). -/
def laneCvt (k : Nat) (a : BitVec 32) : BitVec 32 :=
  match k with
  | 0 => BitVec.ofNat 32 ((wout16 (fpOf32 a)).1 * 65536)
  | 1 => BitVec.ofNat 32 (wout8 (fpOf32 a)).1
  | 2 => fpTo32 (fpOf8 a.toNat)
  | 3 => fpTo32 (fpOf16 (a.toNat / 65536))
  | 4 => fpTo32 (fpOfInt a.toInt 0)
  | _ => toInt32 (fpOf32 a)

def execVcvt (c : CoreId) (w : Insn) (s : State) : Res :=
  .next (s.vec c w (vLegal w 0x08 [0] 6 && decide (immBits w 5 2 ≤ 5)) (vmap w fun a _ _ => laneCvt (immBits w 5 2) a))

/-! Special functions (R164). The results at special inputs are the table's; every other result is a free value of the operand within
its bound of R58, and the nearest value where that breaks it (notes/assumptions/17.md). -/

/-- 2^x; exact for integer arguments whose result is normal (R58). -/
def laneExp2 (a : BitVec 32) : BitVec 32 :=
  match fpOf32 a with
  | .nan => 0x7FC00000
  | .inf neg => if neg then 0 else 0x7F800000
  | .fin neg m e =>
    let x := Fp.fin neg m e
    if !fpLt x (.fin false 128 0) then 0x7F800000
    else if !fpLt (.fin true 150 0) x then 0
    else if m = 0 then 0x3F800000
    else
      let whole := decide (0 ≤ e) || decide (m % 2 ^ (-e).toNat = 0)
      let n : Nat := if 0 ≤ e then m * 2 ^ e.toNat else m / 2 ^ (-e).toNat
      if whole ∧ (!neg ∨ n ≤ 126) then BitVec.ofNat 32 ((if neg then 127 - n else 127 + n) * 2 ^ 23)
      else if exp2Near neg m e (Config.vfun 0x10 a) then Config.vfun 0x10 a
      else let b := exp2Bounds neg m e; fpTo32 (fpOfInt b.1 b.2.2.1)

/-- log2 x. -/
def laneLog2 (a : BitVec 32) : BitVec 32 :=
  match fpOf32 a with
  | .nan => 0x7FC00000
  | .inf neg => if neg then 0x7FC00000 else 0x7F800000
  | .fin neg m e =>
    if m = 0 then 0xFF800000
    else if neg then 0x7FC00000
    else if log2Near m e (Config.vfun 0x11 a) then Config.vfun 0x11 a
    else fpTo32 (fpOfInt (log2Bounds m e).1 (-128))

/-- An FP32 value near 1 ÷ √(m × 2^e), for the operands at which the free value breaks its bound. -/
def rsqrtBase (m : Nat) (e : Int) : BitVec 32 :=
  -- √(2^(2k) / (m × 2^e)) × 2^−k with 2k − e even and large
  let k : Int := 80 + (e + m.log2) / 2
  let n := (2 : Nat) ^ (2 * k - e).toNat / m
  fpTo32 (.fin false (isqrt n) (-k))

def laneRsqrt (a : BitVec 32) : BitVec 32 :=
  match fpOf32 a with
  | .nan => 0x7FC00000
  | .inf neg => if neg then 0x7FC00000 else 0
  | .fin neg m e =>
    if m = 0 then (if neg then 0xFF800000 else 0x7F800000)
    else if neg then 0x7FC00000
    else if rsqrtNear m e (Config.vfun 0x12 a) then Config.vfun 0x12 a else rsqrtBase m e

/-- An FP32 value near 1 ÷ (m × 2^e), for the operands at which the free value breaks its bound. -/
def rcpBase (neg : Bool) (m : Nat) (e : Int) : BitVec 32 :=
  let k := m.log2 + 60
  fpTo32 (.fin neg (2 ^ k / m) (-e - k))

def laneRcp (a : BitVec 32) : BitVec 32 :=
  match fpOf32 a with
  | .nan => 0x7FC00000
  | .inf neg => BitVec.ofNat 32 (signBit neg 31)
  | .fin neg m e =>
    if m = 0 then BitVec.ofNat 32 (signBit neg 31 + 0x7F800000)
    else
      let v := Config.vfun 0x13 a
      if v.getLsbD 31 = neg ∧ rcpNear m e v then v else rcpBase neg m e

def execVexp2 (c : CoreId) (w : Insn) (s : State) : Res :=
  .next (s.vec c w (vLegal w 0x10 [0] 2) (vmap w fun a _ _ => laneExp2 a))

def execVlog2 (c : CoreId) (w : Insn) (s : State) : Res :=
  .next (s.vec c w (vLegal w 0x11 [0] 2) (vmap w fun a _ _ => laneLog2 a))

def execVrsqrt (c : CoreId) (w : Insn) (s : State) : Res :=
  .next (s.vec c w (vLegal w 0x12 [0] 2) (vmap w fun a _ _ => laneRsqrt a))

def execVrcp (c : CoreId) (w : Insn) (s : State) : Res :=
  .next (s.vec c w (vLegal w 0x13 [0] 2) (vmap w fun a _ _ => laneRcp a))

/-! Across lanes (R164, R165). -/

/-- Add neighbours in pairs. -/
def pairUp (f : BitVec 32 → BitVec 32 → BitVec 32) : List (BitVec 32) → List (BitVec 32)
  | a :: b :: r => f a b :: pairUp f r
  | l => l

/-- The lane-tree reduction: five levels of pairs, rounding at each (R164). -/
def laneTree (f : BitVec 32 → BitVec 32 → BitVec 32) (l : List (BitVec 32)) : BitVec 32 :=
  (pairUp f (pairUp f (pairUp f (pairUp f (pairUp f l))))).headD 0

/-- The same value in every lane. -/
def splat (v : BitVec 32) : VReg := List.replicate 32 v

def execVsum (c : CoreId) (w : Insn) (s : State) : Res :=
  .next (s.vec c w (vLegal w 0x18 [0, 2] 2) fun t =>
    t.setVreg (fRD w) (splat (laneTree (laneOp (vTYPE w) (· + ·) fpAdd) (t.vreg (fRA w)))))

/-- Maximum over lanes, NaN lanes absent, NaN when all are (R164). -/
def laneMaxAll (ty : Nat) (l : List (BitVec 32)) : BitVec 32 :=
  match l with
  | [] => 0
  | a :: r => laneOp ty (fun x _ => x) (fun x _ => x) (r.foldl (lanePick ty true) a) 0

def execVmaxr (c : CoreId) (w : Insn) (s : State) : Res :=
  .next (s.vec c w (vLegal w 0x19 [0, 1, 2] 2) fun t => t.setVreg (fRD w) (splat (laneMaxAll (vTYPE w) (t.vreg (fRA w)))))

/-- DEDUCED, notes/assumptions/101.md. -/
def execVbcast (c : CoreId) (w : Insn) (s : State) : Res :=
  .next (s.vec c w (vLegal w 0x1A [0, 1, 2] 7) fun t =>
    t.setVreg (fRD w) (splat (laneTrim (vTYPE w) (VReg.lane (t.vreg (fRA w)) (immBits w 6 2)))))

def execVlane (c : CoreId) (w : Insn) (s : State) : Res :=
  .next (s.vec c w (vLegal w 0x1B [2] 2) fun t => t.setVreg (fRD w) ((List.range 32).map (BitVec.ofNat 32)))

/-- Whether a (value, index) pair stands before another: value descending, ties to the lower index (R165). -/
def topLt (a b : BitVec 32 × BitVec 32) : Bool :=
  let va := fpOrd (fpOf32 a.1)
  let vb := fpOrd (fpOf32 b.1)
  if fpLt vb va then true else if fpLt va vb then false else decide (a.2.toNat < b.2.toNat)

/-- The first 32 of two lists of pairs, in order (R165). -/
def topMerge (l new : List (BitVec 32 × BitVec 32)) : List (BitVec 32 × BitVec 32) := (sortBy topLt (l ++ new)).take 32

/-- VTOPK: RD holds the values and RD + 1 the indices of the running list; RD must be even (R165). A NaN is written as
every NaN result is (R163). -/
def execVtopk (c : CoreId) (w : Insn) (s : State) : Res :=
  .next (s.vec c w (vLegal w 0x20 [0] 2 && decide (fRD w % 2 = 0)) fun t =>
    let l := topMerge ((t.vreg (fRD w)).zip (t.vreg (fRD w + 1))) ((t.vreg (fRA w)).zip (t.vreg (fRB w)))
    (t.setVreg (fRD w) (l.map fun p => fpTo32 (fpOf32 p.1))).setVreg (fRD w + 1) (l.map (·.2)))

end Sys2Proof.Machine
end

