-- ==== Sys2Proof/Machine/Sampling.lean ====
section
/-!
DEFINITION. Sampling a token (R166): what a shard's core sends, and on the home kindling core the merge of the shards' lists, the top-p cut and the
Philox draw.
-/
namespace Sys2Proof.Machine

/-! Philox4x32-10 (R166). The spec names the generator; its constants are those of its publication (PRESUMED, notes/assumptions/26.md). -/

/-- One round on the four counter words with the two key words. -/
def philoxRound (k : Nat × Nat) (c : Nat × Nat × Nat × Nat) : Nat × Nat × Nat × Nat :=
  let p0 := 0xD2511F53 * c.1
  let p1 := 0xCD9E8D57 * c.2.2.1
  (p1 / 2 ^ 32 ^^^ c.2.1 ^^^ k.1, p1 % 2 ^ 32, p0 / 2 ^ 32 ^^^ c.2.2.2 ^^^ k.2, p0 % 2 ^ 32)

/-- Rounds with the key advanced between them. -/
def philoxRounds : Nat → Nat × Nat → Nat × Nat × Nat × Nat → Nat × Nat × Nat × Nat
  | 0, _, c => c
  | n + 1, k, c => philoxRounds n ((k.1 + 0x9E3779B9) % 2 ^ 32, (k.2 + 0xBB67AE85) % 2 ^ 32) (philoxRound k c)

/-- The first output word for an entry's KEY and COUNTER. -/
def philoxFirst (key counter : DWord) : Nat :=
  (philoxRounds 10 (key.toNat % 2 ^ 32, key.toNat / 2 ^ 32) (counter.toNat % 2 ^ 32, counter.toNat / 2 ^ 32, 0, 0)).1

/-! FP32 steps, each rounded once. -/

def f32Add (a b : Word) : Word := fpTo32 (fpAdd (fpOf32 a) (fpOf32 b))
def f32Mul (a b : Word) : Word := fpTo32 (fpMul (fpOf32 a) (fpOf32 b))
def f32Sub (a b : Word) : Word := fpTo32 (fpAdd (fpOf32 a) (fpNeg (fpOf32 b)))
def f32Lt (a b : Word) : Bool := fpLt (fpOf32 a) (fpOf32 b)

/-- Whether a ≥ b; false with a NaN. -/
def f32Ge (a b : Word) : Bool := fpLt (fpOf32 b) (fpOf32 a) || fpEq (fpOf32 a) (fpOf32 b)

/-- Minus infinity, the value of an absent lane (R165, R166). -/
def f32NegInf : Word := 0xFF800000

/-- A NaN taken as minus infinity. -/
def f32Ord (a : Word) : Word := if (fpOf32 a).isNan then f32NegInf else a

/-- The start pairs of a candidate list (R165). -/
def noCand : List (Word × Word) := List.replicate 32 (f32NegInf, 0xFFFFFFFF)

/-- Running sums p[0], p[0] + p[1], …. -/
def runSums (acc : Option Word) : List Word → List Word
  | [] => []
  | p :: ps =>
    let a := match acc with | none => p | some x => f32Add x p
    a :: runSums (some a) ps

/-- log2 e × 2^192, rounded down. -/
def log2E : Nat := 0x171547652b82fe1777d0ffda0d23a7d11d6aef551bad2b4b1

/-- The factor c of a temperature (R166): log2 e ÷ T in FP32, rounded once. A T of zero takes logits as they are. -/
def tempFactor (t : Word) : Word :=
  match fpOf32 t with
  | .fin neg m e => if m = 0 then 0x3F800000 else fpTo32 (.fin neg (2 * (log2E * 2 ^ 64 / m) + 1) (-257 - e))
  | .inf neg => if neg then 0x80000000 else 0
  | .nan => 0x7FC00000

/-- What a shard's core sends to the home kindling core (R166). -/
structure ShardOut where
  m : Word
  s : Word
  cand : List (Word × Word)

/-- The shard's half (R166): the logits times c, a NaN as minus infinity; their maximum, the sum of their exponentials in ascending token id, and the
candidate list. An absent lane of the last group adds +0 and holds a start pair, and so changes nothing. -/
def shardOut (t : Word) (h : Shard) : ShardOut :=
  let c := tempFactor t
  let y := h.logits.map fun l => f32Ord (f32Mul l c)
  let m := y.foldl (fun m v => if f32Lt m v then v else m) f32NegInf
  let pairs := y.zip ((List.range y.length).map fun i => BitVec.ofNat 32 (h.first + i))
  { m := m, s := y.foldl (fun a v => f32Add a (laneExp2 (f32Sub v m))) 0,
    cand := (chunks 32 (ceilDiv y.length 32) pairs).foldl topMerge noCand }

/-- NaN logits of a shard, each a count of NONFINITE (R166). -/
def shardNans (h : Shard) : Nat := (h.logits.filter fun l => (fpOf32 l).isNan).length

/-- Shards in ascending order of rack, package slot and core number (R166). -/
def shardOrder (hs : List Shard) : List Shard :=
  sortBy (fun a b => decide (a.src.toNat < b.src.toNat) || (decide (a.src = b.src) && decide (a.core.toNat < b.core.toNat))) hs

/-- The token of one sequence from its shards (R166). -/
def sampleToken (q : SeqEntry) (hs : List Shard) : Word :=
  let shards := (shardOrder hs).map (shardOut q.temperature)
  let cand := ((shards.foldl (fun l h => topMerge l h.cand) noCand).take q.topK)
  let ids := cand.map (·.2)
  if q.temperature.toNat % 2 ^ 31 = 0 then ids.headD 0xFFFFFFFF
  else
    let m := shards.foldl (fun m h => if f32Lt m h.m then h.m else m) f32NegInf
    let total := ((runSums none (shards.map fun h => f32Mul h.s (laneExp2 (f32Sub h.m m)))).getLast?).getD 0
    let p := cand.map fun c => f32Mul (laneExp2 (f32Sub c.1 m)) (laneRcp total)
    let sums := runSums none p
    let n := match findIdx (fun x => f32Ge x q.topP) sums 0 with
      | some (i, _) => i + 1
      | none => q.topK
    let u := fpTo32 (.fin false (philoxFirst q.key q.counter / 256) (-24))
    let t := f32Mul u (sums.getD (n - 1) 0)
    match findIdx (fun x => f32Lt t x) (sums.take n) 0 with
    | some (i, _) => ids.getD i 0xFFFFFFFF
    | none => ids.getD (n - 1) 0xFFFFFFFF

end Sys2Proof.Machine
end

