-- ==== Sys2Proof/Machine/Cellar.lean ====
section
/-!
DEFINITION. The cellar's controllers (R358 to R370): corrected and uncorrectable lines, lane remaps, row repair and scrub; and the quiet time
that sweep work needs (R538, R541).
-/
namespace Sys2Proof.Machine

/-- Nanoseconds of an hour. -/
def nsHour : Nat := 3600000000000

/-- The channel of a cellar line, two pseudo-channels each, as 16 × stack + channel. -/
def celChannel (line : Nat) : Nat := 16 * (celHash (64 * line)).1 + (celHash (64 * line)).2.1 / 2

/-- A corrected error located on a DQ lane: the lane is implicated when such errors have occurred in 16 different lines within 1 s (R367). -/
def State.laneHit (s : State) (line dq : Nat) : State :=
  let key := 64 * celChannel line + dq
  let hits := (s.cel.laneHits.filter fun e => decide (s.rackTime ≤ e.2.2 + 1000000000) && !(decide (e.1 = key) && decide (e.2.1 = line))) ++ [(key, line, s.rackTime)]
  let full := decide (16 ≤ (hits.filter fun e => decide (e.1 = key)).length)
  { s with cel := { s.cel with laneHits := hits, implicated := if full then insertNat key s.cel.implicated else s.cel.implicated } }

/-- A line of stack is corrected: it counts, and a second line of its row within 24 h marks the row (R365, R368) (DEDUCED, notes/assumptions/68.md). -/
def State.celCorrected (s : State) (line : Nat) : State :=
  let row (l : Nat) := celPlace l
  let old := s.cel.corrected.filter fun e => decide (s.rackTime ≤ e.2 + 24 * nsHour)
  let second := old.any fun e => decide (e.1 ≠ line) && decide (row e.1 = row line)
  let s := s.bump CEL_CE_STACKs.COUNT 1 0 (celHash (64 * line)).1
  let s := { s with cel := { s.cel with corrected := (old.filter fun e => decide (e.1 ≠ line)) ++ [(line, s.rackTime)] } }
  if second then s.markRow line else s

/-- A line that its code cannot correct: withheld, listed bad, logged; the package hands its work over (R365). -/
def State.celUncorrectable (s : State) (line : Nat) (injected : Bool) : State :=
  let st := (celHash (64 * line)).1
  let s := ((s.bump CEL_UE.COUNT).wr CEL_UE.LAST_STACK st).raiseIrq .cel 0 0
  let s := { s with cel := { s.cel with badLines := insertNat line s.cel.badLines } }
  s.fatal (s.mkErr Err.CEL_UNCORRECTABLE sevPackage (nodeStack st) (64 * line) (injected := injected))

/-- A line of the cellar, at byte address `a`, is read and shows `e`: whether it may be returned (R364, R365). -/
def State.cellarLine (s : State) (a : Nat) (e : Ecc) : Bool × State :=
  let (e, injected, s) := s.eccWith (Block.cel.page 0) (celHash a).1 a e
  match e with
  | .clean => (true, s)
  | .corrected => (true, s.celCorrected (a / 64))
  | .correctedLane dq => (true, (s.celCorrected (a / 64)).laneHit (a / 64) dq.val)
  | .onDie => (true, s.logErr (s.mkErr Config.onDieCode sevInfo (nodeStack (celHash a).1) a))
  | .uncorrectable => (false, s.celUncorrectable (a / 64) injected)

/-- A read of `n` bytes of the cellar from `a`, line by line: whether its bytes may be returned (R365). -/
def State.cellarReads (s : State) (a n : Nat) (es : Errs) : Bool × State :=
  if s.celBad a n then (false, s)
  else (s.errWords (Block.cel.page 0) a n 64 es).foldl (fun r k =>
    if r.1 then r.2.cellarLine (if k = 0 then a else (a / 64 + k) * 64) (Errs.at es k) else r) (true, s)

/-- A read of `n` bytes of the local stores from an offset of space 0: a run that passes a core's 1 MiB goes on in the next core (R80, R399). -/
def State.spanReads (s : State) (o n : Nat) (es : Errs) : Bool × State :=
  let k := 0x100000 - o % 0x100000
  if n ≤ k then s.lsReads (o / 0x100000) (o % 0x100000) n es
  else
    let r := s.lsReads (o / 0x100000) (o % 0x100000) k es
    if r.1 then r.2.lsReads (o / 0x100000 + 1) 0 (n - k) (Errs.after es (ceilDiv k 8)) else r

/-- Bytes of the code's unit at an SRF address: a word of a local store, a line of the cellar. -/
def srfUnit (a : BitVec 64) : Nat := if srfSpace a = 0 then 8 else 64

/-- Whether a read of `n` bytes at an SRF address is answered with its bytes: its place exists in the household, its package is not lost,
no line of it is on the bad-line list (R365, R401). -/
def State.srfReadable (s : State) (a : BitVec 64) (n : Nat) : Bool :=
  s.srfInSpace a && s.srfInSpace (a + BitVec.ofNat 64 (n - 1)) && !s.pair.lost.contains (srfPkg a) &&
    !(decide (srfPkg a = s.me) && decide (srfSpace a = 1) && s.celBad (srfOff a) n)

/-- Read `n` bytes at an SRF address of this package through the codes of its words or lines (R80, R365): whether the bytes may be returned. What
another package's codes show, it answers itself. -/
def State.srfCode (s : State) (a : BitVec 64) (n : Nat) (es : Errs) : Bool × State :=
  if srfPkg a ≠ s.me then (true, s)
  else if srfSpace a = 0 then s.spanReads (srfOff a) n es
  else s.cellarReads (srfOff a) n es

/-- Whether a byte range of the cellar meets a READY or DRAINING footprint (R324). -/
def State.inFootprint (s : State) (a n : Nat) : Bool :=
  s.slots.any fun e =>
    (decide (e.2.st = .ready) || decide (e.2.st = .draining)) &&
      decide (e.2.base * extentBytes < a + n) && decide (a < (e.2.base + e.2.extents) * extentBytes)

/-! Quiet time. -/

/-- Whether some perturbation of the package is enabled (R541). -/
def State.perturbed (s : State) : Bool :=
  s.regs.any fun e => decide (e.1 % 0x1000 = 0x40) && e.2.getLsbD 31 &&
    (match pageBlock (e.1 / 0x1000) with | some b => b.1.hasPtb | none => false)

/-- Whether sweep work may start now: the package is not in Smoored, no valid mantel slot runs or starts within GUARD_US (R538), and the sweep is not suspended (R541). -/
def State.sweepMay (s : State) : Bool :=
  let guard := 1000 * s.rd SWP_CTL.GUARD_US
  decide (s.power.fire ≠ .smoored) && s.on SWP_CTL.ENABLE && !s.perturbed &&
    (List.range 64).all fun n =>
      !s.on SEQ_MANTELn.VALID 0 n || decide (guard + 156250 ≤ (s.rackTime + 10000000 + guard - 156250 * n) % 10000000)

/-- Rack time of a core's last sweep pass, or of the boot when it has had none (R541). -/
def State.lastSweep (s : State) (c : Nat) : Nat := if (s.core c).sweptAt = 0 then s.mgmt.bootAt.toNat else (s.core c).sweptAt

/-- The interval of core sweeps. -/
def State.sweepInterval (s : State) : Nat := s.rd SWP_CTL.CORE_INTERVAL_H * nsHour

/-- Whether a core's sweep or a scrub pass falls due by a time (R369, R471, R537). -/
def State.sweepDueBy (s : State) (t : Nat) : Bool :=
  s.on SWP_CTL.ENABLE && !s.perturbed &&
    (decide (s.cel.scrubFrom + s.rd CEL_SCRUB_CTL.INTERVAL_H * nsHour ≤ t) ||
      (List.range 4096).any fun c => decide (s.lastSweep c + s.sweepInterval ≤ t))

/-! The rows. -/

/-- A DQ lane implicated in corrected errors is remapped to a redundant lane of its channel (R367); the errors located on it are forgotten. With none
left the package hands its work over and stays out until it is replaced. A lane that is not implicated is left. -/
def execHbmLaneRemap (st : Stack) (ch : Fin 16) (dq : Fin 64) (s : State) : Res :=
  let key := 16 * st.val + ch.val
  let lane := 64 * key + dq.val
  if !s.cel.implicated.contains lane then .next s else
  let s : State := { s with cel := { s.cel with implicated := s.cel.implicated.filter fun l => decide (l ≠ lane),
                                                laneHits := s.cel.laneHits.filter fun e => decide (e.1 ≠ lane) } }
  if SMap.get 0 s.kept.spareLanes key < Config.spares 0 key then
    let s := s.updKept fun k => { k with spareLanes := SMap.upd 0 k.spareLanes key (· + 1) }
    .next ((s.bump CEL_LANE.DONE).raiseIrq .cel 0 1)
  else
    let s := s.updKept fun k => { k with condemned := true }
    .next (s.fatal (s.mkErr Err.CEL_LANE_EXHAUSTED sevPackage (nodeStack st.val)))

/-- A marked row is spared (R368). A bank with no spare row left is logged once, and its row stays in service. -/
def State.spareRow (s : State) (r : Nat × Nat × Nat) : State :=
  let key := 4096 * r.1 + r.2.1
  let s : State := { s with cel := { s.cel with markedRows := s.cel.markedRows.filter fun q => decide (q ≠ r) } }
  if SMap.get 0 s.kept.spareRows key < Config.spares 1 key then
    let s := s.updKept fun k => { k with spareRows := SMap.upd 0 k.spareRows key (· + 1) }
    (s.bump CEL_PPR.DONE).raiseIrq .cel 0 3
  else s.logErr (s.mkErr Err.CEL_PPR_EXHAUSTED sevInfo (nodeStack r.1)) key

/-- Every marked row is spared at bring-up (R368). -/
def State.spareMarked (s : State) : State := s.cel.markedRows.foldl State.spareRow s

/-- A marked row is spared while the package is outside its household (R368). -/
def execRowPpr (st : Stack) (bank row : Nat) (s : State) : Res :=
  let out := decide (s.pair.member = .outside) || decide (s.pair.member = .out)
  .next (if out && s.cel.markedRows.contains (st.val, bank, row) then s.spareRow (st.val, bank, row) else s)

/-- Mapped lines of the cellar. -/
def State.cellarLines (s : State) : Nat := s.cellarBytes / 64

/-- Scrub interval in ns. -/
def State.scrubInterval (s : State) : Nat := s.rd CEL_SCRUB_CTL.INTERVAL_H * nsHour

/-- The first line of a stack at or after a line: one of any 96 lines in a row lies in each stack (R361). -/
def celNext (st line : Nat) : Nat :=
  line + ((List.range 96).find? fun i => decide ((celHash (64 * (line + i))).1 = st)).getD 96

/-- Scrub reads a line as sweep work (R369, R370, R538): corrected and counted under R365. Each controller goes through the mapped lines of its stack in
ascending order; the line counts when it is the next of its stack, and the pass ends with the last line of the last stack (DEDUCED, notes/assumptions/124.md). -/
def execScrubRead (line : BitVec 34) (e : Ecc) (s : State) : Res :=
  if !s.sweepMay || decide (s.cellarLines ≤ line.toNat) then .next s
  else
    let l := line.toNat
    let st := (celHash (64 * l)).1
    let counts := decide (celNext st (SMap.get 0 s.cel.scrubNext st) = l)
    let s := (s.sweepWake.cellarReads (64 * l) 64 [(0, e)]).2
    if !counts then .next s else
    let n := s.cel.scrubbed + 1
    if n < s.cellarLines then
      let s := { s with cel := { s.cel with scrubbed := n, scrubNext := SMap.set 0 s.cel.scrubNext st (l + 1) } }
      .next (s.wr CEL_SCRUB_STS.PERCENT (100 * n / s.cellarLines))
    else
      let inTime := decide (s.rackTime < s.cel.scrubFrom + s.scrubInterval)
      let s := { s with cel := { s.cel with scrubbed := 0, scrubNext := [], scrubFrom := s.rackTime } }
      let s := (s.bump CEL_SCRUB_STS.PASSES).wr CEL_SCRUB_STS.PERCENT 0
      .next (if inTime then s.wr CEL_SCRUB_STS.LATE 0 else s)

/-- A scrub interval ends before its pass is complete (R370). The pass goes on from where it stopped (DEDUCED, notes/assumptions/68.md). -/
def execScrubLate (s : State) : Res :=
  if s.rackTime < s.cel.scrubFrom + s.scrubInterval then .next s
  else .next (((s.wr CEL_SCRUB_STS.LATE 1).logErr (s.mkErr Err.SCRUB_LATE sevInfo (nodeStack 0))).raiseIrq .cel 0 2)

end Sys2Proof.Machine
end

