-- ==== Sys2Proof/Machine/Commands.lean ====
section
/-!
DEFINITION. Porch commands as a boundary applies them (R240, R241, R261, R280, R281, R297, R314): what each does to the table, the pools and the
model slots, and the RESULT it gives.
-/
namespace Sys2Proof.Machine

/-- What a command answers: CODE, HANDLE, FLAGS and DETAIL of its RESULT (R286). -/
structure Answer where
  code : Code
  handle : Nat
  flags : Nat
  detail : Nat

/-- Fields of a record (R276). -/
def recOp (b : Bytes) : Nat := fieldAt b 0 1
def recHandle (b : Bytes) : Nat := fieldAt b 4 4
def recTag (b : Bytes) : DWord := BitVec.ofNat 64 (fieldAt b 8 8)

/-- An answer that names the record's own handle. -/
def answerAs (b : Bytes) (code : Code) (flags : Nat := 0) : Answer := { code := code, handle := recHandle b, flags := flags, detail := 0 }

/-- The payload bytes a command uses: (offset, bytes) (R280, R281, R314); none for an undefined opcode. -/
def payloadUsed : Nat → Option (List (Nat × Nat))
  | 0x00 | 0x02 | 0x04 => some []
  | 0x01 => some [(0x10, 6), (0x18, 0x14), (0x30, 0x18)]
  | 0x03 => some [(0x10, 4)]
  | 0x05 | 0x21 | 0x22 | 0x24 => some [(0x10, 1)]
  | 0x06 => some [(0x10, 2), (0x14, 8)]
  | 0x07 => some [(0x10, 8)]
  | 0x10 | 0x23 => some [(0x10, 1), (0x18, 8)]
  | 0x20 => some [(0x10, 16)]
  | _ => none

/-- Reserved bits inside the used bytes: (offset, bytes, bits a value may use). -/
def payloadBits : Nat → List (Nat × Nat × Nat)
  | 0x01 => [(0x12, 1, 3), (0x14, 2, 12)]
  | 0x05 => [(0x10, 1, 3)]
  | 0x06 => [(0x10, 2, 12), (0x14, 4, 20), (0x18, 4, 20)]
  | 0x20 => [(0x1D, 1, 1), (0x1F, 1, 1)]
  | _ => []

/-- Whether every reserved byte and bit of a record of a defined opcode is zero (R276, R280). -/
def reservedZero (b : Bytes) : Bool :=
  zeroRange b 1 3 &&
    (match payloadUsed (recOp b) with
     | none => true
     | some us => (List.range 104).all fun i =>
        (us.any fun u => decide (u.1 ≤ 0x10 + i) && decide (0x10 + i < u.1 + u.2)) || zeroRange b (0x10 + i) 1) &&
    (payloadBits (recOp b)).all fun u => decide (fieldAt b u.1 u.2.1 < 2 ^ u.2.2)

/-! Sequences. -/

/-- Whether an FP32 word is finite and not negative (R241); negative zero is not (DESIGN CHOICE, notes/assumptions/143.md). -/
def tempOk (w : Nat) : Bool := decide (w % 2 ^ 31 < 0x7F800000) && (decide (w < 2 ^ 31) || decide (w = 2 ^ 31))

/-- Whether an FP32 word lies in (0, 1]. -/
def topPOk (w : Nat) : Bool := decide (0 < w) && decide (w ≤ 0x3F800000)

/-- ADMIT (R241, R281): takes the lowest FREE entry with its directory and prompt frames, or refuses (DEDUCED, notes/assumptions/78.md). -/
def State.admitSeq (s : State) (home : PkgId) (part : Nat) (time : Nat) (b : Bytes) : State × Answer :=
  let f (o n : Nat) : Nat := fieldAt b o n
  let no (code : Code) : State × Answer := (s, { code := code, handle := 0, flags := 0, detail := 0 })
  let slot := f 0x10 1
  let len := f 0x18 4
  if (s.client (clientKey home (f 0x14 2))).owner ≠ part then no Err.CLIENT_DENIED
  else if f 0x11 1 < 1 ∨ 32 < f 0x11 1 ∨ !tempOk (f 0x24 4) ∨ !topPOk (f 0x28 4) ∨ len = 0 ∨ f 0x1C 4 = 0 ∨ 15 < f 0x13 1 then no Err.PARAM
  else if 1048576 < len + f 0x1C 4 then no Err.LENGTH
  else if 64 ≤ slot ∨ (s.slot slot).st ≠ .ready then no Err.MODEL_NOT_READY
  else if s.rd SEQ_PART_CTLn.QUOTA 0 part ≤ s.partLive home part then no Err.QUOTA_FULL
  else
    match s.freeEntry with
    | none => no Err.QUOTA_FULL
    | some e =>
      let dirs := ceilDiv (s.chainCount slot) 256
      match s.takeFrames dirs with
      | none => no Err.NO_KV_PAGE
      | some (ds, s1) =>
        match s1.takeFrames (ceilDiv (4 * len) 65536) with
        | none => no Err.NO_KV_PAGE
        | some (ps, s2) =>
          let max := s.rd SEQ_PART_CTLn.PRIO_MAX 0 part
          let clamped := decide (max < f 0x12 1)
          let s2 := s2.updSeq e fun q =>
            { SeqEntry.blank with
              st := .queued, prio := min max (f 0x12 1), part := part, home := home, cls := f 0x13 1, gen := q.gen, client := f 0x14 2, slot := slot,
              topK := f 0x11 1, promptLen := len, maxNew := f 0x1C 4, stopToken := BitVec.ofNat 32 (f 0x20 4),
              temperature := BitVec.ofNat 32 (f 0x24 4), topP := BitVec.ofNat 32 (f 0x28 4), key := BitVec.ofNat 64 (f 0x30 8),
              counter := BitVec.ofNat 64 (f 0x38 8), userTag := recTag b, admitTime := time, lastStep := s.step.id,
              dirFrame := ds.head?.getD 0, promptAddr := ps.head?.getD 0 * frameBytes }
          let s2 := s2.updSeqKv e fun _ => { SeqKv.none with dir := ds, prompt := ps }
          let s2 := ds.foldl State.clearFrame s2
          let s2 := if home = s.me then s2.readBus (f 0x40 8) (4 * len) else s2
          (s2, { code := Err.OK, handle := (s2.handle e).toNat, flags := if clamped then flagClamped else 0, detail := 0 })

/-- CANCEL (R239, R240): the entry goes to FREE. -/
def State.cancelSeq (s : State) (e : Nat) : State × Code :=
  let code := match (s.seq e).st with
    | .expired => Err.EXPIRED
    | .errored => Err.ERRORED
    | _ => Err.OK
  (s.toFree e, code)

/-- Whether the loft can be reached from this package (R194, R199): a host loft while the PCIe link carries traffic with Bus Master Enable of PF0 set, a peer loft while the named
pair has a serving member of the household (DEDUCED, notes/assumptions/77.md). -/
def State.loftReachable (s : State) : Bool :=
  if s.on SEQ_LOFT_CTL.TARGET then
    let p := BitVec.ofNat 7 (64 * s.rd SEQ_LOFT_CTL.PEER_RACK + s.rd SEQ_LOFT_CTL.PEER_SLOT)
    s.serving.contains p || s.serving.contains (p ^^^ 2)
  else s.pcie.up && s.pcie.bme

/-- Whether this package writes its pair's loft units (R193), those of a peer loft included (DESIGN CHOICE, notes/assumptions/139.md). -/
def State.loftWriter (s : State) : Bool := s.survivor || decide (s.position = 0)

/-- Address of a loft unit (R193, R200): of host memory, or in space 1 of a peer. -/
def State.loftAddr (s : State) (d : Option PkgId) (u : Nat) : Nat :=
  let a := s.rd64 SEQ_LOFT_BASE_LO.ADDRESS + u * frameBytes
  match d with
  | none => a
  | some p => (srfAddr p 1 a).toNat

/-- The packages that hold the loft (R193, R200): both members of the peer pair, or the host. -/
def State.loftDests (s : State) : List (Option PkgId) :=
  let peer := BitVec.ofNat 7 (64 * s.rd SEQ_LOFT_CTL.PEER_RACK + s.rd SEQ_LOFT_CTL.PEER_SLOT)
  if s.on SEQ_LOFT_CTL.TARGET then [some peer, some (peer ^^^ 2)] else [none]

/-- The writer of the pair sends pages to loft units (R193, step 3): a peer loft is written to both members of the peer pair. The last unit of a host loft
is then read back (step 4). -/
def State.writeUnits (s : State) (units frames : List Nat) : State :=
  if !s.loftWriter then s
  else
    let s := (units.zip frames).foldl (fun s r => s.loftDests.foldl (fun s d => s.emit (.loftWrite d (s.loftAddr d r.1) (s.frameImage r.2))) s) s
    match units.getLast? with
    | some u => if s.on SEQ_LOFT_CTL.TARGET then s else s.emit (.loftRead none (s.loftAddr none u))
    | none => s

/-- Start the move of a sequence's pages to the loft (R193, steps 1 to 3, R194), with the FLAGS the PAUSE then carries (DEDUCED, notes/assumptions/77.md). -/
def State.startMove (s : State) (e : Nat) : State × Nat :=
  let fs := s.pageFrames e
  if !s.on SEQ_LOFT_CTL.ENABLE then (s, flagLoftFull)
  else
    match s.takeUnits fs.length with
    | none => (s, flagLoftFull)
    | some (us, s1) =>
      if !s.loftReachable then (s, flagUnreachable)
      else if fs = [] then (s, 0)
      else
        let s1 := (s1.updKv fun k =>
          { k with moves := k.moves ++ [{ seq := e, units := us, rewritten := false, frames := fs, told := [] }] }).updSeq e fun q =>
            { q with moving := true }
        (s1.writeUnits us fs, 0)

/-- PAUSE at a boundary at time `t` (R193 to R195). -/
def State.pauseSeq (s : State) (e t ttl : Nat) : State × Nat :=
  let q := s.seq e
  let ttl := if ttl = 0 then s.rd SEQ_LOFT_TTL.DEFAULT_S else ttl
  let pending := s.kv.resumes.find? fun r => decide (r.seq = e)
  let copied := pending.any fun r => decide (r.st = .copied)
  let s := s.finishResume e Err.REPAUSED
  let s := s.updSeq e fun q => { q with st := .paused, ttlEnd := t + ttl * 1000000000, moving := q.moving && !pending.isSome }
  if q.st = .paused ∧ !copied then (s, 0) else s.startMove e

/-- The sequence leaves PAUSED (R239). -/
def State.leavePause (s : State) (e : Nat) : State := s.updSeq e fun q => { q with st := q.resumed, ttlEnd := 0, moving := false }

/-- A RESUME before step 6 of R193 abandons the move (R198): units are freed and rewritten entries take back their frames. -/
def State.abandonMove (s : State) (e : Nat) : State :=
  match s.kv.moves.find? fun m => decide (m.seq = e) with
  | none => s
  | some m =>
    let s := if m.rewritten then
        s.updSeqKv e fun k => { k with pages := (k.pages.zip m.frames).map fun (r, f) => (r.1, r.2.map fun p => { p with frame := f, crc := 0 }) }
      else s
    (s.dropUnits m.units).updKv fun k =>
      { k with moves := k.moves.filter fun x => decide (x.seq ≠ e), inLoft := k.inLoft.filter fun x => decide (x ≠ e) }

/-- Take `n` single frames, the lowest free ones. -/
def State.takeSingles : Nat → State → Option (List Nat × State)
  | 0, s => some ([], s)
  | n + 1, s =>
    match s.takeFrames 1 with
    | some ([f], s) => (State.takeSingles n s).map fun r => (f :: r.1, r.2)
    | _ => none

/-- Items 1 and 2 of R197 for a sequence in the loft: the frames, and the copy back begun; none while too few frames are free. The
pages come from the named peer while it serves, else from its partner (DESIGN CHOICE, notes/assumptions/139.md). -/
def State.beginCopy (s : State) (e : Nat) : Option State :=
  let us := s.pageFrames e
  (State.takeSingles us.length s).map fun (fs, s) =>
    let s := (s.updKv fun k =>
      { k with resumes := mapWhere (fun r => decide (r.seq = e)) (fun r => { r with st := .copying fs }) k.resumes }).updSeq e fun q =>
        { q with moving := true }
    let d := s.loftDests.find? fun d => match d with | some p => s.serving.contains p | none => true
    us.foldl (fun s u => s.emit (.loftRead (d.getD none) (s.loftAddr (d.getD none) u))) s

/-- RESUME (R197 to R199, R297) (DEDUCED, notes/assumptions/77.md). -/
def State.resumeSeq (s : State) (e part : Nat) (stamp : Word) (b : Bytes) : State × Answer :=
  match (s.seq e).st with
  | .expired => (s.toFree e, answerAs b Err.EXPIRED)
  | .errored => (s.toFree e, answerAs b Err.ERRORED)
  | .paused =>
    if s.kv.resumes.any fun r => decide (r.seq = e) then (s, answerAs b Err.NOT_PAUSED)
    else if s.kv.inLoft.contains e ∧ !(s.kv.moves.any fun m => decide (m.seq = e)) then
      if !s.loftReachable then (s, answerAs b Err.LOFT_UNREACHABLE)
      else
        let s := s.updKv fun k =>
          { k with resumes := k.resumes ++ [{ seq := e, part := part, stamp := stamp, tag := recTag b, st := .short, told := [] }] }
        match s.beginCopy e with
        | some s => (s, answerAs b Err.OK flagRetry)
        | none => (s, answerAs b Err.NO_KV_PAGE flagRetry)
    else ((s.abandonMove e).leavePause e, answerAs b Err.OK)
  | _ => (s, answerAs b Err.NOT_PAUSED)

/-- Change a client (R261, R262): a change of RATE or BURST keeps CREDIT, capped at the new BURST. -/
def State.changeClient (s : State) (home : PkgId) (k : CliChange) : State :=
  s.updClient (clientKey home k.client) fun c =>
    let burst := k.burst.getD c.burst
    { c with owner := k.owner.getD c.owner, rate := k.rate.getD c.rate, burst := burst, owed := burst * 1000000000 - min c.credit (burst * 1000000000) }

/-! Model slots (R314). -/

/-- The ten words of MDL_SLOTn (R331) at a boundary time. -/
def State.slotWords (s : State) (n t : Nat) : List Nat :=
  let m := s.slot n
  let c := m.st.code
  [m.modelId.toNat % 2 ^ 32, m.modelId.toNat / 2 ^ 32, m.version.toNat,
   c.1 * 2 ^ 29 + c.2 * 2 ^ 27 + (if s.seated = some n then 2 ^ 26 else 0) + (if m.wait then 2 ^ 25 else 0) +
     (match m.repl with | some r => 2 ^ 24 + r * 2 ^ 18 | none => 0) + s.slotRefs n,
   m.base * 2 ^ 16 + m.extents,
   min (m.uses.filter fun u => decide (t < u + 60000000000)).length 0xFFFFFFFF,
   m.lastUse % 2 ^ 32, m.lastUse / 2 ^ 32, m.lastCode.toNat, min m.steps 0xFFFFFFFF]

/-- The slots in LOADING or VERIFYING. -/
def State.openLoads (s : State) : List Nat :=
  (List.range 64).filter fun n => match (s.slot n).st with | .loadManifest | .loadSpace | .loadShards | .verifying => true | _ => false

/-- Their number. -/
def State.loadsOpen (s : State) : Nat := s.openLoads.length

/-- The lowest place of the manifest area that no load in progress has (R302; DEDUCED, notes/assumptions/80.md). -/
def State.freeArea (s : State) : Nat :=
  ((List.range 4).find? fun a => !(s.openLoads.any fun n => decide ((s.slot n).area = a))).getD 0

/-- LOAD (R312, R314): the lowest EVICTED slot enters LOADING, MANIFEST (DEDUCED, notes/assumptions/78.md). -/
def State.loadCmd (s : State) (home : PkgId) (b : Bytes) : State × Answer :=
  let f (o n : Nat) : Nat := fieldAt b o n
  let repl := f 0x1E 1
  let no (code : Code) : State × Answer := (s, { code := code, handle := 0, flags := 0, detail := 0 })
  if f 0x10 8 % 64 ≠ 0 ∨ f 0x18 4 < 640 ∨ 16777216 < f 0x18 4 ∨ 1 < f 0x1C 1 ∨ (63 < repl ∧ repl ≠ 0xFF) then no Err.PARAM
  else if repl ≠ 0xFF ∧ (s.slot repl).st ≠ .ready then no Err.SLOT_STATE
  else
    match (List.range 64).find? fun n => decide ((s.slot n).st = .evicted) with
    | none => no Err.NO_FREE_SLOT
    | some n =>
      if 4 ≤ s.loadsOpen then no Err.LOAD_BUSY
      else
        let s := s.updSlot n fun m =>
          { Slot.evicted with
            st := .loadManifest, wait := decide (f 0x1D 1 = 1), repl := if repl = 0xFF then none else some repl, home := home,
            peer := decide (f 0x1C 1 = 1), peerRack := decide (f 0x1F 1 = 1), manifestBus := BitVec.ofNat 64 (f 0x10 8),
            manifestLen := f 0x18 4, lastCode := m.lastCode, area := s.freeArea }
        let s := if home = s.me then s.readBus (f 0x10 8) (f 0x18 4) else s
        (s, { code := Err.OK, handle := n, flags := 0, detail := 0 })

/-- DRAIN, EVICT and RECHECK (R312, R314) on a slot. -/
def State.drainCmd (s : State) (n : Nat) : State × Code :=
  if (s.slot n).st = .ready then (s.updSlot n fun m => { m with st := .draining }, Err.OK) else (s, Err.SLOT_STATE)

def State.evictCmd (s : State) (n : Nat) : State × Code :=
  match (s.slot n).st with
  | .loadManifest | .loadSpace | .loadShards | .verifying => (s.evictSlot n Err.CANCELLED, Err.OK)
  | .ready => if s.slotRefs n = 0 ∧ s.seated ≠ some n then (s.evictSlot n 0, Err.OK) else (s, Err.SLOT_BUSY)
  | .draining => (s, Err.SLOT_BUSY)
  | .evicted => (s, Err.SLOT_STATE)

/-- The shard entries of a slot that this package holds. -/
def State.slotShards (s : State) (n : Nat) : List Nat :=
  (s.slotObjs n).flatMap fun e => (List.range e.2.count).map (e.2.first + ·)

def State.recheckCmd (s : State) (n : Nat) : State × Code :=
  match (s.slot n).st with
  | .ready | .draining => (s.updSlotRaw n fun m => { m with recheckFirst := s.slotShards n }, Err.OK)
  | _ => (s, Err.SLOT_STATE)

/-- PROGRAM_LOAD (R141, R142): refused, or every context is stopped and the image seated; none while a core is not yet HALTED, when the
answer waits (`State.finishSeating`). A MODEL_SLOT above 63 is PARAM: R280 gives the range and no code (DESIGN CHOICE, notes/assumptions/120.md). -/
def State.programLoad (s : State) (home : PkgId) (r : CmdRec) : State × Option Code :=
  let n := fieldAt r.bytes 0x10 1
  if 63 < n then (s, some Err.PARAM)
  else if (s.slot n).st ≠ .ready then (s, some Err.IMAGE_NOT_READY)
  else
    match (s.slotObjs n).find? fun e => decide (e.2.kind = 2) && decide (imgId (s.objBytes n e.2) = fieldAt r.bytes 0x18 8) with
    | none => (s, some Err.IMAGE_UNKNOWN)
    | some e =>
      let s := s.stopForSeat
      if s.step.seating = [] ∧ s.allHalted then (s.seat n e.1, some Err.OK)
      else
        (s.updStep fun p => { p with seating := p.seating ++ [{ slot := n, image := e.1, load := true, since := s.rackTime, cmd := if home = s.me ∨ home = s.partner then some (home, r) else none }] },
          none)

/-! Applying records. -/

/-- The state and the RESULT entries, by partition of the home they come from, in the order of R243. -/
structure Applied where
  s : State
  out : List (Nat × ResEntry)

/-- A command that names a sequence: NO_SEQUENCE when the handle names none (R234). -/
def State.onSeq (s : State) (home : PkgId) (part : Nat) (b : Bytes) (f : Nat → State × Answer) : State × Answer :=
  match s.lookup home part (recHandle b) with
  | none => (s, answerAs b Err.NO_SEQUENCE)
  | some e => f e

/-- A command that takes a model slot, by a partition that its home admits (R314) (DEDUCED, notes/assumptions/75.md). -/
def State.onSlot (s : State) (admin : Bool) (b : Bytes) (f : Nat → State × Code) : State × Answer :=
  if !admin then (s, answerAs b Err.MODEL_DENIED)
  else if 63 < fieldAt b 0x10 1 then (s, answerAs b Err.PARAM)
  else let r := f (fieldAt b 0x10 1); (r.1, answerAs b r.2)

/-- Copy bytes to the host for a command of this package (R282, R314): QUERY_WRITE where PCIe reports the write failed, or the link carries no traffic (DEDUCED, notes/assumptions/58.md) (DEDUCED, notes/assumptions/76.md). -/
def State.queryWrite (s : State) (home : PkgId) (r : CmdRec) (dest : Nat) (bytes : Bytes) (detail : Nat) : State × Answer :=
  let b := r.bytes
  if dest % 64 ≠ 0 then (s, answerAs b Err.PARAM)
  else if home ≠ s.me then (s, { answerAs b Err.OK with detail := detail })
  else if !s.hostOpen ∨ s.pcie.failed.contains (r.part, r.stamp) then (s, answerAs b Err.QUERY_WRITE)
  else (s.emit (.hostWrite dest bytes), { answerAs b Err.OK with detail := detail })

/-- The effect of a record of a defined opcode; none when its RESULT comes later (DEDUCED, notes/assumptions/75.md). -/
def State.runCmd (s : State) (home : PkgId) (t : Nat) (r : CmdRec) : State × Option Answer :=
  let b := r.bytes
  let part := r.part.val
  let seqOp (f : Nat → State × Answer) : State × Option Answer := let x := s.onSeq home part b f; (x.1, some x.2)
  let slotOp (f : Nat → State × Code) : State × Option Answer := let x := s.onSlot r.admin b f; (x.1, some x.2)
  let dead (e : Nat) (f : State × Answer) : State × Answer :=
    match (s.seq e).st with
    | .expired => (s, answerAs b Err.EXPIRED)
    | .errored => (s, answerAs b Err.ERRORED)
    | _ => f
  match recOp b with
  | 0x00 => (s, some (answerAs b Err.OK))
  | 0x01 => let x := s.admitSeq home part r.time b; (x.1, some x.2)
  | 0x02 => seqOp fun e => let x := s.cancelSeq e; (x.1, answerAs b x.2)
  | 0x03 => seqOp fun e =>
      dead e (if 86400 < fieldAt b 0x10 4 then (s, answerAs b Err.PARAM)
        else let x := s.pauseSeq e t (fieldAt b 0x10 4); (x.1, answerAs b Err.OK x.2))
  | 0x04 => seqOp fun e => s.resumeSeq e part r.stamp b
  | 0x05 => seqOp fun e =>
      let max := s.rd SEQ_PART_CTLn.PRIO_MAX 0 part
      let p := fieldAt b 0x10 1
      dead e (s.updSeq e fun q => { q with prio := min max p }, answerAs b Err.OK (if max < p then flagClamped else 0))
  | 0x06 =>
      if fieldAt b 0x18 4 = 0 then (s, some (answerAs b Err.PARAM))
      else if (s.client (clientKey home (fieldAt b 0x10 2))).owner ≠ part then (s, some (answerAs b Err.CLIENT_DENIED))
      else (s.changeClient home { client := fieldAt b 0x10 2, rate := some (fieldAt b 0x14 4), burst := some (fieldAt b 0x18 4) },
        some (answerAs b Err.OK))
  | 0x07 => seqOp fun e => s.queryWrite home r (fieldAt b 0x10 8) (s.seq e).bytes 128
  | 0x10 => let x := s.programLoad home r; (x.1, x.2.map fun c => answerAs b c)
  | 0x20 =>
      if !r.admin then (s, some (answerAs b Err.MODEL_DENIED))
      else let x := s.loadCmd home b; (x.1, some x.2)
  | 0x21 => slotOp s.drainCmd
  | 0x22 => slotOp s.evictCmd
  | 0x23 =>
      if 63 < fieldAt b 0x10 1 then (s, some (answerAs b Err.PARAM))
      else
        let x := s.queryWrite home r (fieldAt b 0x18 8)
          ((s.slotWords (fieldAt b 0x10 1) t).flatMap (leBytes 4) ++ List.replicate 24 0) 64
        (x.1, some x.2)
  | 0x24 => slotOp s.recheckCmd
  | _ => (s, some (answerAs b Err.BAD_OPCODE))

/-- Apply one record of a home at a boundary at time `t` (R240, R279, R280). The entry of a PROGRAM_LOAD whose outcome is still to come waits for its code.
That of a TORN record shows the slot's OPCODE (DESIGN CHOICE, notes/assumptions/145.md). -/
def Applied.cmd (home : PkgId) (t : Nat) (a : Applied) (r : CmdRec) : Applied :=
  let (s, ans) :=
    if r.torn then (a.s, some { code := Err.TORN, handle := 0, flags := 0, detail := 0 })
    else if (payloadUsed (recOp r.bytes)).isSome ∧ !reservedZero r.bytes then (a.s, some (answerAs r.bytes Err.PARAM))
    else a.s.runCmd home t r
  let x := ans.getD (answerAs r.bytes Err.OK)
  let tag := if r.torn then 0 else recTag r.bytes
  let e := resultEntry (recOp r.bytes) x.code (BitVec.ofNat 32 x.handle) r.stamp x.flags tag s.step.id x.detail
  { s := s, out := a.out ++ [(r.part.val, { e with wait := ans.isNone })] }

end Sys2Proof.Machine
end

