-- ==== Sys2Proof/Machine/Packs.lean ====
section
/-!
DEFINITION. Packs and tiles (R28 to R45): decoding, malformed packs, and the encoder of the hearth's PACK and the stream unit's ENC.
-/
namespace Sys2Proof.Machine

/-! Decoding. -/

/-- An exact element: v × 2^e. -/
abbrev Elem := Int × Int

/-- FORMAT and OUTLIER_COUNT of a pack (R30). -/
def packFmt (p : Bytes) : Nat := fieldAt p 63 1 % 4
def packCount (p : Bytes) : Nat := fieldAt p 63 1 / 8

/-- Whether a pack is malformed by its own bytes (R32). -/
def packBad (p : Bytes) : Bool :=
  let tag := fieldAt p 63 1
  match packFmt p with
  | 3 => true
  | 2 => decide (4 ≤ tag)
  | _ => (decide (tag / 4 % 2 = 1) != decide (packCount p ≠ 0)) || ((List.range 7).any fun b => decide (fieldAt p (56 + b) 1 = 0xFF))

/-- Element `e` of a pack by its code and scale (R29, R33 to R35). -/
def packElem (p : Bytes) (e : Nat) : Elem :=
  let c := fieldAt p (e / 2) 1 / (if e % 2 = 0 then 1 else 16) % 16
  let s : Int := (fieldAt p (56 + e / 16) 1 : Int) - 127
  match packFmt p with
  | 0 => (fp4Twice c, s - 1)
  | 1 => (signN 4 c, s)
  | _ => (0, 0)

/-- A sidecar entry (R36): PACK, ELEMENT, VALUE and its reserved bits. -/
structure SideEnt where
  pack : Nat
  elem : Nat
  value : Nat
  res : Nat
  deriving DecidableEq, Repr

def sideEnt (v : Nat) : SideEnt := { pack := v / 2 ^ 10 % 64, elem := v / 2 ^ 3 % 128, value := v / 2 ^ 16, res := v % 8 }

/-- A tile read for a product: its 64 packs and the sidecar entries in use. -/
structure Tile where
  packs : List Bytes
  side : List SideEnt

/-- Whether sidecar entries rise strictly (R37). -/
def sideRises : List SideEnt → Bool
  | a :: b :: r => decide (128 * a.pack + a.elem < 128 * b.pack + b.elem) && sideRises (b :: r)
  | _ => true

/-- Read a tile with sidecar capacity `c`: the tile, or the byte offset of a malformed pack (R32, R37), 0 where the sidecar rules are broken
(DESIGN CHOICE, notes/assumptions/137.md). -/
def readTile (c : Nat) (b : Bytes) : Tile ⊕ Nat :=
  let packs := (List.range 64).map fun i => (b.drop (64 * i)).take 64
  match findIdx packBad packs 0 with
  | some (i, _) => .inr (64 * i)
  | none =>
    let n := packs.foldl (fun n p => n + packCount p) 0
    let side := (List.range (min n c)).map fun i => sideEnt (fieldAt b (4096 + 4 * i) 4)
    if decide (n ≤ c) && sideRises side &&
        (side.all fun e => decide (e.elem ≤ 111) && decide (e.res = 0) && decide (e.value / 128 % 256 ≠ 255)) &&
        ((List.range 64).all fun i => decide ((side.filter fun e => decide (e.pack = i)).length = packCount (packs.getD i []))) then
      .inl { packs := packs, side := side }
    else .inr 0

/-- Exact value of a number as an element; infinities and NaN do not arise. -/
def elemOfFp : Fp → Elem
  | .fin neg m e => (if neg then -(m : Int) else m, e)
  | _ => (0, 0)

/-- Element `e` of pack `p` of a tile, a sidecar VALUE standing in its place (R38). -/
def Tile.elem (t : Tile) (p e : Nat) : Elem :=
  match t.side.find? fun s => decide (s.pack = p) && decide (s.elem = e) with
  | some s => elemOfFp (fpOf16 s.value)
  | none => packElem (t.packs.getD p []) e

/-- Block `b` (0 to 13) of row `i` of a tile (R145). -/
def Tile.block (t : Tile) (i b : Nat) : List Elem := (List.range 16).map fun k => t.elem (2 * i + b / 7) (16 * (b % 7) + k)

/-- The exact sum of two elements. -/
def elemAdd (a b : Elem) : Elem :=
  if a.1 = 0 then b else if b.1 = 0 then a
  else
    let q := min a.2 b.2
    (a.1 * 2 ^ (a.2 - q).toNat + b.1 * 2 ^ (b.2 - q).toNat, q)

/-- The exact dot product of two blocks: one contribution (R46, R147). -/
def dot (a b : List Elem) : Elem := (a.zip b).foldl (fun s p => elemAdd s (p.1.1 * p.2.1, p.1.2 + p.2.2)) (0, 0)

/-! The encoder (R39 to R45). -/

/-- A value given to the encoder: a number, or a saturated accumulator entry of a sign (R54). -/
inductive EncVal where
  | num (x : Fp)
  | sat (neg : Bool)
  deriving DecidableEq, Repr

/-- The finite magnitude of a value, if it has one. -/
def EncVal.mag : EncVal → Option (Nat × Int)
  | .num (.fin _ m e) => some (m, e)
  | _ => none

/-- Whether magnitude `a` is strictly greater than 2^k × `b`. -/
def magGt (a b : Nat × Int) (k : Nat) : Bool :=
  let q := min a.2 (b.2 + k)
  decide (b.1 * 2 ^ (b.2 + k - q).toNat < a.1 * 2 ^ (a.2 - q).toNat)

/-- The fifth-largest finite magnitude of a block, zero when it has fewer than five (R39). -/
def fifth (b : List EncVal) : Nat × Int := (sortBy (fun a c => magGt a c 0) (b.filterMap EncVal.mag)).getD 4 (0, 0)

/-- Whether an element of a block is an outlier candidate for shift `k` (R39). -/
def isCand (k : Nat) (f : Nat × Int) (v : EncVal) : Bool :=
  decide (k ≠ 0) && (match v.mag with | some m => magGt m f k | none => false)

/-- The block scale exponent before its clamp: the smallest s with M ≤ L × 2^s (R41); none when M is zero. -/
def scaleOf (l : Nat) (m : Nat × Int) : Option Int :=
  if m.1 = 0 then none
  else
    let s0 : Int := m.1.log2 + m.2 - 4
    ((List.range 8).map fun (i : Nat) => s0 + (i : Int)).find? fun s => !magGt m (l, s) 0

/-- The four-bit code of an element at scale 2^s (R43, R44). -/
def encElem (fmt : Nat) (s : Int) (v : EncVal) : Nat :=
  let code (neg : Bool) (n : Nat) : Nat := if n = 0 then 0 else if fmt = 0 then (if neg then 8 + n else n) else if neg then 16 - n else n
  match v with
  | .sat neg => code neg 7
  | .num .nan => 0
  | .num (.inf neg) => code neg 7
  | .num (.fin neg m e) =>
    let d := e - s
    code neg (min 7 (if fmt = 0 then roundCode 2 (-1) m d else if 0 ≤ d then m * 2 ^ (min d.toNat 8) else shrRne m (-d).toNat))

/-- An encoded block: its codes, its scale byte, its sidecar values by element, and its counts: SCALE_CLAMP, NONFINITE, SATURATION and
OUTLIER_OVERFLOW. -/
structure EncBlock where
  codes : List Nat
  scale : Nat
  side : List (Nat × Nat)
  clamp : Nat
  nonf : Nat
  sat : Nat
  ovf : Nat
  deriving DecidableEq, Repr

/-- Encode one block with `room` sidecar entries left (R39 to R44). -/
def encBlock (fmt k room : Nat) (b : List EncVal) : EncBlock :=
  let f := fifth b
  let cands := b.map (isCand k f)
  let n := (cands.filter id).length
  let take := decide (n ≤ room)
  let outl := cands.map fun x => x && take
  let inBlock := (b.zip outl).filterMap fun p => if p.2 then none else some p.1
  let m := (sortBy (fun a c => magGt a c 0) (inBlock.filterMap EncVal.mag)).getD 0 (0, 0)
  let s0 := scaleOf (if fmt = 0 then 6 else 7) m
  let s := match s0 with | none => 0 | some x => max (-127) (min 127 x)
  let sides := ((List.range b.length).zip (b.zip outl)).filterMap fun p =>
    if p.2.2 then (match p.2.1 with | .num x => some (p.1, wout16 x) | .sat _ => none) else none
  { codes := (b.zip outl).map fun p => if p.2 then 0 else encElem fmt s p.1,
    scale := (s + 127).toNat,
    side := sides.map fun x => (x.1, x.2.1),
    clamp := match s0 with | some x => if x < -127 ∨ 127 < x then 1 else 0 | none => 0,
    nonf := (b.filter fun v => match v with | .num .nan => true | .num (.inf _) => true | _ => false).length,
    sat := (sides.filter fun x => x.2.2.1).length,
    ovf := if take then 0 else n }

/-- The 64 bytes of a pack of seven encoded blocks (R29, R30, R45). -/
def packBytes (fmt : Nat) (bs : List EncBlock) : Bytes :=
  let n := bs.foldl (fun n b => n + b.side.length) 0
  if n = 0 ∧ bs.all (fun b => b.codes.all fun c => decide (c = 0)) then List.replicate 63 0 ++ [2]
  else
    (bs.flatMap fun b => (List.range 8).map fun i => BitVec.ofNat 8 (b.codes.getD (2 * i) 0 + 16 * b.codes.getD (2 * i + 1) 0)) ++
      (bs.map fun b => BitVec.ofNat 8 b.scale) ++ [BitVec.ofNat 8 (8 * n + (if n = 0 then 0 else 4) + fmt)]

/-- Encode the 448 blocks of a tile in order, the sidecar filling as it goes (R40). -/
def encBlocks (fmt k : Nat) : Nat → List (List EncVal) → List EncBlock
  | _, [] => []
  | room, b :: r => let e := encBlock fmt k room b; e :: encBlocks fmt k (room - e.side.length) r

/-- Encode 7,168 values as a tile of 64 packs and its sidecar region (R36, R145), with the counts of its events. -/
def encTile (fmt cap k : Nat) (vals : List EncVal) : Bytes × List (Flag × Nat) :=
  let bs := encBlocks fmt k cap (chunks 16 448 vals)
  let packs := chunks 7 64 bs
  let sides := ((List.range packs.length).zip packs).flatMap fun p =>
    ((List.range p.2.length).zip p.2).flatMap fun b => b.2.side.map fun x => x.2 * 2 ^ 16 + p.1 * 2 ^ 10 + (16 * b.1 + x.1) * 2 ^ 3
  let side := sides.flatMap (leBytes 4)
  let sum (f : EncBlock → Nat) := bs.foldl (fun n b => n + f b) 0
  (packs.flatMap (packBytes fmt) ++ side ++ List.replicate (ceilDiv cap 16 * 64 - side.length) 0,
    [(.ovf, sum (·.ovf)), (.clamp, sum (·.clamp)), (.nonf, sum (·.nonf)), (.sat, sum (·.sat))])

end Sys2Proof.Machine
end

