-- ==== Sys2Proof/Machine/Hearth.lean ====
section
/-!
DEFINITION. The hearth (R145 to R160): the accumulator file, its instructions, its queue of four, and who holds it.
-/
namespace Sys2Proof.Machine

/-! The accumulator file. -/

/-- Entry (i, j). -/
def AccFile.ent (f : AccFile) (n : Nat) : AccEntry := SMap.get AccEntry.zero f.ents n

/-- The file whose entries a function gives. -/
def fileOf (mode : AccMode) (w : Int) (g : Nat → AccEntry) : AccFile :=
  { mode := mode, w := w, ents := (List.range 1024).filterMap fun n => if g n = AccEntry.zero then none else some (n, g n) }

/-- Add one contribution under window base `w` (R47 to R49): the entry, the WINDOW_LOW count and the SATURATION count. -/
def accAdd (w : Int) (e : AccEntry) (x : Elem) : AccEntry × Nat × Nat :=
  if e.sat then (e, 0, 0)
  else
    let v := if w ≤ x.2 then x.1 * 2 ^ (x.2 - w).toNat else Int.fdiv x.1 (2 ^ (w - x.2).toNat)
    let low := if x.2 < w ∧ Int.fmod x.1 (2 ^ (w - x.2).toNat) ≠ 0 then 1 else 0
    let s := e.val.toInt + v
    if 2 ^ 95 ≤ s then ({ val := BitVec.ofInt 96 (2 ^ 95 - 1), sat := true }, low, 1)
    else if s < -(2 ^ 95) then ({ val := BitVec.ofInt 96 (-(2 ^ 95)), sat := true }, low, 1)
    else ({ val := BitVec.ofInt 96 s, sat := false }, low, 0)

/-- The contributions of block pairs 0 to 13 to one entry, in order (R147). -/
def mma4Entry (w : Int) (a b : Tile) (i j : Nat) (e : AccEntry) : AccEntry × Nat × Nat :=
  (List.range 14).foldl (fun acc k =>
    let r := accAdd w acc.1 (dot (a.block i k) (b.block j k))
    (r.1, acc.2.1 + r.2.1, acc.2.2 + r.2.2)) (e, 0, 0)

/-- The exact sum of eight products (R56). -/
def group8 (a b : List Fp) : Fp :=
  match (a.zip b).map fun p => fpMul p.1 p.2 with
  | [] => .fin false 0 0
  | x :: r => r.foldl fpAdd x

/-- 64 products added to an FP32 entry in groups of eight, one rounding each (R56, R148). -/
def mmabEntry (a b : List Fp) (v : BitVec 32) : BitVec 32 :=
  ((chunks 8 8 a).zip (chunks 8 8 b)).foldl (fun acc g => fpTo32 (fpAdd (fpOf32 acc) (group8 g.1 g.2))) v

/-- Row `i` of a BF16 tile (R146). -/
def bf16Row (t : Bytes) (i : Nat) : List Fp := (List.range 64).map fun k => fpOf16 (fieldAt t (128 * i + 2 * k) 2)

/-- What an entry holds, as the write-outs see it (R52, R54). -/
def entryVal (mode : AccMode) (w : Int) (e : AccEntry) : EncVal :=
  match mode with
  | .clear => .num (.fin false 0 0)
  | .exact => if e.sat then .sat (decide (e.val.toInt < 0)) else .num (fpOfInt e.val.toInt w)
  | .bf16 => .num (fpOf32 (e.val.setWidth 32))

/-- An entry written to BF16 (`fmt` 0) or FP8 E4M3: the code and its SATURATION and NONFINITE counts (R53 to R55). -/
def woutVal (fmt : Nat) (v : EncVal) : Nat × Nat × Nat :=
  match v with
  | .sat neg => (if fmt = 0 then signBit neg 15 + 0x7F7F else signBit neg 7 + 0x7E, 0, 0)
  | .num x =>
    let r := if fmt = 0 then wout16 x else wout8 x
    (r.1, if r.2.1 then 1 else 0, if r.2.2 then 1 else 0)

/-- The code of a mode in an image (R152). -/
def AccMode.code : AccMode → Nat
  | .clear => 0
  | .exact => 1
  | .bf16 => 2

/-- The image of a file (R152). -/
def AccFile.image (f : AccFile) : Bytes :=
  (List.range 1024).flatMap fun n =>
    let e := f.ent n
    leBytes 16 ((if e.sat then 2 ^ 108 else 0) + f.mode.code * 2 ^ 106 +
      (if f.mode = .exact then (BitVec.ofInt 10 f.w).toNat * 2 ^ 96 else 0) + e.val.toNat)

/-- Whether an entry of an image keeps the rules of R153 for a MODE and a W. -/
def imageEntOk (mode w v : Nat) : Bool :=
  decide (v / 2 ^ 109 = 0) && decide (v / 2 ^ 106 % 4 = mode) && decide (v / 2 ^ 96 % 2 ^ 10 = w) &&
    (match mode with
     | 0 => decide (v % 2 ^ 96 = 0) && decide (w = 0) && decide (v / 2 ^ 108 = 0)
     | 1 => true
     | 2 => decide (v % 2 ^ 96 < 2 ^ 32) && decide (w = 0) && decide (v / 2 ^ 108 = 0)
     | _ => false)

/-- The file of an image, none when it is inconsistent (R153). -/
def imageFile (b : Bytes) : Option AccFile :=
  let v (n : Nat) := fieldAt b (16 * n) 16
  let mode := v 0 / 2 ^ 106 % 4
  let w := v 0 / 2 ^ 96 % 2 ^ 10
  if (List.range 1024).all fun n => imageEntOk mode w (v n) then
    some (fileOf (if mode = 0 then .clear else if mode = 1 then .exact else .bf16) (signN 10 w)
      fun n => { val := BitVec.ofNat 96 (v n), sat := decide (v n / 2 ^ 108 % 2 = 1) })
  else none

/-! What an instruction does when the hearth reaches it. -/

/-- The outcome of a hearth instruction. -/
inductive HearthRes where
  /-- Executed: the core after it and the events it counts. -/
  | done (k : Core) (flags : List (Flag × Nat))
  /-- Not executed: a step fault at a local offset (R32, R51, R149). -/
  | step (code : Code) (off : Nat)
  /-- Not executed: its context faults (R153, R158). -/
  | ctx (code : Code)

/-- The window base of an MMA4 (R155). -/
def hW (w : Insn) : Int := signN 10 (immBits w 17 8)

/-- MMA4 (R147, R149). The ADDRESS of an ACC_MODE or ACC_WINDOW fault is that of tile A: the spec gives none (DESIGN CHOICE, notes/assumptions/114.md). Those
two come before PACK_FORMAT, and tile A's malformed pack before tile B's (DESIGN CHOICE, notes/assumptions/137.md). -/
def Core.mma4 (k : Core) (h : HearthEntry) : HearthRes :=
  if k.file.mode = .bf16 then .step Err.ACC_MODE h.ra
  else if k.file.mode = .exact ∧ k.file.w ≠ hW h.w then .step Err.ACC_WINDOW h.ra
  else
    match readTile (hCA h.w) (k.rdLs h.ra (tileBytes (hCA h.w))), readTile (hCB h.w) (k.rdLs h.rb (tileBytes (hCB h.w))) with
    | .inr o, _ => .step Err.PACK_FORMAT (h.ra + o)
    | _, .inr o => .step Err.PACK_FORMAT (h.rb + o)
    | .inl a, .inl b =>
      let r := (List.range 1024).map fun n => mma4Entry (hW h.w) a b (n / 32) (n % 32) (k.file.ent n)
      let f := fileOf .exact (hW h.w) fun n => (r.getD n (AccEntry.zero, 0, 0)).1
      .done { k with file := f } [(.wlow, r.foldl (fun n x => n + x.2.1) 0), (.sat, r.foldl (fun n x => n + x.2.2) 0)]

/-- MMAB (R148, R149). The ADDRESS of an ACC_MODE fault is that of tile A (DESIGN CHOICE, notes/assumptions/114.md). -/
def Core.mmab (k : Core) (h : HearthEntry) : HearthRes :=
  if k.file.mode = .exact then .step Err.ACC_MODE h.ra
  else
    let a := k.rdLs h.ra 4096
    let b := k.rdLs h.rb 4096
    .done { k with file := fileOf .bf16 0 fun n =>
              { val := ((mmabEntry (bf16Row a (n / 32)) (bf16Row b (n % 32)) ((k.file.ent n).val.setWidth 32)).setWidth 96), sat := false } } []

/-- WOUT (R157). -/
def Core.wout (k : Core) (h : HearthEntry) : HearthRes :=
  let n := if hFMT h.w = 0 then 2 else 1
  let rows := (List.range 32).map fun i => (List.range 32).map fun j => woutVal (hFMT h.w) (entryVal k.file.mode k.file.w (k.file.ent (32 * i + j)))
  let k' := ((List.range 32).zip rows).foldl (fun k r => k.wrLs (h.ra + r.1 * h.rb) (r.2.flatMap fun v => leBytes n v.1)) k
  let all := rows.flatMap id
  .done k' [(.sat, all.foldl (fun n v => n + v.2.1) 0), (.nonf, all.foldl (fun n v => n + v.2.2) 0)]

/-- PACK (R158). -/
def Core.packTile (k : Core) (h : HearthEntry) : HearthRes :=
  let fs := (List.range 7).map fun n => imageFile (k.rdLs (h.ra + 0x4000 * n) 0x4000)
  if fs.any Option.isNone then .ctx Err.ACC_IMAGE
  else
    let files := fs.filterMap id
    let vals := (List.range 7168).map fun e =>
      let f := files.getD (e % 224 / 32) AccFile.cleared
      entryVal f.mode f.w (f.ent (32 * (e / 224) + e % 32))
    let r := encTile (immBits h.w 20 19) (hCA h.w) (immBits h.w 24 21) vals
    .done (k.wrLs h.rb r.1) r.2

/-- A hearth instruction by its OP (R155) (DEDUCED, notes/assumptions/52.md). -/
def Core.hearthRun (k : Core) (h : HearthEntry) : HearthRes :=
  match fOP h.w with
  | 0x00 => .done { k with file := AccFile.cleared } []
  | 0x01 => k.mma4 h
  | 0x02 => k.mmab h
  | 0x08 => k.wout h
  | 0x09 => .done (k.wrLs h.ra k.file.image) []
  | 0x0A =>
    match imageFile (k.rdLs h.ra 16384) with
    | some f => .done { k with file := f } []
    | none => .ctx Err.ACC_IMAGE
  | _ => k.packTile h

/-- Whether an entry is a PACK, which does not take the hearth (R150, R158). -/
def HearthEntry.isPack (h : HearthEntry) : Bool := decide (fOP h.w = 0x0C)

/-- Whether an entry releases the file when its write is done (R150). -/
def HearthEntry.releases (h : HearthEntry) : Bool := (decide (fOP h.w = 0x08) || decide (fOP h.w = 0x09)) && hRelease h.w

/-- The running entry at the head of a core's queue starts: it takes the hearth when free (R75), reads its operands word by word (R80), and
its work is done. An entry that does not execute raises its fault and leaves the queue (DEDUCED, notes/assumptions/52.md). The record of
ACC_IMAGE has ADDRESS zero (DESIGN CHOICE, notes/assumptions/138.md). -/
def State.hearthStart : Nat → State → Nat → State
  | 0, s, _ => s
  | fuel + 1, s, c =>
    match (s.core c).hearthQ with
    | [] => s
    | h :: rest =>
      let s := if h.isPack ∨ (s.core c).holder ≠ none then s else s.updCore c fun k => { k with holder := some h.ctx }
      let (good, s) := s.lsRegions c h.reads h.errs
      if !good then s.updCore c fun k => { k with hearthQ := k.hearthQ.filter fun g => decide (g ≠ h) }
      else match (s.core c).hearthRun h with
      | .done k flags => flags.foldl (fun s f => s.count f.1 f.2 (hLayer h.w)) (s.updCore c fun _ => k)
      | .step code off =>
        let s := s.updCore c fun k => { k with hearthQ := rest }
        State.hearthStart fuel (s.stepFault c h.ctx code (srfAddr s.me 0 (c * 2 ^ 20 + off)).toNat) c
      | .ctx code =>
        let s := s.updCore c fun k => { k with hearthQ := rest }
        State.hearthStart fuel (s.ctxFaultAt c h.ctx code 0 h.w h.pc) c

/-- The file enters CLEAR and the hearth is free (R150); the first queued instruction that takes the hearth, if there is one, takes it at once (R75). -/
def Core.releaseFile (k : Core) : Core :=
  let k := k.freeHearth
  match k.hearthQ.find? fun h => !h.isPack with
  | some h => { k with holder := some h.ctx }
  | none => k

/-- The running hearth instruction of a core ends: a releasing write-out frees the hearth (R150), as does the last instruction of a context that
has halted (R151), and the next starts (R159). -/
def State.hearthEnd (s : State) (c : Nat) : State :=
  match (s.core c).hearthQ with
  | [] => s
  | h :: rest =>
    let s := (s.updCore c fun k => { k with hearthQ := rest }).gatedEnd
    State.hearthStart 4 (if h.releases || h.last then s.updCore c Core.releaseFile else s) c

/-! Issue. -/

/-- Whether a region lies in local store (R156). -/
def inLs (a n : Nat) : Bool := decide (a + n ≤ lsBytes)

/-- A hearth instruction at issue (R156, R75, R159): `legal` and `range` are its checks; then it waits for another context's hearth, for a
place in the queue or for a token; then it enters the queue, and starts when it is alone in it (DEDUCED, notes/assumptions/52.md). The record of
HEARTH_RANGE has ADDRESS zero (DESIGN CHOICE, notes/assumptions/138.md). -/
def State.hearthIssue (s : State) (c : CoreId) (w : Insn) (es : Errs) (legal : Bool) (range : Nat → Nat → Bool) : State :=
  s.issue c w fun x s =>
    let t := (s.core c).ctx x
    let ra := (t.sreg (fRA w)).toNat
    let rb := (t.sreg (fRB w)).toNat
    if !legal then s.ctxFault c x Err.ILLEGAL_OP 0 w
    else if !range ra rb then s.ctxFault c x Err.HEARTH_RANGE 0 w
    else if (s.core c).holder ≠ none ∧ (s.core c).holder ≠ some x then
      s.updCtx c x fun t => { t with st := .waitSync, wait := .hearth }
    else if 4 ≤ (s.core c).hearthQ.length then s
    else
      s.gated c fun s =>
        let alone := decide ((s.core c).hearthQ = [])
        let h : HearthEntry := { ctx := x, w := w, pc := t.pc, ra := ra, rb := rb, errs := es }
        let s := s.updCore c fun k =>
          { k with hearthQ := k.hearthQ ++ [h], holder := if h.isPack then k.holder else some x }
        let s := s.retire c x
        if alone then State.hearthStart 4 s c else s

/-- The register fields and IMM bits that an instruction leaves reserved are zero (R155) (DEDUCED, notes/assumptions/60.md). -/
def hLegal (w : Insn) (op : Nat) (useRa useRb : Bool) : Bool :=
  decide (fOP w = op) && decide (fRD w = 0) && decide (fRC w = 0) && (useRa || decide (fRA w = 0)) && (useRb || decide (fRB w = 0))

/-- An offset is aligned and its region lies in local store (R156). -/
def hRegion (a n : Nat) : Bool := decide (a % 64 = 0) && inLs a n

def execAccClr (c : CoreId) (w : Insn) (s : State) : Res :=
  .next (s.hearthIssue c w [] (hLegal w 0x00 false false && decide (fIMM w = 0)) fun _ _ => true)

def execMma4 (c : CoreId) (w : Insn) (es : Errs) (s : State) : Res :=
  .next (s.hearthIssue c w es (hLegal w 0x01 true true && decide (hCA w ≤ 64) && decide (hCB w ≤ 64) && decide (hLayer w ≠ 0xFF))
    fun ra rb => hRegion ra (tileBytes (hCA w)) && hRegion rb (tileBytes (hCB w)))

def execMmab (c : CoreId) (w : Insn) (es : Errs) (s : State) : Res :=
  .next (s.hearthIssue c w es (hLegal w 0x02 true true && decide (immBits w 31 8 = 0) && decide (hLayer w ≠ 0xFF))
    fun ra rb => hRegion ra 4096 && hRegion rb 4096)

def execWout (c : CoreId) (w : Insn) (s : State) : Res :=
  .next (s.hearthIssue c w [] (hLegal w 0x08 true true && decide (hFMT w ≤ 1) && decide (immBits w 28 8 = 0) && decide (hLayer w ≠ 0xFF))
    fun ra rb => decide (ra % 64 = 0) && decide (rb % 64 = 0) && decide (rb ≠ 0) && inLs (ra + 31 * rb) (woutRow w))

def execAccSave (c : CoreId) (w : Insn) (s : State) : Res :=
  .next (s.hearthIssue c w [] (hLegal w 0x09 true false && decide (immBits w 31 30 = 0) && decide (immBits w 28 0 = 0))
    fun ra _ => hRegion ra 16384)

def execAccLoad (c : CoreId) (w : Insn) (es : Errs) (s : State) : Res :=
  .next (s.hearthIssue c w es (hLegal w 0x0A true false && decide (fIMM w = 0)) fun ra _ => hRegion ra 16384)

def execPack (c : CoreId) (w : Insn) (es : Errs) (s : State) : Res :=
  .next (s.hearthIssue c w es
    (hLegal w 0x0C true true && decide (hCA w ≤ 64) && decide (immBits w 20 19 ≤ 1) && decide (immBits w 18 8 = 0) && decide (hLayer w ≠ 0xFF))
    fun ra rb => hRegion ra 114688 && hRegion rb (tileBytes (hCA w)))

/-- The hearth finishes an instruction (R159). -/
def execHearthInstructionComplete (c : CoreId) (s : State) : Res := .next (s.hearthEnd c)

end Sys2Proof.Machine
end

