-- ==== Sys2Proof/Machine/Stream.lean ====
section
/-!
DEFINITION. The stream unit (R83 to R85, R333 to R353): blocks, the prefix code, DEC, ENC, SYNC.S and the end of a command.
-/
namespace Sys2Proof.Machine

/-! Blocks (R333 to R338). -/

/-- The fields of a block header (R334). -/
structure BlockHdr where
  codec : Nat
  slot : Nat
  gen : Nat
  fill : Nat
  length : Nat
  substream : Nat
  ordinal : Nat
  crc : Nat
  /-- The reserved bits, zero in a well-formed header. -/
  res : Nat
  deriving DecidableEq, Repr

def blockHdr (b : Bytes) : BlockHdr :=
  { codec := fieldAt b 0 1 % 4, res := fieldAt b 0 1 / 4 + fieldAt b 1 1 / 16, slot := fieldAt b 1 1 % 16, gen := fieldAt b 2 1,
    fill := fieldAt b 3 1, length := fieldAt b 4 2, substream := fieldAt b 6 2, ordinal := fieldAt b 8 4, crc := fieldAt b 12 4 }

/-- Whether a header is well formed (R335). -/
def BlockHdr.ok (h : BlockHdr) : Bool :=
  decide (h.res = 0) &&
    match h.codec with
    | 0 => decide (h.length = 4096) && decide (h.fill = 0) && decide (h.slot = 0) && decide (h.gen = 0)
    | 1 => decide (1 ≤ h.length) && decide (h.length ≤ 4080) && decide (h.fill = 0)
    | 2 => decide (h.length = 0) && (decide (h.fill = 0) || decide (h.fill = 2)) && decide (h.slot = 0) && decide (h.gen = 0)
    | _ => false

/-- Stored size of a block (R333). -/
def storedSize (length : Nat) : Nat := 64 * ceilDiv (16 + length) 64

/-- The ZERO pattern of a FILL (R336). -/
def zeroBlock (fill : Nat) : Bytes := (List.range 4096).map fun i => if i % 64 = 63 then BitVec.ofNat 8 fill else 0

/-- The canonical codes of a table: (length, code, symbol) in ascending (ℓ, v) (R337). -/
def canonCodes (lens : List Nat) : List (Nat × Nat × Nat) :=
  let syms := (List.range 15).flatMap fun l => ((List.range 256).filter fun v => decide (lens.getD v 0 = l + 1)).map fun v => (l + 1, v)
  (syms.foldl (fun (acc : List (Nat × Nat × Nat) × Nat × Nat) x =>
    let code := if acc.1 = [] then 0 else (acc.2.2 + 1) * 2 ^ (x.1 - acc.2.1)
    (acc.1 ++ [(x.1, code, x.2)], x.1, code)) ([], 0, 0)).1

/-- The bits of a byte, bit 7 first (R337). -/
def byteBits (b : Byte) : List Bool := (List.range 8).map fun i => b.getLsbD (7 - i)

/-- Decode bits to exactly `left` symbols: the symbols and the bits left over; none for a pattern without a code or a payload that runs out
(R338). -/
def decodeBits (codes : List (Nat × Nat × Nat)) : Nat → Nat → Nat → List Bool → Option (Bytes × List Bool)
  | 0, _, _, bits => some ([], bits)
  | _ + 1, _, _, [] => none
  | left + 1, len, code, b :: bits =>
    let c := 2 * code + (if b then 1 else 0)
    if 15 ≤ len then none
    else
      match codes.find? fun x => decide (x.1 = len + 1) && decide (x.2.1 = c) with
      | some x => (decodeBits codes left 0 0 bits).map fun r => (BitVec.ofNat 8 x.2.2 :: r.1, r.2)
      | none => decodeBits codes (left + 1) (len + 1) c bits
termination_by structural _ _ _ bits => bits

/-- Decode a TABLE payload (R337, R338). -/
def decodeTable (lens : List Nat) (payload : Bytes) : Option Bytes :=
  match decodeBits (canonCodes lens) 4096 0 0 (payload.flatMap byteBits) with
  | some (out, rest) => if rest.length < 8 ∧ rest.all (fun b => !b) then some out else none
  | none => none

/-- The outcome of steps 1 to 5 of R350 for one block, with the stored bytes that were read: the header's line where steps 1 to 3 fail, else the whole
block (DEDUCED, notes/assumptions/125.md). -/
inductive BlockRes where
  | good (data : Bytes) (stored : Nat)
  /-- Failure at step 3: STALE_TABLE. -/
  | stale (stored : Nat)
  /-- Failure at any other step. -/
  | bad (stored : Nat)
  /-- A source line outside its space, or answered with an error response. -/
  | outside (stored : Nat)
  deriving DecidableEq, Repr

/-- Stored bytes that were read. -/
def BlockRes.stored : BlockRes → Nat
  | .good _ n | .stale n | .bad n | .outside n => n

/-- Judge and decode one block from its stored bytes (R350): `slot` is the command's table slot, when USE_SLOT is 1, with what it holds. -/
def decodeBlock (b : Bytes) (substream ordinal : Nat) (slot : Option (Nat × TableSlot)) : BlockRes :=
  let h := blockHdr b
  let n := storedSize h.length
  if b.length < 64 then .outside 0
  else if !h.ok ∨ h.substream ≠ substream ∨ h.ordinal ≠ ordinal % 2 ^ 32 then .bad 64
  else if b.length < n then .outside (64 * (b.length / 64))
  else
    let stale := decide (h.codec = 1) &&
      (match slot with
       | none => true
       | some (k, t) => !(decide (h.slot = k) && t.valid && decide (t.gen = h.gen)))
    if stale then .stale 64
    else
      let payload := (b.drop 16).take h.length
      let data := match h.codec with
        | 0 => some payload
        | 1 => decodeTable ((slot.map (·.2.lens)).getD []) payload
        | _ => some (zeroBlock h.fill)
      match data with
      | some d => if (crc32c d).toNat = h.crc then .good d n else .bad n
      | none => .bad n

/-! The encoder in BLOCK mode (R353). -/

/-- Bits to bytes, bit 7 first, the last byte padded with zeros. -/
def bitsBytes (bits : List Bool) : Bytes :=
  (chunks 8 (ceilDiv bits.length 8) bits).map fun c =>
    BitVec.ofNat 8 ((List.range 8).foldl (fun n i => 2 * n + (if c.getD i false then 1 else 0)) 0)

/-- The payload of a block under a table, when every byte has a code (R353). -/
def encodeTable (lens : List Nat) (data : Bytes) : Option Bytes :=
  let codes := canonCodes lens
  if data.all fun b => decide (lens.getD b.toNat 0 ≠ 0) then
    some (bitsBytes (data.flatMap fun b =>
      match codes.find? fun x => decide (x.2.2 = b.toNat) with
      | some x => (List.range x.1).map fun i => decide (x.2.1 / 2 ^ (x.1 - 1 - i) % 2 = 1)
      | none => []))
  else none

/-- A block with its header and padding (R333, R334). -/
def blockBytes (codec slot gen fill substream ordinal : Nat) (crc : BitVec 32) (payload : Bytes) : Bytes :=
  let b := leBytes 1 codec ++ leBytes 1 slot ++ leBytes 1 gen ++ leBytes 1 fill ++ leBytes 2 payload.length ++ leBytes 2 substream ++
    leBytes 4 ordinal ++ leBytes 4 crc.toNat ++ payload
  b ++ List.replicate (storedSize payload.length - b.length) 0

/-- Encode one block of 4,096 bytes (R353). -/
def encodeBlock (substream ordinal : Nat) (slot : Option (Nat × TableSlot)) (data : Bytes) : Bytes :=
  let crc := crc32c data
  let raw := blockBytes 0 0 0 0 substream ordinal crc data
  if data = zeroBlock 0 then blockBytes 2 0 0 0 substream ordinal crc []
  else if data = zeroBlock 2 then blockBytes 2 0 0 2 substream ordinal crc []
  else
    match slot with
    | some (k, t) =>
      if t.valid then
        match encodeTable t.lens data with
        | some p => if p.length ≤ 4080 then blockBytes 1 k t.gen 0 substream ordinal crc p else raw
        | none => raw
      else raw
    | none => raw

/-! Commands. -/

/-- Table slot `n` of a wing. -/
def State.tableSlot (s : State) (w n : Nat) : TableSlot := SMap.get TableSlot.reset (s.wing w).tables n

/-- Change a table slot of a wing. -/
def State.updTable (s : State) (w n : Nat) (f : TableSlot → TableSlot) : State :=
  s.updWing w fun g => { g with tables := SMap.upd TableSlot.reset g.tables n f }

/-- The stored bytes at byte `pos` of a source, at most one block: what this package's memory holds, or what the far package answered. None is
outside the space, or lost (R350, R401). -/
def State.blockSource (s : State) (a : BitVec 64) (far : Bytes) (pos : Nat) : Bytes :=
  if s.pair.lost.contains (srfPkg a) then []
  else if srfPkg a = s.me then
    s.memRead (a + BitVec.ofNat 64 pos) (min 4160 ((if srfSpace a = 0 then 4096 * lsBytes else s.cellarBytes) - (srfOff a + pos)))
  else (far.drop pos).take 4160

/-- `n` lines of a source from `p` on are read one after another through their codes (R80, R365): how many passed before one was withheld. -/
def State.streamLines (s : State) (p : BitVec 64) (n : Nat) (es : Errs) : Nat × State :=
  let r := (List.range n).foldl (fun (r : Bool × Nat × State) k =>
    if r.1 then
      let q := r.2.2.srfCode (p + BitVec.ofNat 64 (64 * k)) 64 (Errs.after es (k * (64 / srfUnit p)))
      (q.1, if q.1 then k + 1 else r.2.1, q.2)
    else r) (true, 0, s)
  r.2

/-- One block fetched and judged: the lines that are read of it pass their codes, which show `es` from the source's first (R80, R365). -/
def State.fetchBlock (s : State) (a : BitVec 64) (far : Bytes) (pos substream ordinal : Nat) (slot : Option (Nat × TableSlot)) (es : Errs) :
    BlockRes × State :=
  let r := decodeBlock (s.blockSource a far pos) substream ordinal slot
  let q := s.streamLines (a + BitVec.ofNat 64 pos) (r.stored / 64) (Errs.after es (pos / srfUnit a))
  (if 64 * q.1 < r.stored then .outside (64 * q.1) else r, q.2)

/-- The model slot and shard entry whose stored bytes hold a cellar address, in a READY or DRAINING footprint (R351). -/
def State.shardAt (s : State) (off : Nat) : Option (Nat × Nat) :=
  (List.range 64).findSome? fun n =>
    let m := s.slot n
    if (m.st = .ready ∨ m.st = .draining) ∧ s.slotBase n ≤ off ∧ off < s.slotBase n + m.extents * extentBytes then
      (s.slotObjs n).findSome? fun o =>
        (List.range o.2.count).findSome? fun i =>
          let b := s.slotBase n + o.2.off + i * extentBytes
          if b ≤ off ∧ off < b + (manShard m.manifest (o.2.first + i)).len then some (n, o.2.first + i) else none
    else none

/-- How a decoding run ended. -/
structure RunEnd where
  s : State
  bytes : Nat
  status : Nat
  fault : Option Code
  rehash : Option (Nat × Nat)
  addr : Nat

/-- A run that stops at byte `pos` of its source. -/
def RunEnd.stop (s : State) (bytes status : Nat) (fault : Option Code) (rehash : Option (Nat × Nat)) (addr : Nat) : RunEnd :=
  { s := s, bytes := bytes, status := status, fault := fault, rehash := rehash, addr := addr }

/-- Decode `left` blocks from byte `pos` of the source to local-store offset `dst` of core `c` (R350, R351). A block that fails is fetched once
more; a line outside the source's space ends the command. A block of a READY or DRAINING footprint that stands in no stored shard has nothing to
re-hash: STREAM_DATA (DEDUCED, notes/assumptions/125.md). -/
def State.decodeRun (c : Nat) (a : BitVec 64) (far again : Bytes) (es : Errs) (substream : Nat) (slot : Option Nat) :
    Nat → Nat → Nat → Nat → Nat → State → RunEnd
  | 0, _, _, _, bytes, s => RunEnd.stop s bytes 0 none none 0
  | left + 1, pos, ord, dst, bytes, s =>
    let w := wingOf c
    let tb := slot.map fun n => (n, s.tableSlot w n)
    let here := (a + BitVec.ofNat 64 pos).toNat
    let f := s.fetchBlock a far pos substream ord tb es
    let inj := f.2.inject (Block.cmp.page w) 0 3 here
    let first := if inj.1 then (match f.1 with | .good _ n => BlockRes.bad n | r => r) else f.1
    let s := inj.2.bump64 CMP_IN_LO.BYTES first.stored w
    let refetch := match first with | .stale _ | .bad _ => true | _ => false
    let f := if refetch then s.fetchBlock a (if srfPkg a = s.me then [] else again) pos substream ord tb [] else (first, s)
    let s := if refetch then f.2.bump64 CMP_IN_LO.BYTES f.1.stored w else f.2
    match f.1 with
    | .good d n =>
      let s := if refetch then s.bump CMP_REFETCH.REFETCHES 1 w else s
      let s := (s.updCore c fun k => k.wrLs dst d).bump64 CMP_OUT_LO.BYTES 4096 w
      State.decodeRun c a far again es substream slot left (pos + n) (ord + 1) (dst + 4096) (bytes + 4096) s
    | .outside _ => RunEnd.stop s bytes 3 (some Err.REMOTE_ERR) none here
    | .stale _ =>
      let s := ((s.bump CMP_REFETCH.PERSISTENT 1 w).raiseIrq .cmp w 1).bump CMP_STALE.COUNT 1 w
      RunEnd.stop (s.raiseIrq .cmp w 0) bytes 1 (some Err.STALE_TABLE) none here
    | .bad _ =>
      let s := (s.bump CMP_REFETCH.PERSISTENT 1 w).raiseIrq .cmp w 1
      let inModel := decide (srfPkg a = s.me) && decide (srfSpace a = 1) && s.inFootprint (srfOff (a + BitVec.ofNat 64 pos)) 1
      let sh := if inModel then s.shardAt (srfOff (a + BitVec.ofNat 64 pos)) else none
      RunEnd.stop s bytes 2 (if sh.isSome then none else some (if inModel then Err.STREAM_DATA else Err.STREAM_CHECK)) sh here

/-! ENC's work (R348, R353). -/

/-- ENC in BLOCK mode: `n` blocks encoded one after another (R353). -/
def encBlocksRun (substream ord : Nat) (slot : Option (Nat × TableSlot)) (data : Bytes) (n : Nat) : Bytes :=
  (List.range n).flatMap fun i => encodeBlock substream (ord + i) slot ((data.drop (4096 * i)).take 4096)

/-- ENC in PACK mode: one tile of 7,168 values (R348, R85). -/
def encTileRun (w : Insn) (data : Bytes) : Bytes × List (Flag × Nat) :=
  let vals := (List.range 7168).map fun i =>
    EncVal.num (if immBits w 30 30 = 0 then fpOf32 (BitVec.ofNat 32 (fieldAt data (4 * i) 4)) else fpOf16 (fieldAt data (2 * i) 2))
  encTile (immBits w 18 17) (immBits w 29 23) (immBits w 22 19) vals

/-- The work of ENC on a source whose words pass their codes. -/
def State.encodeRun (s : State) (c : Nat) (q : StreamCmd) : RunEnd :=
  let ra := q.ra.toNat
  let rb := q.rb.toNat
  let k := s.core c
  if immBits q.w 31 31 = 0 then
    let n := bits64 q.rc 15 0
    let b := encBlocksRun (bits64 q.rc 31 16) (bits64 q.rc 63 32) (q.table.map fun m => (m, s.tableSlot (wingOf c) m)) (k.rdLs ra (4096 * n)) n
    RunEnd.stop (s.updCore c fun k => k.wrLs rb b) b.length 0 none none 0
  else
    let n := bits64 q.rc 15 8
    let size := if immBits q.w 30 30 = 0 then 4 else 2
    let tiles := (List.range n).map fun i => encTileRun q.w (k.rdLs (ra + 7168 * size * i) (7168 * size))
    let b := tiles.flatMap (·.1)
    let s := (tiles.flatMap (·.2)).foldl (fun s f => s.count f.1 f.2 (bits64 q.rc 7 0)) s
    RunEnd.stop (s.updCore c fun k => k.wrLs rb b) b.length 0 none none 0

/-- Bytes that ENC reads at RA. -/
def encSource (w : Insn) (rc : BitVec 64) : Nat :=
  if immBits w 31 31 = 0 then 4096 * bits64 rc 15 0 else 7168 * (if immBits w 30 30 = 0 then 4 else 2) * bits64 rc 15 8

/-! Commands. -/

/-- The work of a command when its engine reaches it (R130). An ENC whose source holds an uncorrectable word encodes nothing: the word is withheld, and the
package hands its work over (R80) (DEDUCED, notes/assumptions/122.md). -/
def State.streamRun (s : State) (c : Nat) (q : StreamCmd) : RunEnd :=
  if q.dec then
    State.decodeRun c q.ra q.far q.again q.errs (bits64 q.rc 31 16) q.table (bits64 q.rc 15 0) 0 (bits64 q.rc 63 32) q.rb.toNat 0 s
  else
    let r := s.lsReads c q.ra.toNat (encSource q.w q.rc) q.errs
    if r.1 then r.2.encodeRun c q else RunEnd.stop r.2 0 3 none none 0

/-- An engine of a core takes the oldest of its commands, unless it serves it already (R83): the decoder's where `dec`, else the encoder's. -/
def State.streamServe (s : State) (c : Nat) (dec : Bool) : State :=
  match (s.core c).streams.find? fun q => decide (q.dec = dec) with
  | none => s
  | some q =>
    if q.started then s
    else
      let r := s.streamRun c q
      r.s.updCore c fun k =>
        { k with streams := k.streams.map fun p =>
            if p.ctx = q.ctx then { p with started := true, status := r.status, bytes := r.bytes, fault := r.fault, rehash := r.rehash, addr := r.addr }
            else p }

/-- A stream command at issue (R66, R83, R344, R348): `legal` gives ILLEGAL_OP, `fault` its other check, `slot` the table slot of USE_SLOT = 1. The
command stands in its context's slot until it ends, and its engine serves it when those before it have ended. -/
def State.streamIssue (s : State) (c : CoreId) (w : Insn) (legal : Bool) (fault : Ctx → Option Code) (slot : Option Nat)
    (dec : Bool) (far again : Bytes) (es : Errs) : State :=
  s.issue c w fun x s =>
    let t := (s.core c).ctx x
    let wg := wingOf c
    if !legal then s.ctxFault c x Err.ILLEGAL_OP 0 w
    else
      match fault t with
      | some code => s.ctxFault c x code (t.sreg (fRA w)).toNat w
      | none =>
        if (s.core c).streams.any fun q => decide (q.ctx = x) then s.updCtx c x fun t => { t with st := .waitSync, wait := .stream }
        else
          match slot.bind fun n => if (s.tableSlot wg n).pend.isSome then some n else none with
          | some n => s.updCtx c x fun t => { t with st := .waitSync, wait := .table n }
          | none =>
            s.gated c fun s =>
              let s := match slot with | some n => s.updTable wg n fun q => { q with inflight := q.inflight + 1 } | none => s
              let cmd : StreamCmd := { ctx := x, dec := dec, ra := t.sreg (fRA w), rb := t.sreg (fRB w), rc := t.sreg (fRC w), far := far, again := again,
                                       errs := es, table := slot, compl := 8 * immBits w 16 0, w := w, pc := t.pc }
              ((s.updCore c fun k => { k with streams := k.streams ++ [cmd] }).retire c x).streamServe c dec

/-- A local region of a stream command lies in local store, 64-byte aligned (R348). -/
def streamRegion (a n : Nat) : Bool := decide (a % 64 = 0) && inLs a n

/-- DEC's checks (R348, R118). -/
def State.decFault (s : State) (w : Insn) (t : Ctx) : Option Code :=
  let a := t.sreg (fRA w)
  let n := bits64 (t.sreg (fRC w)) 15 0
  match s.remoteCheck a 1 with
  | some code => some code
  | none =>
    if srfOff a % 64 ≠ 0 ∨ n < 1 ∨ 256 < n ∨ !streamRegion (t.sreg (fRB w)).toNat (4096 * n) then some Err.STREAM_RANGE else none

/-- DEC (R347, R350): `far` and `farAgain` are the stored bytes another package's home answers, at the first fetch and at the refetch. -/
def execDec (c : CoreId) (w : Insn) (far farAgain : Bytes) (es : Errs) (s : State) : Res :=
  let slot := if immBits w 27 27 = 1 then some (immBits w 31 28) else none
  .next (s.streamIssue c w (decide (fOP w = 0x00) && decide (immBits w 26 17 = 0)) (s.decFault w) slot true far farAgain es)

/-- ENC's checks (R348). -/
def encFault (w : Insn) (t : Ctx) : Option Code :=
  let ra := (t.sreg (fRA w)).toNat
  let rb := (t.sreg (fRB w)).toNat
  let rc := t.sreg (fRC w)
  let good :=
    if immBits w 31 31 = 0 then
      let n := bits64 rc 15 0
      decide (1 ≤ n) && decide (n ≤ 256) && streamRegion ra (4096 * n) && streamRegion rb (4160 * n)
    else
      let n := bits64 rc 15 8
      let size := if immBits w 30 30 = 0 then 4 else 2
      decide (1 ≤ n) && decide (n ≤ 16) && decide (immBits w 29 23 ≤ 64) && decide (immBits w 18 17 ≤ 1) &&
        streamRegion ra (7168 * size * n) && streamRegion rb (tileBytes (immBits w 29 23) * n)
  if good then none else some Err.STREAM_RANGE

/-- ENC (R347, R353). -/
def execEnc (c : CoreId) (w : Insn) (es : Errs) (s : State) : Res :=
  let block := decide (immBits w 31 31 = 0)
  let slot := if block ∧ immBits w 26 26 = 1 then some (immBits w 30 27) else none
  .next (s.streamIssue c w (decide (fOP w = 0x01) && (!block || decide (immBits w 25 17 = 0))) (encFault w) slot false [] [] es)

/-- SYNC.S (R349): waits while the context's command runs, and then passes. -/
def execSyncS (c : CoreId) (w : Insn) (s : State) : Res :=
  .next (s.issue c w fun x s =>
    if fOP w ≠ 0x02 ∨ fIMM w ≠ 0 then s.ctxFault c x Err.ILLEGAL_OP 0 w
    else if (s.core c).streams.any fun q => decide (q.ctx = x) then
      (s.retire c x).updCtx c x fun t => { t with st := .waitSync, wait := .stream }
    else s.retire c x)

/-- What a stream command's end leaves of its fault (R351, R352): with a shard to re-hash its context is FAULTED and the fault is decided by the
re-hash; a second STREAM_CHECK in one step hands the work over. With `gone` its context has been stopped or has faulted before: the shard is
re-hashed, and nothing else comes of it (R70). -/
def State.streamFault (s : State) (c : Nat) (q : StreamCmd) (gone : Bool) : State :=
  let x := q.ctx
  match q.rehash, q.fault with
  | some r, _ =>
    let s := if gone then s else s.updCtx c x fun t => { t with st := .faulted, wait := .none, sink := none }
    s.updCore c fun k => { k with rehash := k.rehash ++ [{ ctx := x, slot := r.1, shard := r.2, addr := q.addr, w := q.w, pc := q.pc, gone := gone }] }
  | none, some code =>
    if gone then s
    else if code = Err.STREAM_CHECK ∧ s.step.faults.any fun f => decide (f.code = code) then
      (s.enterFaulted c x code).fatal (s.mkErr code sevPackage c q.addr (ctx := some x))
    else s.ctxFaultAt c x code q.addr q.w q.pc
  | none, none => s

/-- The end of a context's stream command (R83, R125, R343, R351): the completion word, the reference released, the waiting context READY, its
fault, and the engine's next command. -/
def State.streamEnd (s : State) (c x : Nat) : State :=
  match (s.core c).streams.find? fun q => decide (q.ctx = x) with
  | none => s
  | some q =>
    if !q.started then s
    else
      let s := (s.updCore c fun k => { k.wrLs q.compl (completionWord q.status q.bytes) with streams := k.streams.filter fun r => decide (r.ctx ≠ x) }).gatedEnd
      let s := match q.table with
        | some n => s.updTable (wingOf c) n fun t => { t with inflight := t.inflight - 1 }
        | none => s
      let t := (s.core c).ctx x
      let s := if t.wait = .stream then s.updCtx c x fun t => { t with st := .ready, wait := .none } else s
      let s := s.streamFault c q (q.stopped || decide (t.st = .halted) || decide (t.st = .faulted))
      s.streamServe c q.dec

/-- STREAM_COMPLETE (R83): the command that its engine serves ends. -/
def execStreamComplete (c : CoreId) (x : CtxId) (s : State) : Res := .next (s.streamEnd c x)

/-- A pending table load is written into its slot once the slot's references are gone, and the contexts that wait for it become READY
(R344, R345). -/
def execTableSlotLoad (w : Wing) (n : Fin 16) (s : State) : Res :=
  let t := s.tableSlot w n
  match t.pend with
  | some (gen, lens) =>
    if t.inflight = 0 then
      let s := s.updTable w n fun _ => { valid := true, gen := gen, lens := lens, inflight := 0, pend := none }
      let s := if s.on CMP_SET.LOADED w || s.seated.isNone then s else s.showTables w
      .next (s.mapCores fun c k => if wingOf c = w then k.wake fun q => decide (q = Wait.table n) else k)
    else .next s
  | none => .next s

end Sys2Proof.Machine
end

