-- ==== Sys2Proof/Machine/Slots.lean ====
section
/-!
DEFINITION. Loading, checking and repairing model versions (R305 to R330): roots, relocations, the checks of VERIFYING, load reports, slot changes at
a boundary (R313), re-checks and repair.
-/
namespace Sys2Proof.Machine

/-! Roots (R307). -/

/-- One level of the tree: children in pairs, the last without a partner unchanged. -/
def rootLevel : List Bytes → List Bytes
  | a :: b :: r => sha512 (1 :: (a ++ b)) :: rootLevel r
  | l => l

/-- Levels until one hash remains. -/
def rootFold : Nat → List Bytes → Bytes
  | _, [x] => x
  | 0, l => l.headD []
  | n + 1, l => rootFold n (rootLevel l)

/-- The SHA-512 root of a shard. -/
def shardRoot (b : Bytes) : Bytes :=
  rootFold 11 ((chunks 65536 (b.length / 65536 + 1) b).map fun l => sha512 (0 :: l))

/-! Shards and relocations of a slot. -/

/-- The object that holds shard entry `k`, and the cellar address of the shard (R306). -/
def State.shardPlace (s : State) (n k : Nat) : Option (Nat × Nat) :=
  ((s.slotObjs n).find? fun e => decide (e.2.first ≤ k) && decide (k < e.2.first + e.2.count)).map fun e =>
    (e.1, s.slotBase n + e.2.off + (k - e.2.first) * extentBytes)

/-- Relocation entries of a slot: (object, byte). -/
def State.slotRelocs (s : State) (n : Nat) : List (Nat × Nat) :=
  let m := (s.slot n).manifest
  (List.range (manRelocCount m)).map (manReloc m)

/-- Add a number to an 8-byte field of a byte string. -/
def addField (b : Bytes) (o : Nat) (d : Nat) : Bytes := b.take o ++ leBytes 8 (fieldAt b o 8 + d) ++ b.drop (o + 8)

/-- The bytes of a shard with `d` added to each relocated field in it: the negative of the footprint base gives manifest values (R329). -/
def State.relocShard (s : State) (n k d : Nat) (b : Bytes) : Bytes :=
  match s.shardPlace n k with
  | none => b
  | some (o, _) =>
    let lo := (k - (manObj (s.slot n).manifest o).first) * extentBytes
    ((s.slotRelocs n).filter fun r => decide (r.1 = o) && decide (lo ≤ r.2) && decide (r.2 + 8 ≤ lo + b.length)).foldl
      (fun b r => addField b (r.2 - lo) d) b

/-- Whether a stored shard of a READY or DRAINING slot has its root, relocated fields taken at their manifest values (R329). A line of the bad-line list never reaches
the hasher (R365). -/
def State.shardGood (s : State) (n k : Nat) : Bool :=
  match s.shardPlace n k with
  | none => true
  | some (_, a) =>
    let e := manShard (s.slot n).manifest k
    !s.celBad a e.len && decide (shardRoot (s.relocShard n k (2 ^ 64 - s.slotBase n) (s.celRead a e.len)) = e.root)

/-- The hasher reads a stored shard through the codes of its lines (R365), and finds whether it has its root: none where a line was withheld. -/
def State.hashShard (s : State) (n k : Nat) (es : Errs) : Option Bool × State :=
  match s.shardPlace n k with
  | none => (some true, s)
  | some (_, a) =>
    let r := s.cellarReads a (manShard (s.slot n).manifest k).len es
    (if r.1 then some (s.shardGood n k) else none, r.2)

/-- Whether shard bytes as they come from a source have their root. -/
def State.arrivalGood (s : State) (n k : Nat) (b : Bytes) : Bool :=
  let e := manShard (s.slot n).manifest k
  decide (b.length = e.len) && decide (shardRoot b = e.root)

/-- Apply the relocations of the objects this package holds (R308). -/
def State.relocate (s : State) (n : Nat) : State :=
  (s.slotRelocs n).foldl (fun s r =>
    match (s.slotObjs n).find? fun e => decide (e.1 = r.1) with
    | none => s
    | some e =>
      let a := s.slotBase n + e.2.off + r.2
      { s with cellar := Memory.write s.cellar a (leBytes 8 (leNat (s.celSafe a 8) + s.slotBase n)) }) s

/-! Checks of VERIFYING (R319). -/

/-- One chain of an attention map (R181). -/
def chainOk (c : Chain) (raw : Bytes) : Bool :=
  decide (c.layer ≤ 254) && decide (1 ≤ c.h) && decide (c.h ≤ 4) && decide (c.format ≤ 1) && decide (c.x0 ≤ c.x1) && decide (c.x1 ≤ 63) &&
    decide (c.y0 ≤ c.y1) && decide (c.y1 ≤ 63) && decide (1 ≤ c.span) && decide (c.span ≤ 16384) && decide (c.lsSlots ≤ 8) &&
    zeroRange raw 0xB 1 && decide (c.lsBase % 64 = 0) && decide (c.x0 / 32 = c.x1 / 32) && decide (c.y0 / 32 = c.y1 / 32) &&
    decide (c.x1 % 32 ≠ 31) && decide (c.lsBase + c.lsSlots * 0x10000 ≤ 0x100000)

/-- Whether two chains share an owner core and differ in their slots (R181). -/
def chainClash (a b : Chain) : Bool :=
  decide (a.x0 ≤ b.x1) && decide (b.x0 ≤ a.x1) && decide (a.y0 ≤ b.y1) && decide (b.y0 ≤ a.y1) &&
    (decide (a.lsBase ≠ b.lsBase) || decide (a.lsSlots ≠ b.lsSlots))

def noChainClash : List Chain → Bool
  | [] => true
  | c :: r => (r.all fun d => !chainClash c d) && noChainClash r

/-- The attention map keeps R181. -/
def State.attnOk (s : State) (n : Nat) : Bool :=
  let m := (s.slot n).manifest
  match s.slotObj n 4 with
  | none => false
  | some b =>
    let cn := b.length / 16
    let cs := (List.range cn).map (chainAt b)
    decide (1 ≤ cn) && decide (cn ≤ 4096) &&
      ((List.range (manPairs m)).all fun p =>
        ((manHeld m p).filter fun e => decide (e.2.kind = 4)).all fun e => decide (objStored m e.2 / 16 = cn)) &&
      ((List.range cn).all fun i => chainOk (chainAt b i) ((b.drop (16 * i)).take 16)) && noChainClash cs

/-- One expert entry (R211, R212). -/
def expertOk (m : Bytes) (l : ExLayer) (pairs e : Nat) : Bool :=
  let x := exEntryAt m (l.firstEntry + e)
  let used := x.pairs.take x.replicas
  decide (x.expert = e) && decide (1 ≤ x.replicas) && decide (x.replicas ≤ 4) &&
    zeroRange m (64 + 32 * exLayers m + 16 * (l.firstEntry + e) + 3) 1 && allDistinct used && (used.all fun p => decide (p < pairs)) &&
    ((x.pairs.drop x.replicas).all fun p => decide (p = 0xFF)) &&
    decide (64 + 32 * exLayers m + 16 * (l.firstEntry + e) + 16 ≤ m.length)

/-- The expert map keeps R212. -/
def expertMapOk (m : Bytes) (pairs : Nat) : Bool :=
  decide (1 ≤ exLayers m) && decide (exLayers m ≤ 255) && decide (exDSlot m % 4096 = 0) && decide (exCSlot m % 4096 = 0) && zeroRange m 2 2 &&
    zeroRange m 0xC 4 && zeroRange m 0x30 16 &&
    (List.range (exLayers m)).all fun i =>
      let l := exLayerAt m i
      decide (1 ≤ l.k) && decide (l.k ≤ 8) && decide (l.k ≤ l.e) && decide (l.e ≤ 1024) && decide (1 ≤ l.rowPacks) && decide (l.rowPacks ≤ 64) &&
        decide (2 ≤ l.hot) && decide (l.groupTokens % 32 = 0) && decide (32 ≤ l.groupTokens) && decide (l.groupTokens ≤ 8192) &&
        decide (l.early ≤ 64) && zeroRange m (64 + 32 * i + 0x1A) 6 && (List.range l.e).all (expertOk m l pairs)

/-- The tile plan keeps R319. -/
def planOk (p : Bytes) (ls : List ExLayer) : Bool :=
  let gs := planGroups p
  let has (id : Nat) : Bool := gs.any fun g => decide (g.group = id)
  zeroRange p 4 12 && decide (16 + 32 * gs.length ≤ p.length) && allDistinct (gs.map (·.group)) &&
    ((List.range gs.length).all fun i => zeroRange p (16 + 32 * i + 6) 2 && zeroRange p (16 + 32 * i + 0x18) 8) &&
    (gs.all fun g =>
      (decide (g.kind = 1) || (decide (3 ≤ g.kind) && decide (g.kind ≤ 7))) && decide (g.group ≠ 0xFFFF) && decide (g.count ≠ 0) &&
        decide (g.arg + 64 * g.count ≤ p.length) &&
        g.depends.all fun id => decide (id = 0xFFFF) || gs.any fun h => decide (h.group = id) && decide (h.stage < g.stage)) &&
    ls.all fun l => has l.routeGroup && l.groups.all fun id => decide (id = 0xFFFF) || has id

/-- The first check that fails in a slot's objects, with its code; none when all pass (R319, R342). -/
def State.verifyCode (s : State) (n : Nat) : Option Code :=
  let imgs := ((s.slotObjs n).filter fun e => decide (e.2.kind = 2)).map fun e => s.objBytes n e.2
  if !(imgs.all imageOk) || !allDistinct (imgs.map imgId) then some Err.IMAGE_FORMAT
  else if !s.attnOk n then some Err.ATTN_MAP
  else if !(match s.slotObj n 5 with | some m => expertMapOk m (manPairs (s.slot n).manifest) | none => true) then some Err.EXPERT_MAP
  else if !planOk (s.plan n) (s.exLayersOf n) then some Err.TILE_PLAN
  else if !s.tablesOk n then some Err.TABLE_SET
  else none

/-! Reports (R315, R323). -/

/-- WINDOW of a slot at time `t` (R322). -/
def Slot.window (m : Slot) (t : Nat) : Nat := (m.uses.filter fun u => decide (t < u + 60000000000)).length

/-- Slots eligible for eviction at time `t`, in rank order (R322). -/
def State.eligible (s : State) (t : Nat) : List Nat :=
  let ok (n : Nat) : Bool :=
    decide ((s.slot n).st = .ready) && decide (s.slotRefs n = 0) && decide (s.seated ≠ some n) &&
      !((List.range 64).any fun k =>
        decide ((s.slot k).repl = some n) &&
          (match (s.slot k).st with | .loadManifest | .loadSpace | .loadShards | .verifying => true | _ => false))
  let lt (a b : Nat) : Bool :=
    let x := s.slot a
    let y := s.slot b
    if x.window t ≠ y.window t then decide (x.window t < y.window t)
    else if x.lastUse ≠ y.lastUse then decide (x.lastUse < y.lastUse)
    else decide (a < b)
  sortBy lt ((List.range 64).filter ok)

/-- Extents of the footprint that a slot's manifest asks of this package. -/
def State.slotExtents (s : State) (n : Nat) : Nat := manFootprint (s.slot n).manifest s.pairNum / extentBytes

/-- Extents in use without some slots. -/
def State.usedWithout (s : State) (out : List Nat) : List (Nat × Nat) :=
  (s.slots.filter fun e => decide (e.2.extents ≠ 0) && !out.contains e.1).map fun e => (e.2.base, e.2.extents)

/-- The smallest number of eligible slots whose eviction leaves a free run for slot `n`'s footprint here; 65 when no number does (R323). -/
def State.spaceNeed (s : State) (n : Nat) (el : List Nat) : Nat :=
  ((List.range (el.length + 1)).find? fun k => (s.freeRun (s.usedWithout (el.take k)) (s.slotExtents n)).isSome).getD 65

/-- This package's part of a load phase is complete, or has failed with a code (R315). -/
def State.reportLoad (s : State) (n phase : Nat) (code : Code) : State :=
  s.updSlotRaw n fun m =>
    { m with report := some { slot := n, phase := phase, code := code, modelId := m.modelId, version := m.version } }

/-- The reports of a contribution: each phase in progress that is complete here, with the space a footprint needs, found over the eligible slots of the last
boundary, which are the same in every package (R301, R315, R323) (DEDUCED, notes/assumptions/80.md). -/
def State.loadReports (s : State) : List LoadReport :=
  let el := s.eligible s.step.lastBoundary
  (List.range 64).filterMap fun n =>
    let m := s.slot n
    match m.st with
    | .loadSpace =>
      some { slot := n, phase := 1, code := 0, modelId := m.modelId, version := m.version, need := s.spaceNeed n el, order := el }
    | _ => m.report.map fun r => if r.phase = 0 ∧ r.code = 0 then { r with need := s.spaceNeed n el, order := el } else r

/-! Slot changes at a boundary (R312, R313, R323, R326, R327). -/

/-- What the serving members have reported of a phase of slot `n`: none while one is missing; otherwise the first failing code in home order, or
OK, with the slots to evict: as many of the eligible ones as the largest need, none when some package finds no number. -/
def phaseReports (ks : List Contribution) (n phase : Nat) : Option (Code × Option (List Nat)) :=
  let rs := ks.filterMap fun k => k.reports.find? fun r => decide (r.slot = n) && decide (r.phase = phase)
  let need := rs.foldl (fun a r => max a r.need) 0
  let out := if need ≤ 64 then some (((rs.head?.map (·.order)).getD []).take need) else none
  match rs.find? fun r => decide (r.code ≠ Err.OK) with
  | some r => some (r.code, out)
  | none => if rs.length = ks.length ∧ ks ≠ [] then some (0, out) else none

/-! Sources of shards (R316, R317, R320). -/

/-- Whether this member reads a shard from the source itself (R316). -/
def State.readsShard (s : State) (k : Nat) : Bool := s.survivor || decide (k % 2 = s.position)

/-- The package that a load with SOURCE PEER reads from: the same package slot in rack PEER_RACK (R317). -/
def State.peerOf (s : State) (n : Nat) : PkgId := BitVec.ofNat 7 ((if (s.slot n).peerRack then 64 else 0) + s.pair.slot)

/-- Read a shard from the host (R316). -/
def State.readHost (s : State) (n k : Nat) : State :=
  let e := manShard (s.slot n).manifest k
  s.readBus (s.rd64 MDL_HOST_BASE_LO.ADDRESS + e.source) e.len

/-- Ask for a shard at its source: the host or the peer for one that this member reads, else the partner (R316 to R318). -/
def State.fetchShard (s : State) (n k : Nat) : State :=
  if !s.readsShard k then s.emit (.askShard s.partner n k)
  else if (s.slot n).peer then
    s.emit (.askPeer (s.peerOf n) (s.slot n).modelId (s.slot n).version k (manShardBytes (s.slot n).manifest k))
  else s.readHost n k

/-- On entry to SHARDS every member asks for the shards it reads (R316); the partner sends the others. -/
def State.fetchAll (s : State) (n : Nat) : State := ((s.slotShards n).filter s.readsShard).foldl (fun s k => s.fetchShard n k) s

/-- The loads of a lost home are the survivor's (R320): it reads a manifest that has still to come, or sends every member the one it holds (DEDUCED,
notes/assumptions/80.md). -/
def State.takeLoads (s : State) (survivor lost : PkgId) : State :=
  (List.range 64).foldl (fun s n =>
    let m := s.slot n
    if m.home ≠ lost then s
    else
      let s := s.updSlotRaw n fun m => { m with home := survivor }
      if survivor ≠ s.me ∨ m.st ≠ .loadManifest then s
      else if m.report.isSome then s.toOthers fun d => .sendManifest d n
      else s.readBus m.manifestBus.toNat m.manifestLen) s

/-- A survivor asks for the shards that the lost member has not sent (R320). -/
def State.fetchForLost (s : State) : State :=
  (List.range 64).foldl (fun s n =>
    if (s.slot n).st = .loadShards then
      ((s.slotShards n).filter fun k => decide (k % 2 ≠ s.position) && !(s.slot n).done.contains k).foldl (fun s k => s.fetchShard n k) s
    else s) s

/-- SPACE (R312, R323): a duplicate fails the load; otherwise the slots of `out` are evicted and the footprint placed, or the load waits or fails. Where one of them is eligible
no longer, or this boundary has placed another slot, the search is made again for the next boundary (DEDUCED, notes/assumptions/80.md). -/
def State.placeSlot (s : State) (n t : Nat) (out : Option (List Nat)) (placed : Bool) : State :=
  let m := s.slot n
  let dup := (List.range 64).any fun k =>
    decide (k ≠ n) && decide ((s.slot k).st ≠ .evicted) && decide ((s.slot k).modelId = m.modelId) && decide ((s.slot k).version = m.version)
  if dup then s.evictSlot n Err.ALREADY_LOADED
  else
    match out with
    | none => if m.wait then s else s.evictSlot n Err.NO_SPACE
    | some out =>
      if placed || !(out.all (s.eligible t).contains) then s
      else
        match s.freeRun (s.usedWithout out) (s.slotExtents n) with
        | none => s
        | some base =>
          let s := out.foldl (fun s k => s.evictSlot k 0) s
          (s.updSlot n fun m =>
            { m with st := .loadShards, base := base, extents := s.slotExtents n, report := none, done := [], failedOnce := [] }).fetchAll n

/-- A DRAINING slot is freed; of a seated one the contexts are stopped first, and it is freed once they are (R70, R327; DEDUCED, notes/assumptions/28.md). -/
def State.evictDrained (s : State) (n : Nat) : State :=
  if s.seated ≠ some n then s.evictSlot n 0
  else
    let s := s.stopForSeat
    if s.step.seating = [] ∧ s.allHalted then s.evictSlot n 0
    else
      s.updStep fun p =>
        { p with seating := p.seating ++ [{ slot := n, image := 0, load := false, cmd := none, since := s.rackTime, evict := true }] }

/-- Changes of one slot at a boundary at time `t`. -/
def State.slotStep (ks : List Contribution) (t : Nat) (placed : Bool) (s : State) (n : Nat) : State :=
  match (s.slot n).st with
  | .loadManifest =>
    match phaseReports ks n 0 with
    | none => s
    | some (0, out) =>
      (s.updSlot n fun m =>
        { m with st := .loadSpace, report := none, modelId := BitVec.ofNat 64 (manModelId m.manifest),
                 version := BitVec.ofNat 32 (manVersion m.manifest) }).placeSlot n t out placed
    | some (code, _) => s.evictSlot n code
  | .loadSpace =>
    match phaseReports ks n 1 with
    | none => s
    | some (_, out) => s.placeSlot n t out placed
  | .loadShards =>
    match phaseReports ks n 2 with
    | none => s
    | some (0, _) => s.updSlot n fun m => { m with st := .verifying, report := none }
    | some (code, _) => s.evictSlot n code
  | .verifying =>
    match phaseReports ks n 3 with
    | none => s
    | some (0, _) =>
      let repl := (s.slot n).repl
      let s := s.updSlot n fun m =>
        { m with st := .ready, report := none, lastUse := t, uses := [], steps := 0, repl := none, checkedAt := [] }
      let s := (s.slotShards n).foldl (fun s k => s.updSlotRaw n fun m => { m with checkedAt := SMap.set 0 m.checkedAt k s.rackTime }) s
      match repl with
      | some r => if (s.slot r).st = .ready then s.updSlot r fun m => { m with st := .draining } else s
      | none => s
    | some (code, _) => s.evictSlot n code
  | .draining => if s.slotRefs n = 0 then s.evictDrained n else s
  | _ => s

/-- Repair reports of a boundary (R330): whether some member of the pair holds no checked copy of a shard (DEDUCED, notes/assumptions/80.md). -/
def State.repairReports (s : State) (ks : List Contribution) : State :=
  (ks.flatMap (·.reports)).foldl (fun s r => if r.phase = 4 then s.updSlotRaw r.slot fun m => { m with noCopy := decide (r.code.toNat ≠ 0) } else s) s

/-- Slots in SHARDS. -/
def State.inShards (s : State) : List Nat := (List.range 64).filter fun n => decide ((s.slot n).st = .loadShards)

/-- Item between 3 and 4 of R243: slot changes in ascending slot order (R313). -/
def State.applySlots (s : State) (ks : List Contribution) (t : Nat) : State :=
  let was := s.inShards
  (List.range 64).foldl (fun s n => s.slotStep ks t (s.inShards.any fun k => !was.contains k) n) (s.repairReports ks)

/-! Rows of a load. -/

/-- Whether the signature of a manifest verifies under its key in effect (R309, R504). -/
def State.manSigOk (s : State) (m : Bytes) : Bool :=
  match SMap.get none s.kept.mkeys (manKey m) with
  | some key => sigOk key (manSigned m).1 (manSigned m).2
  | none => false

/-- The cellar address of a slot's place in the manifest area, the top extent of the region (R302). -/
def State.manifestAddr (s : State) (n : Nat) : Nat := s.regionBounds.2 * extentBytes + manifestBytes * (s.slot n).area

/-- Hold a manifest, in the manifest area (R302, R315) and for the checks that need it, and report the phase complete. The table takes its model id and version at the boundary (R301). -/
def State.holdManifest (s : State) (n : Nat) (m : Bytes) : State :=
  ((s.celWrite (s.manifestAddr n) m).updSlotRaw n fun x => { x with manifest := m }).reportLoad n 0 Err.OK

/-- The home has read the manifest, and with it the field that each relocation entry names (R310, R309, R315; DEDUCED, notes/assumptions/25.md): it checks them, holds the manifest and
sends it to every member; none is a failed read. -/
def execManifestReadComplete (m : SlotIdx) (bytes : Option Bytes) (fields : List DWord) (s : State) : Res :=
  let n := m.toNat
  if (s.slot n).st ≠ .loadManifest ∨ (s.slot n).home ≠ s.me ∨ (s.slot n).report.isSome then .next s
  else
    match bytes with
    | none => .next (s.reportLoad n 0 Err.LOAD_SOURCE)
    | some b =>
      if b.length ≠ (s.slot n).manifestLen ∨ !manFormatOk b ∨ !manRelocsOk b fields then .next (s.reportLoad n 0 Err.MANIFEST_FORMAT)
      else if !s.manSigOk b then .next (s.reportLoad n 0 Err.MANIFEST_SIG)
      else if manPairs b ≠ s.pairs then .next (s.reportLoad n 0 Err.PAIRS_MISMATCH)
      else .next ((s.holdManifest n b).toOthers fun d => .sendManifest d n)

/-- A member receives the manifest and checks its signature again (R315). -/
def execManifestReceive (m : SlotIdx) (bytes : Bytes) (s : State) : Res :=
  let n := m.toNat
  if (s.slot n).st ≠ .loadManifest ∨ (s.slot n).report.isSome then .next s
  else if !s.manSigOk bytes then .next (s.reportLoad n 0 Err.MANIFEST_SIG)
  else .next (s.holdManifest n bytes)

/-- A shard arrives (R318): none is a read that the source reports failed. -/
def execShardArrival (m : SlotIdx) (k : Nat) (data : Option Bytes) (s : State) : Res :=
  let n := m.toNat
  let sl := s.slot n
  match s.shardPlace n k with
  | none => .next s
  | some (_, a) =>
    if sl.st ≠ .loadShards ∨ sl.done.contains k ∨ sl.report.isSome then .next s
    else
      let fail (key : Nat) (code : Code) : State :=
        if sl.failedOnce.contains key then s.reportLoad n 2 code
        else (s.updSlotRaw n fun x => { x with failedOnce := x.failedOnce ++ [key] }).fetchShard n k
      match data with
      | none => .next (fail (2 * k) Err.LOAD_SOURCE)
      | some b =>
        let s := s.phaseCause 6
        if !s.arrivalGood n k b then .next (fail (2 * k + 1) Err.SHARD_DIGEST)
        else
          let s := s.celWrite a b
          let s := s.updSlotRaw n fun x => { x with done := insertNat k x.done }
          let s := if s.readsShard k ∧ !s.survivor then s.emit (.sendShard s.partner n k) else s
          .next (if (s.slotShards n).all fun j => (s.slot n).done.contains j then s.reportLoad n 2 Err.OK else s)

/-- A package has checked its objects and applies its relocations (R319, R308). -/
def execObjectVerifyComplete (m : SlotIdx) (s : State) : Res :=
  let n := m.toNat
  if (s.slot n).st ≠ .verifying ∨ (s.slot n).report.isSome then .next s
  else
    match s.verifyCode n with
    | some code => .next (s.reportLoad n 3 code)
    | none => .next ((s.relocate n).reportLoad n 3 Err.OK)

/-! Re-checks and repair (R329, R330, R352). -/

/-- A shard is bad (R330): it is marked, the work handed over, and the partner asked for its copy. A survivor has no partner to hand to: the household then builds no step of the
slot until the shard is repaired (DEDUCED, notes/assumptions/80.md). -/
def State.badShard (s : State) (n k : Nat) : State :=
  let s := s.updSlotRaw n fun m => { m with bad := insertNat k m.bad, tried := SMap.set 0 m.tried k 0 }
  let s := s.emit (.askShard s.partner n k)
  if s.pair.member = .alone then s.reportLoad n 4 Err.SHARD_DIGEST else s.handOver

/-- A bad shard that a re-check found (R331). -/
def State.recheckBad (s : State) (n k : Nat) : State := ((s.bump MDL_REPAIR.BAD).raiseIrq .mdl 0 1).badShard n k

/-- The shard's check passed now. -/
def State.shardChecked (s : State) (n k : Nat) : State :=
  s.updSlotRaw n fun m =>
    { m with checkedAt := SMap.set 0 m.checkedAt k s.rackTime, recheckFirst := m.recheckFirst.filter (· ≠ k) }

/-- The resident shards that are re-checked: those of READY and DRAINING slots (R329). -/
def State.resident (s : State) : List (Nat × Nat) :=
  ((List.range 64).filter fun n => decide ((s.slot n).st = .ready) || decide ((s.slot n).st = .draining)).flatMap fun n =>
    ((s.slotShards n).filter fun k => !(s.slot n).bad.contains k).map fun k => (n, k)

/-- Rack time of a shard's last check. -/
def State.checkedAt (s : State) (e : Nat × Nat) : Nat := SMap.get 0 (s.slot e.1).checkedAt e.2

/-- The re-check interval in ns (R329). -/
def State.recheckInterval (s : State) : Nat := s.rd MDL_RECHECK.INTERVAL_MIN * 60000000000

/-- Whether some resident shard reaches its interval by a time (R329, R471). -/
def State.recheckDueBy (s : State) (t : Nat) : Bool :=
  s.on SWP_CTL.ENABLE && !s.perturbed && s.resident.any fun e => decide (s.checkedAt e + s.recheckInterval ≤ t)

/-- Whether a load, a repair or a rejoin is hashing (R537). -/
def State.hashing (s : State) : Bool :=
  decide (s.inShards ≠ []) || (s.slots.any fun e => decide (e.2.bad ≠ [])) || decide (s.pair.member = .rejoining)

/-- Whether a shard is the next to be re-checked: one that a RECHECK put first, or, with none such, one whose last check is the oldest (R314, R329); while the hashers
have other work only a shard that has reached its interval (R537). -/
def State.recheckNext (s : State) (e : Nat × Nat) : Bool :=
  let open_ := s.resident.filter fun x => !s.hashing || decide (s.checkedAt x + s.recheckInterval ≤ s.rackTime)
  let firsts := open_.filter fun x => (s.slot x.1).recheckFirst.contains x.2
  if firsts ≠ [] then firsts.contains e else open_.contains e && open_.all fun x => decide (s.checkedAt e ≤ s.checkedAt x)

/-- Sweep work re-hashes a resident shard (R329). A line that its read meets as uncorrectable hands the work over itself (R365). -/
def execShardRecheck (m : SlotIdx) (k : Nat) (es : Errs) (s : State) : Res :=
  let n := m.toNat
  if !s.recheckNext (n, k) ∨ !s.sweepMay then .next s
  else
    match s.sweepWake.hashShard n k es with
    | (none, s) => .next s
    | (some true, s) => .next (s.shardChecked n k)
    | (some false, s) => .next (s.recheckBad n k)

/-- The copy asked for after `i` reads in vain: the partner's, then, in the turn of each member, two reads of its host (R316, R330; DEDUCED, notes/assumptions/80.md). -/
def State.ownRead (s : State) (k i : Nat) : Bool := if s.readsShard k then decide (i = 1) || decide (i = 2) else decide (i = 3) || decide (i = 4)

/-- A copy of a bad shard has not been had: the next one is asked for. A host read that fails twice is logged; with every copy tried no member holds one. -/
def State.repairFailed (s : State) (n k : Nat) : State :=
  let i := SMap.get 0 (s.slot n).tried k
  let s := if s.ownRead k i && !s.ownRead k (i + 1) then s.logErr (s.mkErr Err.LOAD_SOURCE sevInfo nodeNone) else s
  let j := if 4 ≤ i then 1 else i + 1
  let s := s.updSlotRaw n fun x => { x with tried := SMap.set 0 x.tried k j, noCopy := x.noCopy || decide (4 ≤ i) }
  if s.ownRead k j then s.readHost n k else s.emit (.askShard s.partner n k)

/-- A copy of a bad shard arrives, from the partner, which checked it as it was sent, or from the host; none is a copy that could not be had. It is checked again and written, and once
no shard of the slot is bad the survivor says so, or the package rejoins (R330). -/
def execShardRepair (m : SlotIdx) (k : Nat) (copy : Option Bytes) (s : State) : Res :=
  let n := m.toNat
  if !(s.slot n).bad.contains k then .next s
  else
    match s.shardPlace n k with
    | none => .next s
    | some (_, a) =>
      match copy.filter fun x => s.arrivalGood n k x with
      | none => .next (s.repairFailed n k)
      | some b =>
        let s := s.phaseCause 6
        let s := s.celWrite a (s.relocShard n k (s.slotBase n) b)
        let s := (s.updSlotRaw n fun x =>
          { x with bad := x.bad.filter (· ≠ k), noCopy := x.noCopy && decide (x.bad.filter (· ≠ k) ≠ []) }).shardChecked n k
        let s := (s.bump MDL_REPAIR.REPAIRED).raiseIrq .mdl 0 1
        if (s.slot n).bad ≠ [] then .next s
        else if s.pair.member = .alone then .next (s.reportLoad n 4 Err.OK)
        else .next s.repaired

/-- The shard of a failing block is re-hashed (R352): a bad shard hands the work over; otherwise the block was signed as it stands. A restart that has
waited for it goes on (DEDUCED, notes/assumptions/125.md). -/
def execStreamShardRehash (c : CoreId) (x : CtxId) (es : Errs) (s : State) : Res :=
  match (s.core c).rehash.find? fun r => decide (r.ctx = x.toNat) with
  | none => .next s
  | some r =>
    let (h, s) := s.hashShard r.slot r.shard es
    let good := decide (h = some true)
    let faulted := decide (((s.core c).ctx x).st = .faulted) && !r.gone
    let s := s.updCore c fun k => { k with rehash := k.rehash.filter fun q => decide (q ≠ r) }
    let s := if faulted then s.ctxFaultAt c x (if good then Err.STREAM_DATA else Err.SHARD_DIGEST) r.addr r.w r.pc else s
    let s := if good then s else s.badShard r.slot r.shard
    .next (if s.step.restartDue then s.restart else s)

end Sys2Proof.Machine
end

