-- ==== Sys2Proof/Machine/Exchange.lean ====
section
/-!
DEFINITION. What members exchange at the end of a step (R244, R245, R298, R424 to R426): the boundary contribution, the mirror and its checks, and the
end of this package's part.
-/
namespace Sys2Proof.Machine

/-! Household configuration (R268, R269). -/

/-- The words of the household configuration, by PF BAR0 offset (R268). -/
def configOffs : List Nat :=
  [SEQ_HH_CTL.WORD.base, SEQ_STEP_LIMIT.WORD.base, SEQ_TARGET.WORD.base, SEQ_KV_SIZE.WORD.base, SEQ_LOFT_SIZE.WORD.base] ++
    (List.range 16).map (fun n => SEQ_PART_CTLn.WORD.addr 0 n) ++ (List.range 64).map fun n => SEQ_MANTELn.WORD.addr 0 n

/-- The field of a whole word at an offset. -/
def wordAt (off rst : Nat) : Fld := ⟨off, 0, 31, 0, rst⟩

/-- What an unlisted word of the household configuration reads as. -/
def configReset (off : Nat) : Nat :=
  if off = SEQ_STEP_LIMIT.WORD.base then SEQ_STEP_LIMIT.WORD.word
  else if off = SEQ_TARGET.WORD.base then SEQ_TARGET.WORD.word
  else if SEQ_PART_CTLn.WORD.base ≤ off ∧ off < SEQ_PART_CTLn.WORD.base + 64 then SEQ_PART_CTLn.WORD.word
  else 0

/-- The configuration bits of a word: LEADER_PAIR alone of SEQ_HH_CTL. -/
def configBits (off v : Nat) : Nat := if off = SEQ_HH_CTL.WORD.base then bitsN v 23 16 * 2 ^ 16 else v

/-- A configuration word in effect. -/
def State.configWord (s : State) (off : Nat) : Nat := configBits off (s.rd (wordAt off (configReset off)))

/-- A configuration word of the staged copy. -/
def State.stagedWord (s : State) (off : Nat) : Nat :=
  match SMap.get none s.staged off with
  | some v => configBits off v.toNat
  | none => s.configWord off

/-- Whether the staged copy differs from the values in effect (SEQ_CFG_COMMIT.PENDING). -/
def State.cfgPending (s : State) : Bool := configOffs.any fun o => decide (s.stagedWord o ≠ s.configWord o)

/-- The digest of a configuration: the first 64 bits of SHA-512 over its words (R269; the order of the words is the model's,
notes/assumptions/29.md). -/
def cfgDigest (ws : List Nat) : DWord := BitVec.ofNat 64 (leNat ((sha512 (ws.flatMap (leBytes 4))).take 8))

/-- The staged-configuration digest of R244. -/
def State.stagedDigest (s : State) : DWord := cfgDigest (configOffs.map s.stagedWord)

/-! The contribution. -/

/-- The step id that the next boundary closes: that of the step in progress, or of the empty step an idle boundary closes (R246). -/
def State.closing (s : State) : Nat := if s.step.active then s.step.id else s.step.id + 1

/-- ROOM of this package's partitions after the batches of the ending step (R290), as this package knows them when it contributes: its tokens, its faults and its commands,
and the free slots by the consumer words of the boundary before (DEDUCED, notes/assumptions/58.md). -/
def State.rooms (s : State) : List Nat :=
  (List.range 16).map fun p =>
    let here (h : Word) : Bool := match s.lookup s.me p h.toNat with | some _ => true | none => false
    let toks := (s.step.tokensOut.filter fun t => here t.handle).length + (s.step.toError.filter fun f => here f.handle).length
    let n := toks + (s.accepted.filter fun r => decide (r.part.val = p)).length
    let items := s.step.items.any fun i => decide (i.part = p) && decide ((s.seq i.index).home = s.me)
    let free := if s.ringOn p then s.ringFree p else 0
    let old := ((s.ring p).held ++ (s.ring p).due).map fun b => b.entries.length
    let (f, h) := fitSizes old free
    let d := if h = 0 then min (s.deferredOf p).length (f - 4 - n) else 0
    s.room p (if items ∨ n + d ≠ 0 then some (n + d) else none)

/-- The boundary contribution (R244). -/
def State.contribution (s : State) (done : Nat) : Contribution :=
  { home := s.me, step := BitVec.ofNat 64 s.closing, doneTime := done, tokens := s.step.tokensOut, faults := s.step.toError,
    commands := s.accepted, arith := s.step.arith, expert := s.step.expert, cfgGo := s.on SEQ_CFG_COMMIT.GO, cfgDigest := s.stagedDigest,
    room := s.rooms, clients := s.cliChanges, reports := s.loadReports, promptReady := s.promptReady, moved := s.moved,
    movedFailed := s.movedFailed, resumed := s.resumed, resumeFailed := s.resumeFailed }

/-- Send the contribution to every member and hold it (R244). -/
def State.contribute (s : State) (done : Nat) : State :=
  let k := s.contribution done
  let s := s.toOthers fun d => .contribution d k
  s.updStep fun p => { p with contributed := true, contributions := p.contributions ++ [k] }

/-- A contribution as numbers, for the digest of R245. -/
def contribNats (k : Contribution) : List Nat :=
  let rec1 (r : CmdRec) : List Nat := [r.part.val, r.stamp.toNat, r.time, if r.torn then 1 else 0, leNat r.bytes]
  let a := k.arith
  [k.home.toNat, k.step.toNat, k.doneTime, k.tokens.length] ++ k.tokens.flatMap (fun t => [t.handle.toNat, t.token.toNat, t.endReason]) ++
    [k.faults.length] ++ k.faults.flatMap (fun f => [f.handle.toNat, f.code.toNat]) ++ [k.commands.length] ++ k.commands.flatMap rec1 ++
    [a.sat, a.wlow, a.ovf, a.clamp, a.nonf, a.satLayer, a.wlowLayer, a.ovfLayer, a.clampLayer, a.nonfLayer, k.expert.count, k.expert.layer,
      k.expert.hotId, k.expert.rows, if k.cfgGo then 1 else 0, k.cfgDigest.toNat] ++ k.room ++ [k.clients.length] ++
    k.clients.flatMap (fun c => [c.client, (c.owner.map (· + 1)).getD 0, (c.rate.map (· + 1)).getD 0, (c.burst.map (· + 1)).getD 0]) ++
    [k.reports.length] ++ k.reports.flatMap (fun r => [r.slot, r.phase, r.code.toNat, r.modelId.toNat, r.version.toNat, r.need] ++ r.order) ++
    [k.promptReady.length] ++ k.promptReady ++ [k.moved.length] ++ k.moved ++ [k.movedFailed.length] ++ k.movedFailed ++ [k.resumed.length] ++
    k.resumed ++ k.resumeFailed.flatMap fun r => [r.1, r.2.toNat]

/-- The state digest after a boundary (R245): the first 64 bits of SHA-512 over the previous digest and the contributions in home order. How a
contribution is laid out in bytes the spec does not say: an opaque encoding (notes/assumptions/29.md). -/
def nextDigest (old : DWord) (ks : List Contribution) : DWord :=
  BitVec.ofNat 64 (leNat ((sha512 (leBytes 8 old.toNat ++ ks.flatMap fun k => Config.wire 1 (contribNats k))).take 8))

/-- The contributions held for the boundary that closes the present step, in home order. -/
def State.heldContributions (s : State) : List Contribution :=
  sortBy (fun a b => decide (a.home.toNat < b.home.toNat)) (s.step.contributions.filter fun k => decide (k.step.toNat = s.closing))

/-- Whether every serving member's contribution is held (R244). -/
def State.boundaryOpen (s : State) : Bool := s.serving.all fun p => s.heldContributions.any fun k => decide (k.home = p)

/-! The mirror (R424, R425). -/

/-- The mirror of this member at the end of its part (DEDUCED, notes/assumptions/82.md). -/
def State.mirror (s : State) : Mirror :=
  { step := BitVec.ofNat 64 s.closing, records := s.accepted, producers := (List.range 16).map fun p => (s.ring p).prod.toNat,
    held := (List.range 16).flatMap fun p => (s.ring p).held ++ keptBatches (s.ring p).due, deferred := s.deferred,
    confirmed := (List.range 16).map fun p => (p, (s.ring p).confirmed), unconfirmed := (List.range 16).flatMap fun p => (s.ring p).unconfirmed,
    accounts := (s.clients.filter fun c => decide (c.1 / 4096 = s.me.toNat)).map fun c => (c.1 % 4096, c.2.acct),
    moves := s.kv.moves,
    promptFill := (s.table.filter fun r => decide (r.2.home = s.me) && decide (r.2.position = 0) && decide ((s.kvOf r.1).prompt ≠ []) && !r.2.promptReady).map
      fun r => (r.1, (s.kvOf r.1).prompt),
    digest := s.step.digest, kvCrc := s.step.kvCrc }

/-- Store the data items of the partner's mirror; what was kept of the boundaries since the last one is in it. -/
def State.storeMirror (s : State) (m : Mirror) : State :=
  s.updPair fun p => { p with mirrored := some m, partnerRecords := m.records, partnerDue := [], partnerDeferred := [] }

/-- 24 hours in ns. -/
def dayNs : Nat := 86400000000000

/-- Whether position 1 rejoined within 24 h after a hand-over for a repeated MIRROR_MISMATCH (R425). -/
def State.mirrorRecent (s : State) : Bool :=
  s.pair.lastMirrorFault.isSome && decide (s.pair.rejoinedAt ≠ 0) && decide (s.rackTime ≤ s.pair.rejoinedAt + dayNs)

/-- Whether a MIRROR_MISMATCH that occurs now is this member's to hand over for (R425): position 1's where it recurs in the step id, position 0's at once within
24 h of that member's rejoin. -/
def State.mirrorMine (s : State) : Bool :=
  if s.mirrorRecent then decide (s.position = 0) else decide (0 < s.step.mirrorFaults) && decide (s.position = 1)

/-- MIRROR_MISMATCH is raised in this member, once in an attempt (R425): counted and logged. -/
def State.mirrorNote (s : State) (injected : Bool) : State :=
  let t := (s.bump PAIR_MIRROR.MISMATCHES).raiseIrq .pair 0 3
  let t := t.logErr (t.mkErr Err.MIRROR_MISMATCH (if s.mirrorMine then sevPackage else sevStep) nodeHall (injected := injected))
  let t := t.updStep fun p => { p with mirrorFaults := p.mirrorFaults + 1, mirrorAt := some (p.id, p.attempt), partnerMirror := none }
  t.updPair fun p =>
    { p with lastMirrorFault := if s.mirrorRecent then none else if 0 < s.step.mirrorFaults then some s.rackTime else p.lastMirrorFault }

/-- A check that disagrees (R425): the work is handed over by the member whose it is, or STEP_ABORT raises the fault in the partner and restarts the step. -/
def State.mirrorMismatch (s : State) (injected : Bool := false) : State :=
  if s.mirrorMine then (s.mirrorNote injected).handOver else (s.mirrorNote injected).sendAbort Err.MIRROR_MISMATCH

/-- Whether an injected CHECK error strikes a mirror that came over the pair link, at the lowest of its selected lanes (R545, R547; DESIGN CHOICE,
notes/assumptions/100.md). -/
def State.pairInject (s : State) : Bool × State :=
  let g := Block.pair.page 0
  s.inject g (((List.range 16).find? fun l => s.rd PG_PTB_CTL.TARGET g / 2 ^ l % 2 = 1).getD 0) 3 0

/-- Compare the checks of the partner's mirror with this member's own, once its part is complete, and acknowledge or raise MIRROR_MISMATCH. -/
def State.checkMirror (s : State) : State :=
  match s.step.partnerMirror with
  | none => s
  | some m =>
    if s.step.partDone.isNone then s
    else
      let i := s.pairInject
      let s := i.2
      if m.digest = s.step.digest ∧ m.kvCrc = s.step.kvCrc ∧ !i.1 then
        (s.updStep fun p => { p with partnerMirror := none }).emit (.mirrorAck s.step.id)
      else s.mirrorMismatch i.1

/-! The end of the package's part (R425, R426). -/

/-- Whether every descriptor of the step has been made and completed here, and the walk is over. -/
def State.partOver (s : State) : Bool :=
  let gs := planGroups (s.plan s.step.modelSlot)
  s.step.walked && (s.step.descs.all fun d => decide (d.st = .done)) && !(s.cores.any fun k => decide (k.2.rehash ≠ [])) &&
    gs.all fun g => if splitKind g.kind then s.halves.all fun h => s.groupDone gs g.group h else s.groupDone gs g.group false

/-- The sequences homed here that the step samples. -/
def State.sampledHere (s : State) : List Nat :=
  (s.step.items.filter fun i => i.sample && decide ((s.seq i.index).home = s.me)).map (·.index)

/-- The token of a sequence, and the reason for which it ends the sequence, judged as the boundary will have advanced the entry (R242, R244). -/
def State.tokenRec (s : State) (e : Nat) (tok : Word) : TokenRec :=
  let n := ((s.step.items.find? fun i => decide (i.index = e)).map (·.tokens)).getD 0
  let q := s.seq e
  { handle := s.handle e, token := tok,
    endReason := { q with lastToken := tok, generated := q.generated + 1, position := q.position + n }.endReason }

/-- The token of each sequence homed here that the step samples (R166). -/
def State.sampleTokens (s : State) (samples : List Sample) : State :=
  s.sampledHere.foldl (fun s e =>
    match samples.find? fun x => decide (x.seq = e) with
    | some x => s.updStep fun p => { p with tokensOut := p.tokensOut ++ [s.tokenRec e (sampleToken (s.seq e) x.shards)] }
    | none => s) s

/-- The NaN logits of the shards that this package's pair owns: each adds one to NONFINITE under the layer tag of the vocabulary projection (R166). -/
def State.countNans (s : State) (samples : List Sample) : State :=
  samples.foldl (fun s x =>
    s.count .nonf ((x.shards.filter fun h => decide (h.src = s.me) || decide (h.src = s.partner)).foldl (fun n h => n + shardNans h) 0) x.layer) s

/-- The bytes of the rows that position `pos` of a chain appends (R170, R187): the key rows of its heads, then their value rows. -/
def State.posRows (s : State) (e c h pos : Nat) : Bytes :=
  let row (tile : Nat) := s.celSafe (s.pageFrame e c (pos / 64) * frameBytes + tile + 0x1000 * (pos % 64 / 32) + 128 * (pos % 32)) 128
  (List.range h).flatMap (fun i => row (0x2000 * i)) ++ (List.range h).flatMap fun i => row (0x8000 + 0x2000 * i)

/-- CRC-32C of each chain's rows appended in the step, in chain order (R424) (DESIGN CHOICE, notes/assumptions/126.md). -/
def State.appendedCrc (s : State) : List Word :=
  let cs := s.chains s.step.modelSlot
  ((List.range cs.length).zip cs).flatMap fun (n, c) =>
    s.step.items.map fun i => crc32c ((List.range i.tokens).flatMap fun k => s.posRows i.index n c.h (i.firstPos + k))

/-- The package's part of the step is complete, its tokens drawn: a paired member sends its mirror, a survivor its contribution (R425, R426).
`samples` are the logits of the vocabulary shards, without which a sequence's token cannot be drawn (R166). -/
def execPackagePartComplete (samples : List Sample) (s : State) : Res :=
  if !s.step.active ∨ !s.step.started ∨ s.step.seating ≠ [] ∨ s.step.partDone.isSome ∨ !s.partOver ∨
      (s.pair.member ≠ .paired ∧ s.pair.member ≠ .alone) ∨ !(s.sampledHere.all fun e => samples.any fun x => decide (x.seq = e)) then .next s
  else
    let s := s.updStep fun p => { p with partDone := some s.rackTime, kvCrc := s.appendedCrc, tokensOut := [] }
    let s := (s.countNans samples).sampleTokens samples
    if s.pair.member = .alone then .next (s.contribute s.rackTime)
    else .next ((s.emit (.mirror s.mirror)).updStep fun p => { p with mirrorSent := true }).checkMirror

/-- The partner's mirror arrives (R424, R425) (DEDUCED, notes/assumptions/83.md): a record at its acceptance, the mirror that ends a step, or that of an idle boundary,
whose check is the digest alone. -/
def execMirrorReceive (m : Mirror) (s : State) : Res :=
  if s.pair.member ≠ .paired ∧ s.pair.member ≠ .rejoining then .next s
  else if m.atAcceptance then
    .next (s.updPair fun p => { p with partnerRecords := p.partnerRecords ++ m.records.filter fun r => !p.partnerRecords.contains r })
  else if s.pair.member = .rejoining ∨ m.step.toNat ≠ s.closing then .next s
  else if s.step.active then .next ((s.storeMirror m).updStep fun p => { p with partnerMirror := some m }).checkMirror
  else .next (if m.digest = s.step.digest then (s.storeMirror m).emit (.mirrorAck s.closing) else (s.storeMirror m).mirrorMismatch)

/-! The copy for a rejoining partner (R437, items 1 to 3). -/

/-- Bytes of a memory that differ from an earlier state of it. -/
def changedBytes (old new : Memory) : List (Nat × Byte) :=
  (new.filter fun c => !old.contains c) ++ (old.filter fun c => !(new.any fun d => decide (d.1 = c.1))).map fun c => (c.1, 0)

/-- What an ALONE member sends its REJOINING partner (R437): the table, the data items of R424, the KV pool and every READY and DRAINING slot with its shards as a
source gives them; or, after a boundary, the same with what the boundary changed of the cellar (DEDUCED, notes/assumptions/81.md). -/
def State.rejoinCopy (s : State) (old : Memory) (first : Bool) : RejoinCopy :=
  let slots := s.slots.filter fun e => decide (e.2.st = .ready) || decide (e.2.st = .draining)
  { step := s.step.id, boundary := s.step.lastBoundary, digest := s.step.digest, active := s.step.active, items := s.step.items, modelSlot := s.step.modelSlot,
    table := s.table, kv := s.kv, clients := s.clients, cells := changedBytes old s.cellar, slots := slots,
    shards := if first then slots.flatMap fun e => ((s.slotShards e.1).filter (s.shardGood e.1)).filterMap fun k => (s.shardPlace e.1 k).map fun p =>
        (e.1, k, s.relocShard e.1 k (2 ^ 64 - s.slotBase e.1) (s.celRead p.2 (manShard e.2.manifest k).len)) else [],
    attempt := s.step.attempt, epoch := s.pair.epoch, peerDigest := s.step.digest, mirror := some s.mirror, mirrorFault := s.pair.lastMirrorFault.isSome,
    loading := s.slots.any fun e => match e.2.st with | .loadManifest => true | .loadSpace => true | .loadShards => true | .verifying => true | _ => false }

/-- The partner acknowledges the mirror (R425). -/
def execMirrorAckReceive (step : DWord) (s : State) : Res :=
  match s.step.partDone with
  | none => .next s
  | some t =>
    if !s.step.active ∨ !s.step.mirrorSent ∨ s.step.mirrorAcked ∨ s.step.contributed ∨ step.toNat ≠ s.step.id then .next s
    else
      let s := (s.updStep fun p => { p with mirrorAcked := true }).wr PAIR_MIRROR.LAST_US (min ((s.rackTime - t) / 1000) 0xFFFF)
      .next (s.contribute t)

/-- A member's contribution arrives (R244); a lost member's is that of its rejoin (R437). -/
def execBoundaryContributionReceive (k : Contribution) (s : State) : Res :=
  if k.home = s.me ∨ !s.pair.members.contains k.home ∨ k.step.toNat < s.closing ∨
      (s.step.contributions.any fun x => decide (x.home = k.home) && decide (x.step = k.step)) then .next s
  else .next (s.updStep fun p => { p with contributions := p.contributions ++ [k] })

end Sys2Proof.Machine
end

