-- ==== Sys2Proof/Machine/Kindling.lean ====
section
/-!
DEFINITION. The kindling column's ledgers and roles as the boundary needs them (R90, R94 to R97).
-/
namespace Sys2Proof.Machine

/-- The key of the ledger of the physical core at column `col` (31 or 32) of a row. -/
def ledgerKey (w y col : Nat) : Nat := 64 * w + 2 * y + (col - 31)

/-- The physical column that holds logical column 31 of a row (R90). -/
def State.kindCol (s : State) (w y : Nat) : Nat :=
  match SMap.get none s.kept.remaps (32 * w + y) with
  | some (f, _) => if f ≤ 31 then 32 else 31
  | none => 31

/-- A second of stress in the ledger's unit, 2^-32 ms. -/
def stressSecond : Nat := 1000 * 2 ^ 32

/-- The ledger of the core that holds logical column 31 of a row. -/
def State.rowLedger (s : State) (w y : Nat) : Nat := SMap.get 0 s.kept.wear (ledgerKey w y (s.kindCol w y))

/-- Whether the core that holds logical column 31 of a row may hold an active role (R98). -/
def State.boostEligible (s : State) (w y : Nat) : Bool := decide (s.rowLedger w y < WNG_WEAR_LIMIT.WORD.word * stressSecond)

/-- Cores whose ledger has reached the limit leave boost duty at a boundary (R97). -/
def State.retireBoost (s : State) : State :=
  (List.range 4).foldl (fun s w =>
    let m := s.rd WNG_KIND_ROLE.ACTIVE_ROWS w
    let keep := (List.range 32).foldl (fun k y => if m / 2 ^ y % 2 = 1 ∧ s.boostEligible w y then k + 2 ^ y else k) 0
    if keep = m then s else { (s.wr WNG_KIND_ROLE.ACTIVE_ROWS keep w) with kind := { s.kind with reassignDue := true } }) s

end Sys2Proof.Machine
end

