-- ==== Sys2Proof/Machine/Boundary.lean ====
section
/-!
DEFINITION. The step boundary (R243 to R256): outcomes, expiry, commands, slots, configuration, credit, results and the next list, in the order of R243;
idle boundaries (R246), the mantel (R257), the leader's broadcast (R255) and the seat of a step's slot (R328).
-/
namespace Sys2Proof.Machine

/-! Consumer words (R283). -/

/-- Whether a consumer word is plausible: even, and no more than the ring size behind the producer. -/
def State.consOk (s : State) (p : Nat) (v : Word) : Bool := decide (v.toNat % 2 = 0) && decide (((s.ring p).prod - v).toNat ≤ s.ringSize p)

/-- The read of a partition's consumer word at a boundary, while its ring is enabled (R283), by an endpoint that can read (R272): an implausible word and one that could not be read are logged,
and the last good value stays (R300). `words` holds what the reads return. -/
def State.takeCons (words : List ConsWord) (s : State) (p : Nat) : State :=
  if !s.ringOn p then s
  else
    let s := s.readBus (s.rd64 POR_CONS_ADDR_LO.ADDRESS p) 4
    match (words.find? fun w => decide (w.part.val = p) && s.hostOpen).bind (·.value) with
    | none => (s.logErr (s.mkErr Err.CONS_INDEX_BAD sevInfo nodeHall 0 (some p))).raiseIrq .por p 1
    | some v =>
      if s.consOk p v then s.updRing p fun r => { r with cons := v, consTaken := true }
      else (s.logErr (s.mkErr Err.CONS_INDEX_BAD sevInfo nodeHall 0 (some p))).raiseIrq .por p 1

/-! Outcomes (R239, R242, R243 item 1). -/

/-- An outcome in the making: TOKEN entries of each (home, partition), in item order. -/
structure Outcome where
  s : State
  out : List (PkgId × Nat × ResEntry)

/-- The TOKEN entry of a sequence (R286), after its entry has advanced. -/
def tokenEntry (q : SeqEntry) (handle : Word) (step : Nat) : ResEntry :=
  { kind := 1, a := BitVec.ofNat 8 q.endReason, code := if q.generated = 1 then 1 else 0, handle := handle, x := q.lastToken,
    y := BitVec.ofNat 32 q.position, tag := q.userTag, stepLo := BitVec.ofNat 32 step, z := BitVec.ofNat 32 q.generated }

/-- The sequence that a record's handle names, whatever its home. -/
def State.named (s : State) (h : Word) : Option Nat :=
  let e := h.toNat % 65536
  if (s.seq e).st ≠ .free ∧ s.handle e = h then some e else none

/-- What an item adds to its client's account once its step has completed (R264). -/
def State.accountItem (s : State) (i : Item) : State :=
  let q := s.seq i.index
  let s := if q.position = 0 ∧ i.prefill then s.account q.home q.client 0 (s.step.lastBoundary - q.admitTime) else s
  if i.prefill then s.account q.home q.client 4 i.tokens else s

/-- The outcome of one item. A sequence that the step makes ERRORED has none (DEDUCED, notes/assumptions/30.md). -/
def Outcome.item (toks : List TokenRec) (bad : List Nat) (o : Outcome) (i : Item) : Outcome :=
  let e := i.index
  let s := o.s.accountItem i
  if bad.contains e then { o with s := s }
  else
    let h := s.handle e
    let s := (s.commitPages e).updSeq e fun q => { q with position := q.position + i.tokens, lastStep := s.step.id }
    let s := s.writeFill e (s.seq e).position
    if !i.sample then { o with s := s.updSeq e fun q => { q with st := .prefill } }
    else
      let rec1 := toks.find? fun t => decide (t.handle = h)
      let tok := (rec1.map (·.token)).getD 0xFFFFFFFF
      let s := if i.prefill then (s.dropFrames (s.kvOf e).prompt).updSeqKv e fun k => { k with prompt := [] } else s
      let s := s.updSeq e fun q =>
        { q with st := .decode, lastToken := tok, generated := q.generated + 1, counter := q.counter + 1 }
      let s := s.account (s.seq e).home (s.seq e).client 5 1
      let q := s.seq e
      let o := { o with out := o.out ++ [(q.home, q.part, tokenEntry q h s.step.id)] }
      if (rec1.map (·.endReason)).getD q.endReason = 0 then { o with s := s } else { o with s := s.toFree e }

/-- STEP_WAIT_NS of the candidates left out at the last boundary, and their skips, which count once the step they were left out of has completed (R264;
DEDUCED, notes/assumptions/131.md). -/
def State.accountWaits (s : State) (dt : Nat) : State :=
  s.liveSeqs.foldl (fun s e =>
    let q := s.seq e
    if q.lastSkip = 0 ∨ q.lastSkip = skipPrompt ∨ q.lastSkip = skipNot then s
    else
      let s := s.account q.home q.client 1 dt
      let s := if q.lastSkip = skipPreempted then s.account q.home q.client 2 1 else s
      if q.lastSkip = skipBudget then s.account q.home q.client 3 1 else s) s

/-- IN_LAST after the step (R236). -/
def State.markLast (s : State) (items : List Item) : State :=
  s.liveSeqs.foldl (fun s e => s.updSeq e fun q => { q with inLast := items.any fun i => decide (i.index = e) }) s

/-- The step counts for its model slot (R322, R331). -/
def State.countSlot (s : State) (t : Nat) : State :=
  s.updSlotRaw s.step.modelSlot fun m =>
    { m with steps := m.steps + 1, lastUse := t, uses := (m.uses.filter fun u => decide (t < u + 60000000000)) ++ [t] }

/-- Item 1 of R243. -/
def State.outcomes (s : State) (ks : List Contribution) (t : Nat) : Outcome :=
  let faults := ks.flatMap (·.faults)
  let s := s.accountWaits (t - s.step.lastBoundary)
  let items := if s.step.active then s.step.items else []
  let bad := faults.filterMap fun f => s.named f.handle
  let o := items.foldl (Outcome.item (ks.flatMap (·.tokens)) bad) { s := if s.step.active then s.countSlot t else s, out := [] }
  let s := faults.foldl (fun s f => match s.named f.handle with | some e => s.toErrored e f.code | none => s) o.s
  { o with s := (s.dropReserved).markLast items }

/-! Prompt copies, loft moves and copies back (R193, R197 to R199, R241). -/

/-- Every serving member has reported. -/
def State.allTold (s : State) (told : List PkgId) : Bool := s.serving.all fun p => told.contains p

/-- Item 3 of R197 in every package: the entries name their new frames and the units are free. -/
def State.copiedBack (s : State) (e : Nat) (frames : List Nat) : State :=
  let units := s.pageFrames e
  let s := s.updSeqKv e fun k => { k with pages := (k.pages.zip frames).map fun (r, f) => (r.1, r.2.map fun p => { p with frame := f, crc := 0 }) }
  (s.dropUnits units).updKv fun k =>
    { k with inLoft := k.inLoft.filter (· ≠ e), resumes := mapWhere (fun r => decide (r.seq = e)) (fun r => { r with st := .copied }) k.resumes }

/-- The reports of one contribution. -/
def State.takeReports (s : State) (k : Contribution) : State :=
  let s := k.promptReady.foldl (fun s e => if (s.seq e).st = .queued ∨ (s.seq e).st = .paused then s.updSeq e fun q => { q with promptReady := true } else s) s
  let s := s.updKv fun v =>
    { v with moves := mapWhere (fun m => k.moved.contains m.seq) (fun m => { m with told := m.told ++ [k.home] }) v.moves,
             resumes := mapWhere (fun r => k.resumed.contains r.seq) (fun r => { r with told := r.told ++ [k.home] }) v.resumes }
  let s := k.movedFailed.foldl (fun s e => (s.abandonMove e).updSeq e fun q => { q with moving := false }) s
  k.resumeFailed.foldl (fun s r =>
    if !(s.kv.resumes.any fun x => decide (x.seq = r.1)) then s
    else if r.2 = Err.LOFT_CHECK then s.toErrored r.1 r.2
    else (s.finishResume r.1 r.2).updSeq r.1 fun q => { q with moving := false }) s

/-- Reports of every member, and item 3 of R197 where all have copied. -/
def State.reports (s : State) (ks : List Contribution) : State :=
  let s := ks.foldl State.takeReports s
  s.kv.resumes.foldl (fun s r =>
    match r.st with
    | .copying fs => if s.allTold r.told then s.copiedBack r.seq fs else s
    | _ => s) s

/-- RESUMEs that wait for frames try again (R197, item 1) (DEDUCED, notes/assumptions/79.md). -/
def State.retryResumes (s : State) : State :=
  s.kv.resumes.foldl (fun s r => if r.st = .short then (s.beginCopy r.seq).getD s else s) s

/-- After the commands: step 6 of R193, and sequences copied back join (R197, item 4) (DEDUCED, notes/assumptions/79.md). -/
def State.settleMoves (s : State) : State :=
  let s := (s.kv.moves.filter fun m => m.rewritten && s.allTold m.told).foldl (fun s m =>
    ((s.dropFrames m.frames).updKv fun k => { k with moves := k.moves.filter fun x => decide (x.seq ≠ m.seq) }).updSeq m.seq fun q =>
      { q with moving := false }) s
  (s.kv.resumes.filter fun r => decide (r.st = .copied)).foldl (fun s r => (s.leavePause r.seq).finishResume r.seq Err.OK) s

/-! Clients and configuration (R261, R262, R269). -/

/-- GO clears in every package, raising the SEQ source (R269, R551). -/
def State.clearGo (s : State) : State := (s.wr SEQ_CFG_COMMIT.GO 0).raiseIrq .seq 0 1

/-- Sum of the quotas of a staged copy over the household (R266). -/
def State.stagedQuota (s : State) : Nat :=
  s.pair.members.length * ((List.range 16).foldl (fun n p => n + bitsN (s.stagedWord (SEQ_PART_CTLn.WORD.addr 0 p)) 16 0) 0)

/-- Whether a commit would change the pool or the loft while something is allocated. -/
def State.stagedLive (s : State) : Bool :=
  (decide (s.stagedWord SEQ_KV_SIZE.WORD.base ≠ s.configWord SEQ_KV_SIZE.WORD.base) ||
      decide (s.stagedWord SEQ_LOFT_SIZE.WORD.base ≠ s.configWord SEQ_LOFT_SIZE.WORD.base)) &&
    (decide (s.kv.frames ≠ []) || decide (s.kv.loftUnits ≠ []))

/-- Write the staged copy into the registers. -/
def State.applyStaged (s : State) : State :=
  let s := configOffs.foldl (fun s o =>
    let f := wordAt o (configReset o)
    if o = SEQ_HH_CTL.WORD.base then s.wr SEQ_HH_CTL.LEADER_PAIR (bitsN (s.stagedWord o) 23 16) else s.wr f (s.stagedWord o)) s
  { s with staged := [] }

/-- A commit of the household configuration (R269): with every contribution showing GO. -/
def State.commitConfig (s : State) (ks : List Contribution) : State :=
  if ks = [] ∨ !(ks.all (·.cfgGo)) then s
  else if !(ks.all fun k => decide (some k.cfgDigest = (ks.head?).map (·.cfgDigest))) then (s.clearGo).wr SEQ_CFG_COMMIT.MISMATCH 1
  else if 65536 < s.stagedQuota then (s.clearGo).conflict SEQ_CFG_COMMIT.WORD.base Err.QUOTA_OVERCOMMIT
  else if s.stagedLive then (s.clearGo).conflict SEQ_CFG_COMMIT.WORD.base Err.KV_LIVE
  else s.clearGo.applyStaged

/-- Refill of client credit over `dt` ns (R262). -/
def Client.refill (dt : Nat) (c : Client) : Client := { c with owed := if c.unlimited then 0 else c.owed - c.rate * dt }

/-- Refill every client; the first boundary after the household forms gives each its full burst (R262). -/
def State.refill (s : State) (dt : Nat) (first : Bool) : State :=
  { s with clients := SMap.mapVals Client.reset (fun _ c => if first then { c with owed := 0 } else c.refill dt) s.clients }

/-! Results (R284 to R296). -/

/-- Give a partition of this package the batch of a boundary (R285, R287, R296); where it would hold nothing, one for the deferred entries. -/
def State.dueBatch (s : State) (b : Batch) (items : Bool) : State :=
  let p := b.part.val
  if (s.ring p).discarding then { s with deferred := s.deferred.filter fun d => decide (d.part ≠ b.part) }
  else if items ∨ b.entries ≠ [] then s.updRing p fun r => { r with due := r.due ++ [b] }
  else if s.deferredOf p ≠ [] ∧ s.ringOn p then s.updRing p fun r => { r with due := r.due ++ [{ b with alone := true }] }
  else s

/-- The batches of a boundary: to this package's partitions, and kept for the partner's (R298, R431). -/
def State.dueBatches (s : State) (id t : Nat) (step : Bool) (items : List (PkgId × Nat)) (out : List (PkgId × Nat × ResEntry)) : State :=
  (List.range 16).foldl (fun s p =>
    let mk (home : PkgId) : Batch :=
      { part := BitVec.toFin (BitVec.ofNat 4 p), stepId := BitVec.ofNat 64 id, time := t, kind := if step then 1 else 2, replay := false,
        arith := if step then s.step.mergedArith else {}, expert := if step then s.step.mergedExpert else {},
        entries := (out.filter fun o => decide (o.1 = home) && decide (o.2.1 = p)).map (·.2.2) }
    let has (home : PkgId) : Bool := items.any fun i => decide (i = (home, p))
    let s := s.dueBatch (mk s.me) (has s.me)
    let b := mk s.partner
    if s.pair.member = .paired ∧ (has s.partner ∨ b.entries ≠ []) then s.updPair fun q => { q with partnerDue := q.partnerDue ++ [b] } else s) s

/-! Commands (R243 item 3). -/

/-- Apply the accepted records of every home in home order, with the RESULT entries they give. -/
def State.commands (s : State) (ks : List Contribution) (t : Nat) : State × List (PkgId × Nat × ResEntry) :=
  ks.foldl (fun acc k =>
    k.commands.foldl (fun acc r =>
      let a := Applied.cmd k.home t { s := acc.1, out := [] } r
      (a.s, acc.2 ++ a.out.map fun o => (k.home, o))) acc) (s, [])

/-- Keys accepted at or before this boundary take effect (R503). -/
def State.applyKeys (s : State) : State :=
  s.updKept fun k => { k with mkeys := k.mkeysDue.foldl (fun m e => SMap.set none m e.1 e.2) k.mkeys, mkeysDue := [] }

/-- Start the perturbation of a page (R548): ACTIVE and LEFT, and the count of boundaries. -/
def State.ptbStart (s : State) (page : Nat) : State :=
  let s := (s.wr PG_PTB_STS.ACTIVE 1 page).wr PG_PTB_STS.LEFT (s.rd PG_PTB_INJ.COUNT page) page
  { s with ptbSteps := SMap.set 0 s.ptbSteps page (s.rd PG_PTB_CTL.STEPS page) }

/-- End the perturbation of a page. -/
def State.ptbStop (s : State) (page : Nat) : State :=
  let s := (s.wr PG_PTB_CTL.ENABLE 0 page).wr PG_PTB_STS.ACTIVE 0 page
  { s with ptbSteps := SMap.set 0 s.ptbSteps page 0 }

/-- The pages whose PG_PTB_CTL has been written and shows ENABLE. -/
def State.ptbPages (s : State) : List Nat :=
  (s.regs.filter fun r => decide (r.1 % 0x1000 = PG_PTB_CTL.ENABLE.base) && r.2.getLsbD 31).map fun r => r.1 / 0x1000

/-- Perturbations at a step boundary (R548): those armed for it start, and those whose STEPS have passed end. -/
def State.ptbBoundary (s : State) : State :=
  s.ptbPages.foldl (fun s g =>
    if !s.on PG_PTB_STS.ACTIVE g then (if s.rd PG_PTB_CTL.TRIGGER g = 1 then s.ptbStart g else s)
    else
      let n := SMap.get 0 s.ptbSteps g
      if n = 0 then s
      else if n = 1 then s.ptbStop g
      else { s with ptbSteps := SMap.set 0 s.ptbSteps g (n - 1) }) s

/-! Membership at a boundary (R437). -/

/-- A lost member whose contribution this boundary holds serves again from it. That of a position 1 which had handed over for a repeated MIRROR_MISMATCH begins the
24 h of R425. -/
def State.rejoined (s : State) (ks : List Contribution) : State :=
  let back := (ks.map (·.home)).filter fun p => s.pair.lost.contains p
  let s := s.updPair fun p => { p with lost := p.lost.filter fun x => !back.contains x }
  if (s.pair.member = .rejoining ∧ (ks.any fun k => decide (k.home = s.me))) ∨ (s.pair.member = .alone ∧ back.contains s.partner) then
    let one := if s.pair.member = .rejoining then decide (s.position = 1) else decide (s.position = 0)
    (s.updPair fun p =>
      { p with rejoinedAt := if one && p.lastMirrorFault.isSome then s.rackTime else p.rejoinedAt, copying := false }).setMember .paired
  else s

/-! The boundary. -/

/-- Put away what the boundary's own contribution carried. -/
def State.clearSent (s : State) : State :=
  match s.step.contributions.find? fun k => decide (k.home = s.me) && decide (k.step.toNat = s.closing) with
  | none => s
  | some k =>
    { s with
      accepted := s.accepted.drop k.commands.length,
      rings := SMap.mapVals Ring.reset (fun _ r => { r with resetLeft := r.resetLeft - k.commands.length }) s.rings, cliChanges := s.cliChanges.drop k.clients.length,
      promptReady := s.promptReady.drop k.promptReady.length, moved := s.moved.drop k.moved.length,
      movedFailed := s.movedFailed.drop k.movedFailed.length, resumed := s.resumed.drop k.resumed.length,
      resumeFailed := s.resumeFailed.drop k.resumeFailed.length,
      slots := SMap.mapVals Slot.evicted (fun _ (m : Slot) => if (m.report.map LoadReport.phase) = some 4 then { m with report := none } else m) s.slots }.updStep fun p => { p with toError := p.toError.drop k.faults.length }

/-- The boundary at which every contribution is held, in the order of R243. Work accepted since this package's contribution is reported when no step opens (R246), and
a REJOINING partner is sent what has changed (R437). -/
def State.boundary (s : State) (cons : List ConsWord) : State :=
  let old := s.cellar
  let ks := s.heldContributions
  let t := ks.foldl (fun a k => max a k.doneTime) 0
  let id := s.closing
  let step := s.step.active
  let items := if step then s.step.items.map fun i => ((s.seq i.index).home, i.part) else []
  let first := decide (s.step.id = 0)
  let s := ((List.range 16).foldl (State.takeCons cons) s).clearSent
  let s : State := { s with pcie := { s.pcie with failed := cons.flatMap fun w => w.failed.map fun k => (w.part, k) } }
  let s := s.updStep fun p =>
    { p with id := id, mergedArith := ks.foldl (fun a k => arithMerge a k.arith) {}, mergedExpert := ks.foldl (fun a k => expertMerge a k.expert) {},
             contributions := p.contributions.filter fun k => decide (id < k.step.toNat) }
  let o := s.outcomes ks t
  let s := (o.s.reports ks).expire t
  let s := s.retryResumes
  let c := s.commands ks t
  let s := { c.1 with pcie := { c.1.pcie with failed := [] } }.settleMoves
  let s := (s.applySlots ks t).applyKeys
  let s := ks.foldl (fun s k => k.clients.foldl (fun s x => s.changeClient k.home x) s) s
  let s := s.commitConfig ks
  let s := s.refill (t - s.step.lastBoundary) first
  let s := s.dueBatches id t step items (o.out ++ c.2)
  let s := { s with rings := SMap.mapVals Ring.reset (fun _ r => { r with discarding := r.discarding && decide (0 < r.resetLeft) }) s.rings,
                    porches := SMap.mapVals Porch.reset (fun _ p => { p with accepted := 0 }) s.porches }
  let s := (s.examineAll.mapCores fun _ k => { k with imemBad := [] }).retireBoost
  let s := if step then s.ptbBoundary else s
  let s := (s.rejoined ks).updPair fun p => { p with grants := [], partnerRecords := match ks.find? fun k => decide (k.home = s.partner) with | some k => p.partnerRecords.drop k.commands.length | none => p.partnerRecords }
  let s := s.updStep fun p =>
    { p with active := false, prevBoundary := p.lastBoundary, lastBoundary := t, digest := nextDigest p.digest ks, contributed := false,
             rooms := ks.map fun k => (k.home, k.room), tokensOut := [], arith := {}, expert := {} }
  let s := ((s.wr64 SEQ_STEP_ID_LO.STEP id).wr64 SEQ_BOUNDARY_LO.TIME t).raiseIrq .seq 0 0
  let s := s.updPower fun p => { p with idleSince := s.rackTime }
  let s : State := (s.buildList.seatStep).launch.takeList
  let s : State := if !s.step.active && (decide (s.accepted ≠ []) || decide (s.promptReady ≠ [])) then s.reportWork else s
  if s.pair.copying then s.emit (.rejoinCopy (s.rejoinCopy old false)) else s

/-- Whether the package takes part in boundaries. -/
def State.inBoundaries (s : State) : Bool :=
  match s.pair.member with
  | .paired => true
  | .alone => true
  | .rejoining => s.step.contributed
  | _ => false

/-- The boundary that ends the step, with every contribution held (R243). -/
def execStepBoundary (cons : List ConsWord) (s : State) : Res :=
  if s.inBoundaries ∧ s.step.active ∧ s.step.contributed ∧ s.boundaryOpen then .next (s.boundary cons) else .next s

/-! A household's idleness (R471). -/

/-- Whether nothing but sequences at rest is held: no pending record, load, loft move or rejoin, and no sweep work within 1 h. -/
def State.quiet (s : State) : Bool :=
  decide (s.accepted = []) && decide (s.kv.moves = []) && decide (s.kv.resumes = []) && decide (s.pair.member ≠ .rejoining) && !s.pair.copying &&
    (s.slots.all fun e => match e.2.st with | .evicted => true | .ready => true | .draining => true | _ => false) &&
    !s.sweepDueBy (s.rackTime + nsHour) && !s.recheckDueBy (s.rackTime + nsHour)

/-- The shallowest FLOOR reported. -/
def State.shallowest (s : State) : Nat := s.pair.idleFrom.foldl (fun m e => min m e.2.1) 3

/-- The leader takes a member's report and, once every serving member has been idle for its EMBER_MS, sends REST (R471). -/
def State.takeIdle (s : State) (who : PkgId) (floor : Nat) (idle : Bool) : State :=
  let old := s.pair.idleFrom.find? fun e => decide (e.1 = who)
  let rest := s.pair.idleFrom.filter fun e => decide (e.1 ≠ who)
  let s := s.updPair fun p => { p with idleFrom := if idle then rest ++ [(who, floor, (old.map (·.2.2)).getD s.step.lastBoundary)] else rest }
  let long (p : PkgId) : Bool :=
    s.pair.idleFrom.any fun e => decide (e.1 = p) && decide (e.2.2 + 1000000 * s.rd PWR_STATE_CTL.EMBER_MS ≤ s.step.lastBoundary)
  if s.leader ≠ s.me ∨ s.power.restEntry.isSome ∨ !(s.serving.all long) ∨ s.shallowest < 2 then s
  else
    let entry := s.step.lastBoundary + 20000
    let banked := if s.shallowest = 3 then some (entry + 1000000000 * s.rd PWR_STATE_CTL.BANKED_S) else none
    (s.toOthers fun d => .restMsg d entry banked).updPower fun p => { p with restEntry := some entry, restBanked := banked }

/-- At an idle boundary the member reports to the leader (R471) (DEDUCED, notes/assumptions/82.md). -/
def State.reportIdle (s : State) (quiet : Bool) : State :=
  let idle := quiet && s.quiet && !s.step.active
  let floor := s.rd PWR_STATE_CTL.FLOOR
  if s.leader = s.me then s.takeIdle s.me floor idle else s.emit (.idle s.leader floor idle)

/-- Whether a valid mantel slot has started since the last boundary (R246, R257). -/
def State.mantelDue (s : State) (n : Nat) : Bool :=
  s.on SEQ_MANTELn.VALID 0 n && (match mantelStart n s.rackTime with | some x => decide (s.step.lastBoundary < x) | none => false)

/-- Whether an idle boundary is to be opened here (R246): by the leader for a reported command or ready sequence, its own or, with `reported`, a member's, for a mantel
slot that has started, or 1 ms after the last boundary; by another member once it holds the leader's contribution. -/
def State.opensIdle (s : State) (reported : Bool) : Bool :=
  if s.leader = s.me then
    reported || decide (s.accepted ≠ []) || decide (s.promptReady ≠ []) || (List.range 64).any s.mantelDue ||
      decide (s.step.lastBoundary + 1000000 ≤ s.rackTime)
  else s.heldContributions.any fun k => decide (k.home = s.leader)

/-- At an idle boundary a paired member sends its mirror (R424) and its contribution (DEDUCED, notes/assumptions/83.md). -/
def State.contributeIdle (s : State) : State :=
  (if s.pair.member = .paired then s.emit (.mirror s.mirror) else s).contribute s.rackTime

/-- An idle boundary (R246): once opened the contribution goes out, and once every member's is held the boundary is applied. None is opened at rest (R473). -/
def execIdleBoundary (cons : List ConsWord) (reported : Bool) (s : State) : Res :=
  if !s.inBoundaries ∨ s.step.active ∨ s.step.seating ≠ [] ∨ s.resting ∨ (!s.step.contributed ∧ !s.opensIdle reported) then .next s
  else
    let s := if s.step.contributed then s else s.contributeIdle
    .next (if s.boundaryOpen then (s.boundary cons).reportIdle s.quiet else s)

/-- Expiry by a hall steward while no step runs, 1 ms of rack time after the last boundary (R196). -/
def execExpiryCheck (s : State) : Res :=
  .next (if !s.step.active ∧ !s.resting ∧ s.step.lastBoundary + 1000000 ≤ s.rackTime then s.expire s.rackTime else s)

/-- A valid mantel slot starts while no step runs: the leader opens an idle boundary (R246, R257). -/
def execMantelSlotStart (n : Fin 64) (s : State) : Res :=
  if s.mantelDue n.val ∧ s.leader = s.me ∧ s.inBoundaries ∧ !s.step.active ∧ s.step.seating = [] ∧ !s.step.contributed then
    .next s.contributeIdle
  else .next s

/-! The leader's list (R255, R256). -/

/-- The leader's broadcast arrives, with the pairs of which packages are known to differ from it: it is compared, or held until this package has reached its
attempt (R255, R256), as a REJOINING one has at the boundary that takes it back. -/
def execWorkListReceive (h : ListHeader) (pairs : List Nat) (s : State) : Res :=
  if !s.inBoundaries then .next s
  else if s.listIsNow h then .next (if s.pair.member = .rejoining then s else s.compareList h pairs)
  else if s.listIsLater h then .next (s.updStep fun p => { p with heldList := some (h, pairs) })
  else .next s

/-! Prompt fetches (R241). -/

/-- The home hall's read of a prompt ends: the ids go to this member's prompt frames and to the partner's, or a failed read makes the sequence
ERRORED with PROMPT_FETCH at the next boundary (DEDUCED, notes/assumptions/85.md). -/
def execPromptFetchComplete (e : SeqIdx) (ids : Option Bytes) (s : State) : Res :=
  let n := e.toNat
  let q := s.seq n
  if q.home ≠ s.me ∨ q.promptReady ∨ s.promptReady.contains n ∨ (s.kvOf n).prompt = [] ∨ q.position ≠ 0 then .next s
  else
    match ids with
    | none =>
      .next ((s.logErr (s.mkErr Err.PROMPT_FETCH sevSequence nodeHall 0 (some q.part) (s.handle n))).markErrored Err.PROMPT_FETCH [n])
    | some b =>
      let b := padTo (4 * q.promptLen) (b.take (4 * q.promptLen))
      let s := { s.celWrite q.promptAddr b with promptReady := s.promptReady ++ [n] }.reportWork
      if s.pair.member ≠ .paired then .next s
      else
        let parts := chunks 4096 (b.length / 4096 + 1) b
        .next (((List.range parts.length).zip parts).foldl (fun s (i, x) =>
          s.emit (.packet s.partner (s.request (srfAddr s.partner 1 (q.promptAddr + 4096 * i)) tBULK_WRITE 3 nodeHall i x.length 0 x))) s)

/-! Waiting seats (R142, R328). -/

/-- The wait of step 2 of R142 ends: with every core HALTED the seats are made; 50 µs after the STOP each load is refused with IMEM_BUSY, and the cores start
again on the image they hold. A step whose own slot cannot be seated is restarted, and the second time the work is handed over (DEDUCED, notes/assumptions/48.md). -/
def execProgramLoadHaltTimeout (s : State) : Res :=
  if s.step.seating = [] then .next s
  else if s.allHalted then .next s.finishSeating.launch
  else if s.rackTime < (s.step.seating.head?.map (·.since)).getD 0 + 50000 then .next s
  else
    let q := s.step.seating
    let s := s.updStep fun p => { p with seating := [] }
    let s := (q.filterMap (·.cmd)).foldl (fun s r => answerLoad r Err.IMEM_BUSY s) s
    let s := (q.filter (·.evict)).foldl (fun s x => s.evictSlot x.slot 0) s.haltAll
    let s := s.startSeated
    if q.any fun x => !x.load && !x.evict then
      if s.step.seatFailed then .next s.handOver
      else .next ((s.updStep fun p => { p with seatFailed := true }).sendAbort Err.IMEM_BUSY)
    else .next s.launch

end Sys2Proof.Machine
end

