-- ==== Sys2Proof/Machine/Formation.lean ====
section
/-!
DEFINITION. Forming and joining a household (R519 to R522, R19, R179, R268, R419, R439, R489). Every package of the mask holds every report, so each judges them
itself, by the leader's checks (DEDUCED, notes/assumptions/33.md).
-/
namespace Sys2Proof.Machine

/-- The member mask written in HAL_FORM_MASK, in ascending (rack, slot) order. -/
def State.formMask (s : State) : List PkgId :=
  let half (rack lo hi : Nat) : List PkgId :=
    (List.range 36).filterMap fun i => if (lo + 2 ^ 32 * hi) / 2 ^ i % 2 = 1 then some (BitVec.ofNat 7 (64 * rack + i)) else none
  half 0 (s.rd HAL_FORM_MASK_RACK0_LO.SLOTS) (s.rd HAL_FORM_MASK_RACK0_HI.SLOTS) ++
    half 1 (s.rd HAL_FORM_MASK_RACK1_LO.SLOTS) (s.rd HAL_FORM_MASK_RACK1_HI.SLOTS)

/-- HH_ABI of the running image (R488). -/
def State.hhAbi (s : State) : Nat := fieldAt s.mgmt.image 0x0C 2

/-- Whether every wing has a carrying lane on every plane and the pair link 8 lanes (R520, check 7). -/
def State.linksGood (s : State) : Bool :=
  decide (8 ≤ s.pairLanes) && (List.range 4).all fun w => (List.range 8).all fun p => s.laneServes w (2 * p) || s.laneServes w (2 * p + 1)

/-- Digest of the configuration in effect (R268, R520). -/
def State.configDigest (s : State) : DWord := cfgDigest (configOffs.map s.configWord)

/-- This package's FORM report (R520). -/
def State.formReport (s : State) : FormReport :=
  { src := s.me, mask := s.formMask, ready := decide (s.rd HAL_BOOT_STS.STAGE = 6) && !s.on HAL_BOOT_STS.FAIL && !s.kept.condemned, hhAbi := BitVec.ofNat 16 s.hhAbi,
    pairNum := s.pairNum, rackTime := s.rackTime, kvSize := s.rd SEQ_KV_SIZE.FRAMES, loftSize := s.rd SEQ_LOFT_SIZE.UNITS,
    cfgDigest := s.configDigest, linksGood := s.linksGood, verdict := none, lost := [], pairNums := [], epoch := s.pair.epoch }

/-- Whether every lane with a VALID plan entry has an outcome (R520). -/
def State.lanesSettled (s : State) : Bool :=
  (List.range 88).all fun l => !s.on PAIR_PLANn.VALID 0 l || decide (s.rd PAIR_PEERn.OUTCOME 0 l ≠ 0)

/-- Formation ends with a code in HAL_FORM (R520); a refusal is logged. -/
def State.formEnd (s : State) (code : Code) : State :=
  let s := ((s.wr HAL_FORM.GO 0).wr HAL_FORM.FORMING 0).wr HAL_FORM.CODE code.toNat
  let s := (s.updPair fun p => { p with forming := [], goAt := none, formReady := false }).raiseIrq .hal 0 1
  if code = Err.OK then s else s.logErr (s.mkErr code sevInfo nodeHall)

/-- Whether the values of a list are pairwise equal. -/
def allEqual {α : Type} [DecidableEq α] (l : List α) : Bool := l.all fun x => decide (some x = l.head?)

/-- The checks of R520 on the reports in ascending order of source: the first that fails. Rack times are compared by what each report was ahead of the receiver's own
at its arrival (DEDUCED, notes/assumptions/34.md). -/
def formVerdict (mask : List PkgId) (rs : List (FormReport × Nat)) : Code :=
  let r := rs.map (·.1)
  let lead : List Nat := rs.map fun e => e.1.rackTime + 2 ^ 64 - e.2
  let num (p : PkgId) : Option Nat := (r.find? fun x => decide (x.src = p)).map (·.pairNum)
  if !(r.all fun x => decide (x.mask = mask) && x.ready) ∨ !(mask.all fun p => mask.contains (p ^^^ 2)) then Err.FORM_MASK
  else if !allEqual (r.map (·.hhAbi)) then Err.FW_ABI_MISMATCH
  else if !(r.all fun x => decide (num (x.src ^^^ 2) = some x.pairNum) && decide (x.pairNum < mask.length / 2) &&
      r.all fun y => decide (y.pairNum ≠ x.pairNum) || decide (y.src = x.src) || decide (y.src = x.src ^^^ 2)) then Err.PAIR_NUM_MISMATCH
  else if 1000 < lead.foldl max 0 - lead.foldl min (2 ^ 66) then Err.RTIME_MISMATCH
  else if !allEqual (r.map fun x => (x.kvSize, x.loftSize)) then Err.KV_POOL_MISMATCH
  else if !allEqual (r.map (·.cfgDigest)) then Err.CFG_MISMATCH
  else if !(r.all (·.linksGood)) then Err.FORM_LINKS
  else Err.OK

/-- The reports of the members of the mask, ascending. -/
def State.formReports (s : State) : List (FormReport × Nat) :=
  s.formMask.filterMap fun p => s.pair.forming.find? fun r => decide (r.1.src = p)

/-- With every report of the mask held, and a member in LEADER_PAIR to check them, formation fails or waits for the next FRAME_SYNC edge (R520, R521). -/
def State.judgeForm (s : State) : State :=
  let rs := s.formReports
  if s.pair.goAt.isNone ∨ s.pair.formReady ∨ !s.formMask.contains s.me ∨ rs.length < s.formMask.length ∨
      !(rs.any fun r => decide (r.1.pairNum = s.rd SEQ_HH_CTL.LEADER_PAIR)) then s
  else
    let c := formVerdict s.formMask rs
    if c = Err.OK then s.updPair fun p => { p with formReady := true } else s.formEnd c

/-- Hold a report, in place of an earlier one of the same package. -/
def State.holdReport (s : State) (r : FormReport) : State :=
  s.updPair fun p => { p with forming := (p.forming.filter fun x => decide (x.1.src ≠ r.src)) ++ [(r, s.rackTime)] }

/-- Send the FORM packet once the lanes have settled after GO (R520). -/
def State.sendForm (s : State) : State :=
  if s.pair.goAt.isNone ∨ (s.pair.forming.any fun r => decide (r.1.src = s.me)) ∨ !s.lanesSettled then s
  else
    let r := s.formReport
    let s := (s.formMask.filter fun p => decide (p ≠ s.me)).foldl (fun s p => s.emit (.form p r)) s
    (s.holdReport r).judgeForm

/-- HAL_FORM.GO (R519, R522). A package that stays out until it is replaced (R93, R367, R415) forms no household: for it a GO is discarded as for one that
is not READY (DEDUCED, notes/assumptions/123.md). -/
def State.formGo (s : State) : State :=
  if s.rd HAL_BOOT_STS.STAGE ≠ 6 ∨ s.on HAL_BOOT_STS.FAIL ∨ s.kept.condemned ∨ s.pair.member ≠ .outside then s.conflict HAL_FORM.WORD.base Err.FORM_STATE
  else if s.pair.goAt.isSome then s
  else
    let s := ((s.wr HAL_FORM.GO 1).wr HAL_FORM.FORMING 1).wr HAL_FORM.CODE 0
    (s.updPair fun p => { p with goAt := some s.rackTime, formReady := false }).sendForm

def execGo (q : Requester) (s : State) : Res := s.action q .hal 0 0x108 State.formGo

/-- Once every pair-link lane has an outcome the package is READY, OUTSIDE and in Glow; one that was OUT then joins (R511, R515, R524). -/
def State.becomeReady (s : State) : State :=
  if s.rd HAL_BOOT_STS.STAGE ≠ 4 ∨ s.on HAL_BOOT_STS.FAIL ∨ !((List.range 16).all fun i => decide (s.rd PAIR_PEERn.OUTCOME 0 (72 + i) ≠ 0)) then s
  else
    let s := (s.wr HAL_BOOT_STS.STAGE 6).raiseIrq .hal 0 0
    let mask := s.pair.keptMask
    if mask = [] then s
    else
      let word (rack : Nat) : Nat := mask.foldl (fun n p => if p.toNat / 64 = rack then n + 2 ^ (p.toNat % 64) else n) 0
      let s := (s.wr HAL_FORM_MASK_RACK0_LO.SLOTS (word 0 % 2 ^ 32)).wr HAL_FORM_MASK_RACK0_HI.SLOTS (word 0 / 2 ^ 32)
      let s := (s.wr HAL_FORM_MASK_RACK1_LO.SLOTS (word 1 % 2 ^ 32)).wr HAL_FORM_MASK_RACK1_HI.SLOTS (word 1 / 2 ^ 32)
      (s.updPair fun p => { p with keptMask := [] }).formGo

/-- The household's leader judges a join by checks 2 to 7 against the household's values (R522). -/
def State.joinVerdict (s : State) (r : FormReport) : Code :=
  let ahead : Nat := max r.rackTime s.rackTime - min r.rackTime s.rackTime
  if r.hhAbi.toNat ≠ s.pair.hhAbi then Err.FW_ABI_MISMATCH
  else if r.pairNum ≠ s.pairOf r.src then Err.PAIR_NUM_MISMATCH
  else if 1000 < ahead then Err.RTIME_MISMATCH
  else if r.kvSize ≠ s.rd SEQ_KV_SIZE.FRAMES ∨ r.loftSize ≠ s.rd SEQ_LOFT_SIZE.UNITS then Err.KV_POOL_MISMATCH
  else if r.cfgDigest ≠ s.configDigest then Err.CFG_MISMATCH
  else if !r.linksGood then Err.FORM_LINKS
  else Err.OK

/-- Whether a report asks to join this household: its mask is the members', and its partner serves alone (R522). -/
def State.joins (s : State) (r : FormReport) : Bool :=
  decide (r.mask = s.pair.members) && s.pair.lost.contains r.src && !s.pair.lost.contains (r.src ^^^ 2)

/-- The verdict on this package's join arrives: it enters OUT, and rejoins at once with AUTO_REJOIN (R522). -/
def State.joinEnd (s : State) (r : FormReport) (c : Code) : State :=
  let s := s.formEnd c
  if c ≠ Err.OK then s
  else
    let s := s.updPair fun p => { p with members := r.mask, lost := r.lost, pairNums := r.pairNums, hhAbi := r.hhAbi.toNat, epoch := r.epoch }
    let s := ((s.wr SEQ_HH_CTL.FORMED 1).wr SEQ_HH_CTL.PAIRS s.pairs).setMember .out
    s.repaired

/-- A FORM packet arrives (R520, R522). -/
def execForm (r : FormReport) (s : State) : Res :=
  match s.pair.member with
  | .outside =>
    match r.verdict with
    | some c => .next (if s.pair.goAt.isSome then s.joinEnd r c else s)
    | none => .next (s.holdReport r).judgeForm
  | .paired =>
    .next (if s.joins r ∧ s.leader = s.me then
      s.emit (.form r.src { s.formReport with mask := s.pair.members, verdict := some (s.joinVerdict r), lost := s.pair.lost, pairNums := s.pair.pairNums })
    else s)
  | .alone =>
    .next (if s.joins r ∧ s.leader = s.me then
      s.emit (.form r.src { s.formReport with mask := s.pair.members, verdict := some (s.joinVerdict r), lost := s.pair.lost, pairNums := s.pair.pairNums })
    else s)
  | _ => .next s

/-- Reports still missing 1 s after the own GO (R520). -/
def execFormTimeout (s : State) : Res :=
  match s.pair.goAt with
  | none => .next s
  | some t => .next (if s.pair.formReady ∨ s.rackTime < t + 1000000000 then s else s.formEnd Err.FORM_TIMEOUT)

/-- The formation boundary at a FRAME_SYNC edge (R521): step id 0, digest zero, EPOCH zero (R398), credits full, PAIRED. -/
def State.formHousehold (s : State) : State :=
  let rs := s.formReports
  let mask := s.formMask
  let s := s.formEnd Err.OK
  let s := s.updPair fun p =>
    { p with members := mask, lost := [], pairNums := rs.map fun r => (r.1.src, r.1.pairNum), hhAbi := s.hhAbi, takeovers := [], grants := [],
             hbFrom := s.rackTime + 1, aliveFrom := s.rackTime + 1, epoch := 0, copying := false, linkDown := false, claimAt := none, mirrored := none, partnerRecords := [],
             partnerDue := [], partnerDeferred := [], lastMirrorFault := none, idleFrom := [] }
  let s := s.updStep fun _ => { StepSt.reset with lastBoundary := s.rackTime, prevBoundary := s.rackTime }
  let s : State := { s with clients := SMap.mapVals Client.reset (fun _ c => { c with owed := 0 }) s.clients }
  let s := ((s.wr SEQ_HH_CTL.FORMED 1).wr SEQ_HH_CTL.PAIRS s.pairs).wr64 SEQ_STEP_ID_LO.STEP 0
  ((s.wr64 SEQ_BOUNDARY_LO.TIME s.rackTime).setMember .paired).raiseIrq .seq 0 0

end Sys2Proof.Machine
end

