-- ==== Sys2Proof/Machine/Links.lean ====
section
/-!
DEFINITION. Links (R404, R405, R411 to R415, R441 to R444): the link layer of a lane, failed lanes and spares, the cabling check, and uncorrectable
words on the package's own links.
-/
namespace Sys2Proof.Machine

/-! Lanes (R441). -/

/-- The node that logs a lane's occurrences. -/
def laneNode (l : Nat) : Nat := if isPairLane l then nodeEngines else nodeGateway (laneWing l)

/-- SPARE_MAP of spare `k` of a wing: whether it replaces a lane. -/
def State.spareBusy (s : State) (w k : Nat) : Bool := if k = 0 then s.on FAB_SPARE_MAP.S0_VALID w else s.on FAB_SPARE_MAP.S1_VALID w

/-- Show spare `k` of a wing replacing a local lane, or none. -/
def State.setSpare (s : State) (w k : Nat) (v : Option Nat) : State :=
  let n := if v.isSome then 1 else 0
  if k = 0 then (s.wr FAB_SPARE_MAP.S0_VALID n w).wr FAB_SPARE_MAP.S0_FOR (v.getD 0) w
  else (s.wr FAB_SPARE_MAP.S1_VALID n w).wr FAB_SPARE_MAP.S1_FOR (v.getD 0) w

/-- The lane that is spare `k` of a wing. -/
def State.spareLane (s : State) (w k : Nat) : Nat := 18 * w + (s.wing w).spares.getD k 16

/-- The lowest spare of a wing that is free, trained and not mapped out. -/
def State.freeSpare (s : State) (w : Nat) : Option Nat :=
  (List.range 2).find? fun k =>
    !s.spareBusy w k && !s.mappedOut (s.spareLane w k) &&
      !((List.range 16).any fun i => decide ((s.lane (18 * w + i)).spared = some (s.spareLane w k)))

/-- A lane is down and mapped out (R443). -/
def State.mapOut (s : State) (l : Nat) : State := (s.updLane l fun a => { a with carrying := false, training := false }).setMapOut l true

/-- A package that has lost both lanes of a plane of a wing, with no spare left, hands its work over (R444). A lane that trains is not lost yet (DEDUCED,
notes/assumptions/66.md). -/
def State.checkPlane (s : State) (w p : Nat) : State :=
  if p < 8 ∧ s.planeLost w p ∧ !(s.lane (18 * w + 2 * p)).training ∧ !(s.lane (18 * w + 2 * p + 1)).training then s.handOver else s

/-- The local lane whose flows a lane carries in its place (R414). -/
def State.replaces (s : State) (l : Nat) : Option Nat :=
  (List.range 16).find? fun i => decide ((s.lane (18 * laneWing l + i)).spared = some l)

/-- The link layer of a lane goes on where another's stood: its sequence numbers, its credits and its codewords (R414). -/
def LaneSt.follow (a old : LaneSt) : LaneSt :=
  { a with rxNext := old.rxNext, txNext := old.txNext, acked := old.acked, replay := old.replay, credits := old.credits, backlog := old.backlog,
           slots := old.slots, owed := old.owed }

/-- A lane that has given its codewords away. -/
def LaneSt.cleared (a : LaneSt) : LaneSt := { a with replay := [], backlog := 0, slots := 0 }

/-- Codewords of a lane whose flits have not all been acknowledged: those kept for replay, those that wait, and the one being formed. -/
def LaneSt.open (a : LaneSt) : Nat := a.replay.length + a.backlog + (if a.slots = 0 then 0 else 1)

/-- Lane `l` gives its open codewords to lane `m`, which sends them with its own flows (R414, R420) (DEDUCED, notes/assumptions/65.md). -/
def State.moveFlows (s : State) (l m : Nat) : State :=
  let n := (s.lane l).open
  let s := s.updLane l LaneSt.cleared
  if (s.lane m).carrying then s.onLane m fun a => LaneSt.drain 64 { a with backlog := a.backlog + n } else s

/-- The pair-link lane that takes the next codeword: the lanes take them in turn (R407, R420). -/
def State.pairLane (s : State) : Option Nat :=
  ((List.range 16).map fun i => 72 + (s.pair.stripe + i) % 16).find? fun l => (s.lane l).carrying

/-- The lanes of the pair link that are left take a failed one's open codewords in turn (R420). -/
def State.restripe (s : State) (l : Nat) : State :=
  let n := (s.lane l).open
  let s := s.updLane l LaneSt.cleared
  (List.range n).foldl (fun (s : State) _ =>
    match s.pairLane with
    | none => s
    | some m => (s.onLane m fun a => LaneSt.drain 64 { a with backlog := a.backlog + 1 }).updPair fun p => { p with stripe := (m - 72 + 1) % 16 }) s

/-- A lane fails (R414, R420): a spare is retrained in its place, or its flows move to the plane's other lane and LANE_FAILED is logged; a wing
that has lost both lanes of a plane hands the work over (R444). -/
def State.laneFail (s : State) (l : Nat) : State :=
  let s := s.mapOut l
  if isPairLane l then (s.logErr (s.mkErr Err.LANE_FAILED sevInfo (laneNode l))).restripe l
  else
    let w := laneWing l
    let spareOf := (List.range 2).find? fun k => decide (s.spareLane w k = l)
    -- a lane that fails in another's place leaves that one without it
    let victim := match s.replaces l with
      | some i => some i
      | none => if spareOf.isNone ∧ laneLocal l < 16 then some (laneLocal l) else none
    let s := match spareOf with | some k => s.setSpare w k none | none => s
    match victim with
    | none => (s.logErr (s.mkErr Err.LANE_FAILED sevInfo (laneNode l))).raiseIrq .fab w 0
    | some i =>
      match if s.on FAB_CTL.SPARE_AUTO w then s.freeSpare w else none with
      | some k =>
        let sp := s.spareLane w k
        let old := s.lane l
        let s := if l = 18 * w + i ∨ old.training then s else (s.updLane l LaneSt.cleared).updLane (18 * w + i) fun a => a.follow old
        (s.updLane (18 * w + i) fun a => { a with spared := some sp }).updLane sp fun a => { a with training := true, trainFrom := s.rackTime }
      | none =>
        let s := s.updLane (18 * w + i) fun a => { a with spared := none }
        let s := (s.logErr (s.mkErr Err.LANE_FAILED sevInfo (laneNode l))).raiseIrq .fab w 0
        (s.moveFlows l (s.physLane (18 * w + i))).checkPlane w (i / 2)

/-- Spare `k` of a wing takes the place of lane `i` (R414): it carries, and the codewords of the replay buffer are resent on it. -/
def State.spareUp (s : State) (w k i : Nat) : State :=
  let sp := s.spareLane w k
  let old := s.lane (18 * w + i)
  let s := s.updLane (18 * w + i) LaneSt.cleared
  let s := s.updLane sp fun a => { a.follow old with carrying := true, training := false, resends := 0, nak := false, ueTimes := [] }
  let s := old.replay.foldl (fun s q => s.emit (.resend sp q)) (s.setSpare w k (some i))
  (s.bump FAB_RETRY.REPLAYS old.replay.length w).raiseIrq .fab w 3

/-- A spare has retrained in place of a failed lane (R414). -/
def execSpareLaneRetrain (w : Wing) (spare : Fin 2) (s : State) : Res :=
  let sp := s.spareLane w spare
  match s.replaces sp with
  | none => .next s
  | some i => if !(s.lane sp).training then .next s else .next (s.spareUp w spare i)

/-! The link layer (R411 to R413). -/

/-- Fields of a link header (R412). -/
def lkSEQ (h : BitVec 20) : Nat := bitsN h.toNat 19 14
def lkACK (h : BitVec 20) : Nat := bitsN h.toNat 13 8
def lkNAK (h : BitVec 20) : Bool := h.getLsbD 7
def lkCVC (h : BitVec 20) : Nat := bitsN h.toNat 6 5
def lkCCNT (h : BitVec 20) : Nat := bitsN h.toNat 4 0

/-- Take a link header (R413): the acknowledgement, the credits; the second component is what must be resent (DEDUCED, notes/assumptions/65.md). -/
def LaneSt.header (a : LaneSt) (h : BitVec 20) : LaneSt × List Nat :=
  let left := match findIdx (fun q => decide (q = lkACK h)) a.replay 0 with
    | some (i, _) => a.replay.drop (i + 1)
    | none => a.replay
  let moved := decide (left ≠ a.replay)
  let again := lkNAK h && decide (left ≠ [])
  let a := { a with replay := left, acked := if moved then lkACK h else a.acked,
                    resends := if again then (if moved then 1 else a.resends + 1) else if moved then 0 else a.resends,
                    credits := a.credits.set (lkCVC h) (a.credits.getD (lkCVC h) 0 + lkCCNT h) }
  (LaneSt.drain 64 a, if again then left else [])

/-- A control codeword goes back on a lane with the ACK of the last codeword accepted, or NAK, and the credits to return (R412, R413). -/
def State.linkBack (s : State) (l : Nat) : State := s.sendCodeword l false (s.lane l).txNext

/-- A lane with no flit to send, or with 63 data codewords unacknowledged, sends control codewords (R413). One that would say nothing new is not shown: neither
NAK, which is kept up until its SEQ arrives, nor credits to return (DESIGN CHOICE, notes/assumptions/150.md). -/
def State.linkIdle (s : State) : State :=
  s.lanes.foldl (fun (s : State) e => if e.2.carrying ∧ (e.2.nak ∨ e.2.owed.any fun n => decide (0 < n)) then s.linkBack e.1 else s) s

/-- The flits of a codeword that is accepted leave the lane's buffer, and their credits are to be returned (R412) (DEDUCED, notes/assumptions/65.md). -/
def LaneSt.accept (a : LaneSt) (flits : List (Fin 4)) : LaneSt :=
  { a with rxNext := (a.rxNext + 1) % 64, nak := false, owed := flits.foldl (fun o v => o.set v.val (o.getD v.val 0 + 1)) a.owed }

/-- A codeword arrives on a lane that carries (R413, R414, R547). -/
def execCodewordReceive (l : Lane) (cw : Codeword) (s : State) : Res :=
  if !(s.lane l).carrying then .next s
  else
    let page := if isPairLane l then Block.pair.page 0 else Block.fab.page (laneWing l)
    let inj := s.inject page (if isPairLane l then l.val - 72 else laneLocal l) 4 0
    let s := inj.2
    let bad := cw.corrected + (if inj.1 then s.rd PG_PTB_INJ.SYMBOLS page else 0)
    if !cw.decodes ∨ 15 < bad then
      let s := if isPairLane l then s else s.bump FAB_FEC_UE.COUNT 1 (laneWing l)
      let s := s.updLane l fun a =>
        { a with nak := true, ueTimes := (a.ueTimes.filter fun t => decide (s.rackTime < t + 1000000000)) ++ [s.rackTime] }
      let s := s.linkBack l
      .next (if 1000 < (s.lane l).ueTimes.length then s.laneFail l else s)
    else
      let s := if bad = 0 ∨ isPairLane l then s else s.bump64 FAB_FEC_CE_LO.COUNT 1 (laneWing l)
      let again := ((s.lane l).header cw.header).2
      let s := again.foldl (fun s q => s.emit (.resend l q)) s
      let s := s.onLane l fun a => (a.header cw.header).1
      let s := if isPairLane l then s else s.bump FAB_RETRY.REPLAYS again.length (laneWing l)
      if 8 ≤ (s.lane l).resends then .next (s.laneFail l)
      else if cw.flits = [] then .next s
      else if lkSEQ cw.header = (s.lane l).rxNext then .next ((s.updLane l fun a => a.accept cw.flits).linkBack l)
      else .next ((s.updLane l fun a => { a with nak := true }).linkBack l)

/-! The cabling check (R441 to R443). -/

/-- The plan's identity for a lane, bits [31:8], when its entry is in use. -/
def State.planId (s : State) (l : Nat) : Option Nat := if s.on PAIR_PLANn.VALID 0 l then some (s.rd PAIR_PLANn.IDENTITY 0 l) else none

/-- The identity word that a lane sends (R441): KIND 0b00, RACK, SLOT, TRAY, PORT. Tray t holds slots 2t and 2t + 1 (R418). -/
def State.identityWord (s : State) (l : Nat) : Word :=
  BitVec.ofNat 32 ((if s.pair.rack then 2 ^ 29 else 0) + s.pair.slot * 2 ^ 23 + s.pair.slot / 2 * 2 ^ 18 + l * 2 ^ 8)

/-- A lane starts training, and sends its identity (R441). -/
def State.startTraining (s : State) (l : Nat) : State :=
  let s := s.updLane l fun a => { LaneSt.reset with training := true, trainFrom := s.rackTime, spared := a.spared, testedAt := a.testedAt }
  ((s.wr PAIR_PEERn.OUTCOME 0 0 l).wr PAIR_PEERn.IDENTITY 0 0 l).emit (.identity l (s.identityWord l))

/-- A lane takes an outcome (R442): 1 MATCH and 2 REMAPPED carry, a spare only once it replaces a lane; the others are held down and mapped out (DEDUCED, notes/assumptions/67.md). -/
def State.setOutcome (s : State) (l outcome : Nat) (reach : Option Nat) : State :=
  let s := s.wr PAIR_PEERn.OUTCOME outcome 0 l
  let good := decide (outcome = 1) || decide (outcome = 2)
  let place := if isPairLane l then none else s.replaces l
  let spareOf := if isPairLane l then none else (List.range 2).find? fun k => decide (s.spareLane (laneWing l) k = l)
  if good then
    let s := s.updLane l fun a => { a with training := false, carrying := spareOf.isNone || place.isSome, asLane := reach }
    let s := match place, spareOf with
      | some i, some k => if s.spareBusy (laneWing l) k then s else s.spareUp (laneWing l) k i
      | _, _ => s
    s.repaired.sendForm
  else
    let s := ((s.mapOut l).raiseIrq .pair 0 1).sendForm
    let s := match outcome with
      | 3 => s.logErr (s.mkErr Err.CABLE_SWAPPED sevInfo (laneNode l))
      | 4 => s.logErr (s.mkErr Err.CABLE_WRONG_PEER sevInfo (laneNode l))
      | 5 => s.logErr (s.mkErr Err.CABLE_MISSING sevInfo (laneNode l))
      | _ => s
    if isPairLane l then s else if place.isSome then s.laneFail l else s.checkPlane (laneWing l) (laneLocal l / 2)

/-- After a wake the pair-link clock restarts once the link has retrained (R427). -/
def State.pairRetrained (s : State) : State :=
  if s.pair.wokeAt.isSome ∧ 8 ≤ s.pairLanes then s.updPair fun p => { p with wokeAt := none, hbFrom := s.rackTime + 1, linkDown := false } else s

/-- A wing that was reset is READY once its rack lanes have their outcomes: its bit of HAL_RESET.WING clears (R525, R527). -/
def State.wingReady (s : State) (w : Nat) : State :=
  if (s.wing w).retraining ∧ !((List.range 18).any fun i => (s.lane (18 * w + i)).training) then
    (s.wr HAL_RESET.WING (s.rd HAL_RESET.WING - 2 ^ w * (s.rd HAL_RESET.WING / 2 ^ w % 2))).updWing w fun g => { g with retraining := false }
  else s

/-- A lane's check ends in an outcome; the last of the pair link's makes the package READY (R511). -/
def State.laneOutcome (s : State) (l outcome : Nat) (reach : Option Nat) : State :=
  let s := s.setOutcome l outcome reach
  if isPairLane l then s.pairRetrained.becomeReady else s.wingReady (laneWing l)

/-- Whether a swap between two lanes may be remapped (R442). -/
def State.remappable (s : State) (l m : Nat) : Bool :=
  s.on PAIR_PLANn.REMAP_OK 0 l && s.on PAIR_PLANn.REMAP_OK 0 m &&
    ((isPairLane l && isPairLane m) ||
      (!isPairLane l && !isPairLane m && decide (laneWing l = laneWing m) && decide (laneLocal l < 16) && decide (laneLocal m < 16) &&
        decide (laneLocal l / 2 = laneLocal m / 2)))

/-- A lane has trained and received an identity (R442) (DEDUCED, notes/assumptions/67.md). -/
def execLaneTrained (l : Lane) (identity : Word) (s : State) : Res :=
  if !(s.lane l).training then .next s
  else
    let id := identity.toNat / 256
    let s := s.wr PAIR_PEERn.IDENTITY id 0 l
    match s.planId l with
    | none => .next (s.laneOutcome l 6 none)
    | some x =>
      if x = id then .next (s.laneOutcome l 1 none)
      else
        match (List.range 88).find? fun m => decide (m ≠ l.val) && decide (s.planId m = some id) with
        | some m => if s.remappable l m then .next (s.laneOutcome l 2 (some m)) else .next (s.laneOutcome l 3 none)
        | none => .next (s.laneOutcome l 4 none)

/-- No identity within 100 ms of training start (R442). -/
def execLaneIdentityTimeout (l : Lane) (s : State) : Res :=
  if (s.lane l).training ∧ (s.lane l).trainFrom + 100000000 ≤ s.rackTime then .next (s.laneOutcome l 5 none) else .next s

/-- Release a mapped-out lane (R443): it retrains and repeats the check; one that a spare replaces becomes that spare (DEDUCED, notes/assumptions/66.md). -/
def State.release (s : State) (l : Nat) : State :=
  if !s.mappedOut l then s
  else
    let s := s.setMapOut l false
    let s := match if isPairLane l then none else (s.lane l).spared with
      | some sp =>
        let w := laneWing l
        let k := if (s.wing w).spares.getD 0 16 = laneLocal sp then 0 else 1
        -- the replacing lane keeps the flows; the released lane takes the spare's role
        ((s.updWing w fun g => { g with spares := g.spares.set k (laneLocal l) }).setSpare w k none)
      | none => s
    s.startTraining l

/-! The package's own links (R415). -/

/-- The perturbation point of a WNG page that stands for a link of the wing (R545): a lintel along rows, one along columns, the hall link (DESIGN CHOICE,
notes/assumptions/100.md). -/
def linkPoint : LinkKind → Option Nat
  | .mesh _ _ => none
  | .lintel rows => some (if rows then 0 else 1)
  | .hallLink => some 2

/-- Packets leave the fabric; the place of a chimney packet comes back as credit (R394). -/
def FabricSt.drop (f : FabricSt) (gone : Transit → Bool) : FabricSt :=
  { f with transits := f.transits.filter fun t => !gone t,
           chimneyUsed := (f.transits.filter gone).foldl (fun u t => match t.area with | some d => SMap.upd 0 u d (· - 1) | none => u) f.chimneyUsed }

/-- No part of the packet with a header goes further (R415). -/
def State.withhold (s : State) (header : Bytes) : State := { s with fab := s.fab.drop fun t => decide (t.header = header.take 12) }

/-- A link of a wing fails (R415): the packet is withheld and the work handed over. A second time the link is a MESH_FAULT and the package stays out until
it is replaced (DESIGN CHOICE, notes/assumptions/20.md). A router's mesh links are one such link (`.mesh x y`), and so is a direction of a lintel (`.lintel d`):
its spare lane stands in from the first failure (R385). -/
def State.linkFault (s : State) (k : LinkKind) (w : Nat) (header : Bytes) (injected : Bool) : State :=
  let again := (s.wing w).linkFails.contains k
  let s := (s.withhold header).updWing w fun g => { g with linkFails := if again then g.linkFails else g.linkFails ++ [k] }
  let s := s.fatal (s.mkErr Err.MESH_UNCORRECTABLE sevPackage nodeNone (detail := padTo 12 (header.take 12)) (injected := injected))
  -- a lintel's spare lane covers its first failure
  let s := match k with
    | .lintel _ => if again then s.failBringUp Err.MESH_UNCORRECTABLE else s
    | _ => s.failBringUp Err.MESH_UNCORRECTABLE
  if again then
    let s := s.updKept fun q => { q with condemned := true, faulty := some (4, Err.MESH_FAULT) }
    s.logErr (s.mkErr Err.MESH_FAULT sevPackage nodeWainil (detail := padTo 12 (header.take 12)) (injected := injected))
  else s

/-- A word of the packet with a header passes a mesh link, lintel lane or hall link, and its code shows `e`, an injected error included (R415, R547): a corrected
word counts in FAB_MESH_CE (DEDUCED, notes/assumptions/135.md). -/
def execMeshUncorrectable (k : LinkKind) (w : Wing) (header : Bytes) (e : Ecc) (s : State) : Res :=
  let (e, injected, s) : Ecc × Bool × State := match linkPoint k with
    | some pt => s.eccWith (Block.wng.page w) pt (fieldAt header 8 8) e
    | none => (e, false, s)
  match e with
  | .clean => .next s
  | .uncorrectable => .next (s.linkFault k w header injected)
  | _ => .next (match k with | .mesh _ _ => s.bump FAB_MESH_CE.MESH 1 w | _ => s.bump FAB_MESH_CE.LINTEL 1 w)

end Sys2Proof.Machine
end

