-- ==== Sys2Proof/Machine/Pairs.lean ====
section
/-!
DEFINITION. Pairs and failover (R418 to R437, R533, R534): heartbeats, losing a partner, claims, TAKEOVER, STEP_ABORT, rejoining and leaving.
-/
namespace Sys2Proof.Machine

/-! Heartbeats (R421, R427). -/

/-- 200 µs in ns (R427). -/
def silenceNs : Nat := 200000

/-- Whether something was seen within 200 µs: `t` is its rack time plus one, or 0 for never. -/
def State.seenLately (s : State) (t : Nat) : Bool := decide (t ≠ 0) && decide (s.rackTime + 1 < t + silenceNs)

/-- Whether the pair link is not silent: it is not down, and has shown a heartbeat, or its clock began, within 200 µs (R427). -/
def State.linkHeard (s : State) : Bool := !s.pair.linkDown && s.seenLately (max s.pair.lastHb s.pair.hbFrom)

/-- Whether PAIR_ALIVE is not silent: it has toggled, or its clock began, within 200 µs (R427). -/
def State.aliveHeard (s : State) : Bool := s.seenLately (max s.pair.lastAlive s.pair.aliveFrom)

/-- Whether the package toggles PAIR_ALIVE and sends heartbeats (R421, R427). -/
def State.beats (s : State) : Bool :=
  match s.pair.member with
  | .paired => true
  | .alone => true
  | .rejoining => true
  | _ => false

/-- Whether an injected SILENCE stops the heartbeat and PAIR_ALIVE (R547). -/
def State.silenced (s : State) : Bool :=
  let g := Block.pair.page 0
  s.on PG_PTB_STS.ACTIVE g && decide (s.rd PG_PTB_INJ.KIND g = 5) && decide (0 < s.rd PG_PTB_STS.LEFT g)

/-- A heartbeat every 10 µs; none while the household rests or the link is down (R427). -/
def execHeartbeatSend (s : State) : Res :=
  .next (if s.beats ∧ !s.resting ∧ 8 ≤ s.pairLanes ∧ !s.silenced then s.emit .heartbeat else s)

/-- An ALONE member hears its partner again, which is REJOINING, since no other state of a lost member sends heartbeats (R421, R436): the clock of PAIR_ALIVE begins,
and the copy is sent (R437) (DEDUCED, notes/assumptions/81.md). -/
def State.beginCopying (s : State) : State :=
  if s.pair.member ≠ .alone ∨ s.pair.copying then s
  else (s.updPair fun p => { p with copying := true, aliveFrom := s.rackTime + 1 }).emit (.rejoinCopy (s.rejoinCopy [] true))

/-- A heartbeat arrives. With PAIR_ALIVE silent that is logged once (R427). -/
def execHeartbeatReceive (s : State) : Res :=
  if s.resting then .next s
  else
    let t := s.beginCopying.updPair fun p => { p with lastHb := s.rackTime + 1, linkDown := false }
    .next (if t.beats ∧ !t.aliveHeard then t.logErr (t.mkErr Err.PAIR_ALIVE_FAULT sevInfo nodeHall) else t)

/-- Whether the pair link has still to retrain after a wake, for which it has 110 ms (R427). -/
def State.retraining (s : State) : Bool :=
  match s.pair.wokeAt with
  | some t => decide (s.rackTime < t + 110000000)
  | none => false

/-- PAIR_ALIVE toggles every 10 µs (R421); each period of an injected SILENCE counts one injection. -/
def execPairAliveToggle (s : State) : Res :=
  if !s.beats then .next s
  else if s.silenced then
    let g := Block.pair.page 0
    .next ((s.wr PG_PTB_STS.LEFT (s.rd PG_PTB_STS.LEFT g - 1) g).bump PG_PTB_STS.INJECTED 1 g)
  else .next ((s.updPair fun p => { p with aliveOut := !p.aliveOut }).emit (.pin "PAIR_ALIVE_OUT" (!s.pair.aliveOut)))

/-- An edge on PAIR_ALIVE_IN: the partner lives, and the next silence is a new occurrence. -/
def execPairAliveEdge (s : State) : Res :=
  .next ((s.updPair fun p => { p with lastAlive := s.rackTime + 1 }).endScope Err.PAIR_ALIVE_FAULT 0)

/-! Taking over (R428 to R431). -/

/-- The 32 bytes of TAKEOVER (R430). -/
def takeoverBytes (reason pair attempt : Nat) (survivor lost : PkgId) (step : Nat) : Bytes :=
  let b := leBytes 1 0x10 ++ leBytes 1 reason ++ leBytes 1 pair ++ leBytes 1 attempt ++ leBytes 1 survivor.toNat ++ leBytes 1 lost.toNat ++
    [0, 0] ++ leBytes 8 step ++ List.replicate 16 0
  b.take 0x10 ++ leBytes 4 (crc32c b).toNat ++ b.drop 0x14

/-- Broadcast TAKEOVER as the survivor, to this package among the members (R430). -/
def State.sendTakeover (s : State) (reason : Nat) : State :=
  let b := takeoverBytes reason s.pairNum (s.step.attempt + 1) s.me s.partner s.step.id
  s.toMembers b

/-- The arbiter of a claim (R428): the leading member of the lowest-numbered pair other than the claimant's. -/
def State.arbiter (s : State) (pair : Nat) : Option PkgId :=
  (List.range s.pairs).findSome? fun p => if p = pair then none else s.leading p

/-- Go OUT with PAIR_SPLIT (R428). -/
def State.splitOut (s : State) : State :=
  let s := s.logErr (s.mkErr Err.PAIR_SPLIT sevPackage nodeHall)
  (s.stopAll.updPair fun p => { p with claimAt := none }).goOut

/-- The partner is declared lost (R428, R433): a claim to the arbiter; in a household of one pair position 0 takes over and position 1 goes OUT; a REJOINING
member's loss halts the household; an ALONE member's REJOINING partner copies no more. -/
def State.declareLost (s : State) : State :=
  match s.pair.member with
  | .paired =>
    if s.pair.claimAt.isSome then s
    else if s.pairs ≤ 1 then (if s.position = 0 then s.sendTakeover 1 else s.splitOut)
    else
      match s.arbiter s.pairNum with
      | some a => (s.updPair fun p => { p with claimAt := some s.rackTime }).emit (.claim a s.pairNum s.step.attempt)
      | none => s.haltHousehold
  | .rejoining => s.haltHousehold
  | .alone => s.updPair fun p => { p with copying := false }
  | _ => s

/-- The pair link is silent or down while PAIR_ALIVE toggles (R427). An ALONE member, which holds the pair's work already, logs it and stays ALONE whatever its position,
and its REJOINING partner copies no more (DEDUCED, notes/assumptions/103.md). -/
def State.linkLost (s : State) : State :=
  match s.pair.member with
  | .paired =>
    let s := (s.logErr (s.mkErr Err.PAIR_LINK_DOWN (if s.position = 1 then sevPackage else sevInfo) nodeHall)).updPair fun p => { p with linkDown := true }
    if s.position = 1 then s.handOver else s.sendTakeover 3
  | .rejoining => (s.logErr (s.mkErr Err.PAIR_LINK_DOWN sevPackage nodeHall)).handOver
  | .alone =>
    if s.pair.copying then (s.logErr (s.mkErr Err.PAIR_LINK_DOWN sevInfo nodeHall)).updPair fun p => { p with copying := false, linkDown := true } else s
  | _ => s

/-- No heartbeat for 200 µs (R427). -/
def execPairLinkSilent (s : State) : Res :=
  .next (if s.resting ∨ s.retraining ∨ s.linkHeard then s else if s.aliveHeard then s.linkLost else s.declareLost)

/-- PAIR_ALIVE silent for 200 µs (R427). During a rest it wakes the household and is judged after the wake, once the pair link has retrained (`Rest.lean`). -/
def State.aliveSilent (s : State) : State :=
  if s.aliveHeard ∨ s.retraining ∨ !(s.pair.member = .paired ∨ s.pair.member = .rejoining ∨ (s.pair.member = .alone ∧ s.pair.copying)) then s
  else if s.linkHeard then s.logErr (s.mkErr Err.PAIR_ALIVE_FAULT sevInfo nodeHall)
  else s.declareLost

/-- The pair link is left with fewer than 8 lanes: silent at once (R420, R427). -/
def execPairLinkDown (s : State) : Res :=
  if 8 ≤ s.pairLanes ∨ s.retraining then .next s
  else
    let s := s.updPair fun p => { p with linkDown := true }
    .next (if s.resting then s else if s.aliveHeard then s.linkLost else s.declareLost)

/-! Claims (R428). -/

/-- A CLAIM at the arbiter: the first for a pair in an attempt is granted, later ones denied. -/
def execClaim (from_ : PkgId) (pair attempt : Nat) (s : State) : Res :=
  if s.arbiter pair ≠ some s.me ∨ (s.pair.member ≠ .paired ∧ s.pair.member ≠ .alone) then .next s
  else
    let ok := !s.pair.grants.contains (pair, attempt)
    let s := if ok then s.updPair fun p => { p with grants := p.grants ++ [(pair, attempt)] } else s
    .next (s.emit (.claimAnswer from_ ok))

/-- The claim is granted: TAKEOVER goes out. -/
def execClaimGrant (s : State) : Res :=
  .next (if s.pair.claimAt.isNone then s else (s.updPair fun p => { p with claimAt := none }).sendTakeover 1)

/-- The claim is denied. -/
def execClaimDeny (s : State) : Res := .next (if s.pair.claimAt.isNone then s else s.splitOut)

/-- Neither grant nor denial within 100 µs. -/
def execClaimTimeout (s : State) : Res :=
  match s.pair.claimAt with
  | none => .next s
  | some t => .next (if t + 100000 ≤ s.rackTime then s.splitOut else s)

/-! Hand-over (R429). -/

/-- A fault inside the package hands its work over (R429, R434). -/
def execHandover (code : Code) (s : State) : Res :=
  .next (if s.beats then s.fatal (s.mkErr code sevPackage nodeNone) else s)

/-- The partner hands its work over: it is taken over at once; with this member out, or copying, both are out (R429, R433). -/
def execHandoverReceive (s : State) : Res :=
  match s.pair.member with
  | .paired => .next (s.sendTakeover 2)
  | .out => .next s.haltHousehold
  | .rejoining => .next s.haltHousehold
  | _ => .next s

/-! TAKEOVER (R430, R431). -/

/-- Whether a TAKEOVER keeps R430. -/
def takeoverOk (b : Bytes) : Bool :=
  decide (b.length = 32) && decide (fieldAt b 0 1 = 0x10) && decide (1 ≤ fieldAt b 1 1) && decide (fieldAt b 1 1 ≤ 3) &&
    decide (fieldAt b 4 1 < 128) && decide (fieldAt b 5 1 < 128) && decide (fieldAt b 6 2 = 0) && decide (leNat (b.drop 0x14) = 0) &&
    decide ((crc32c (b.take 0x10 ++ [0, 0, 0, 0] ++ b.drop 0x14)).toNat = fieldAt b 0x10 4)

/-- The clients of the lost package go to the survivor with their mirrored counters (R264; DESIGN CHOICE, notes/assumptions/31.md). -/
def State.moveClients (s : State) (lost survivor : PkgId) : State :=
  (s.clients.filter fun c => decide (c.1 / 4096 = lost.toNat)).foldl (fun s c =>
    let k := 4096 * survivor.toNat + c.1 % 4096
    let s := s.updClient k fun o => if o.owner = 0 ∧ o.rate = 0xFFFFF ∧ o.burst = 0x400 then { c.2 with acct := o.acct } else o
    s.updClient c.1 fun _ => Client.reset) s

/-- The mirrored counters of the lost home's clients are added at the survivor. -/
def State.takeAccounts (s : State) (m : Mirror) : State :=
  m.accounts.foldl (fun s a => (List.range 6).foldl (fun s i => s.account s.me a.1 i (a.2.getD i 0)) s) s

/-- The survivor's part (R298, R431, R435): the lost home's accepted records, its results not confirmed, its counters, and the moves it was writing (DEDUCED, notes/assumptions/82.md). -/
def State.inherit (s : State) : State :=
  let p := s.pair
  let m := p.mirrored
  let replays := ((m.map fun x => x.unconfirmed ++ x.held).getD []) ++ p.partnerDue
  let s := replays.foldl (fun s b => s.updRing b.part.val fun r => { r with due := r.due ++ [{ b with replay := true }] }) s
  let s : State := { s with deferred := s.deferred ++ ((m.map (·.deferred)).getD []) ++ p.partnerDeferred, accepted := p.partnerRecords ++ s.accepted }
  let s := match m with | some x => s.takeAccounts x | none => s
  let s := s.updPair fun p => { p with partnerRecords := [], partnerDue := [], partnerDeferred := [], mirrored := none, claimAt := none }
  (s.kv.moves.filter fun m => !m.rewritten).foldl (fun s v => s.writeUnits v.units v.frames) s

/-- A member applies a TAKEOVER (R431). -/
def State.applyTakeover (s : State) (survivor lost : PkgId) : State :=
  let s := s.updPair fun p => { p with lost := (p.lost.filter fun x => decide (x ≠ survivor) && decide (x ≠ lost)) ++ [lost] }
  let s : State := { s with table := s.table.map fun r => (r.1, if r.2.home = lost then { r.2 with home := survivor } else r.2) }
  let s := (s.moveClients lost survivor).takeLoads survivor lost
  if survivor = s.me then
    let s := s.logErr (s.mkErr Err.PAIR_LOST sevPackage nodeHall)
    ((((s.wr PAIR_MAINT.FORCE 0).bump PAIR_STS.TAKEOVERS).inherit).setMember .alone).fetchForLost
  else if lost = s.me ∧ s.pair.member = .paired then s.stopAll.goOut
  else s

/-- Whether some pair has no serving member (R433) (DEDUCED, notes/assumptions/84.md). -/
def State.pairGone (s : State) : Bool := s.pair.members.any fun p => s.pair.lost.contains p && s.pair.lost.contains (p ^^^ 2)

/-- A REJOINING member whose copy stands at a step follows its restart (R431, R534): ATTEMPT and EPOCH count it, and its contribution goes out again. -/
def State.rejoinRestart (s : State) : State :=
  if !s.pair.copyDone then s
  else
    let s := s.updPair fun p => { p with epoch := (p.epoch + 1) % 256 }
    if !s.step.active then s
    else (s.updStep fun p => { p with attempt := p.attempt + 1, leader := s.leader, contributed := false, contributions := [] }).contribute s.rackTime

/-- A member receives TAKEOVER (R430, R431, R433). All that are applied within one attempt lead to one restart, which ATTEMPT and EPOCH count once; one that comes when
the attempt has begun begins it again under the leader and the lists that it gives (DEDUCED, notes/assumptions/84.md). -/
def execTakeover (bytes : Bytes) (s : State) : Res :=
  if !takeoverOk bytes then .next (s.logErr (s.mkErr Err.TAKEOVER_BAD sevInfo nodeHall))
  else
    let key := (fieldAt bytes 2 1, fieldAt bytes 8 8, fieldAt bytes 3 1)
    if s.pair.member = .outside ∨ s.pair.member = .halted ∨ s.pair.takeovers.contains key then .next s
    else
      let fresh := decide (s.step.attempt < key.2.2) || decide (s.step.id ≠ key.2.1)
      let s := s.updPair fun p => { p with takeovers := p.takeovers ++ [key] }
      let s := s.applyTakeover (BitVec.ofNat 7 (fieldAt bytes 4 1)) (BitVec.ofNat 7 (fieldAt bytes 5 1))
      if s.pairGone then .next s.haltHere
      else if s.pair.member = .rejoining then .next (if fresh then s.rejoinRestart else s)
      else .next ((if fresh then s.restart else if s.step.active then s.restartAs false else s).repaired)

/-! STEP_ABORT (R533, R534). -/

/-- Whether a STEP_ABORT keeps R533. -/
def abortOk (b : Bytes) : Bool :=
  decide (b.length = 32) && decide (fieldAt b 0 1 = 0x11) && decide (fieldAt b 4 1 < 128) && decide (fieldAt b 5 3 = 0) &&
    decide (leNat (b.drop 0x14) = 0) && decide ((crc32c (b.take 0x10 ++ [0, 0, 0, 0] ++ b.drop 0x14)).toNat = fieldAt b 0x10 4)

/-- What a STEP_ABORT of another member raises here: the partner's MIRROR_MISMATCH, once in an attempt (R425), and an abort that R434 counts, unless this package knows that it was against a lost one. True: the work is this
member's to hand over. -/
def State.abortNote (s : State) (code : Code) (origin : PkgId) : Bool × State :=
  let fresh := decide (code = Err.MIRROR_MISMATCH) && decide (origin = s.partner) && decide (s.step.mirrorAt ≠ some (s.step.id, s.step.attempt))
  let t := if fresh then s.mirrorNote false else s
  let counts := (decide (code = Err.REMOTE_ERR) || decide (code = Err.FAB_TIMEOUT)) && (decide (origin ≠ s.me) ||
    s.step.faults.any fun f => decide (f.code = code) && decide (f.attempt = s.step.attempt) && !s.pair.lost.contains (srfPkg (BitVec.ofNat 64 f.addr)))
  (fresh && s.mirrorMine, if counts then t.updStep fun p => { p with remoteAborts := p.remoteAborts + 1 } else t)

/-- A member receives STEP_ABORT: it acknowledges, and for the attempt in progress it aborts and restarts (R533, R534), or halts with its household (R433). The packet header that DETAIL of
ABORT_BAD shows (R529) is no operand of the row: free values stand for it (DEDUCED, notes/assumptions/47.md) (DESIGN CHOICE, notes/assumptions/86.md). -/
def execStepAbort (bytes : Bytes) (s : State) : Res :=
  if !abortOk bytes then
    let (a, s) := s.draw
    let (b, s) := s.draw
    .next (s.logErr (s.mkErr Err.ABORT_BAD sevInfo nodeHall (detail := leBytes 8 a.toNat ++ leBytes 4 b.toNat)))
  else if s.pair.member = .outside then .next s
  else
    let origin : PkgId := BitVec.ofNat 7 (fieldAt bytes 4 1)
    let s := if origin = s.me then s else s.emit (.abortAck origin)
    let code : Code := BitVec.ofNat 16 (fieldAt bytes 2 2)
    if fieldAt bytes 8 8 ≠ s.step.id ∨ fieldAt bytes 1 1 ≠ s.step.attempt then .next s
    else if code = Err.HOUSEHOLD_HALT then .next (if s.pair.members.contains origin then s.haltHere else s)
    else if !s.step.active then .next s
    else if s.pair.member = .rejoining then .next s.rejoinRestart
    else if s.pair.member ≠ .paired ∧ s.pair.member ≠ .alone then .next s
    else
      let r := s.abortNote code origin
      .next (if r.1 then r.2.handOver else r.2.restart)

/-- A member has not acknowledged the STEP_ABORT last sent within 20 µs (R533). Acknowledgements have no row of their own: the row names a member whose has not come
(DEDUCED, notes/assumptions/47.md). -/
def execStepAbortResend (dest : PkgId) (s : State) : Res :=
  .next (if s.pair.lastAbort ≠ [] ∧ s.others.contains dest ∧ s.pair.abortAt + 20000 ≤ s.rackTime then s.emit (.chimney dest s.pair.lastAbort) else s)

/-! Rejoining and leaving (R436, R437). -/

/-- PAIR_MAINT.REJOIN: the bit reads 1 while the rejoin runs (R10, R436). -/
def State.rejoinCmd (s : State) : State :=
  if s.pair.member ≠ .out ∨ !s.partnerAlone ∨ s.mustRepair then s.conflict PAIR_MAINT.REJOIN.base Err.REJOIN_STATE
  else if s.hhAbi ≠ s.pair.hhAbi then s.conflict PAIR_MAINT.REJOIN.base Err.FW_ABI
  else s.beginRejoin.wr PAIR_MAINT.REJOIN 1

def execRejoin (q : Requester) (s : State) : Res := s.action q .pair 0 0x108 State.rejoinCmd

/-- Whether every shard that comes with a rejoin copy has its root (R318, R437) (DEDUCED, notes/assumptions/81.md). -/
def State.copyGood (s : State) (k : RejoinCopy) : Bool :=
  let t : State := { s with slots := k.slots.foldl (fun m e => SMap.set Slot.evicted m e.1 e.2) [] }
  k.shards.all fun x => t.arrivalGood x.1 x.2.1 x.2.2

/-- Take the copy: every copied byte is written, the bad-line list is clear, the rows of its lines marked (R368), and the state is the partner's (R437, items 1 to 4) (DEDUCED, notes/assumptions/81.md). -/
def State.takeCopy (s : State) (k : RejoinCopy) : State :=
  let s := s.cel.badLines.foldl (fun s l => s.markRow l) s.unseat
  let s : State := { s with
    cellar := k.cells.foldl (fun m c => Memory.setByte m c.1 c.2) s.cellar, cel := { s.cel with badLines := [] },
    table := k.table.foldl (fun m e => SMap.set SeqEntry.blank m e.1 e.2) [], kv := { k.kv with slots := [] },
    clients := k.clients.foldl (fun m e => SMap.set Client.reset m e.1 e.2) [] }
  let s := s.putSlots (k.slots.foldl (fun m e => SMap.set Slot.evicted m e.1 e.2) [])
  let s := match k.mirror with | some m => s.storeMirror m | none => s
  let s := s.updPair fun p =>
    { p with epoch := k.epoch, lastMirrorFault := if k.mirrorFault then some (p.lastMirrorFault.getD s.rackTime) else none }
  let s := k.shards.foldl (fun s x =>
    match s.shardPlace x.1 x.2.1 with
    | some (_, a) => s.celWrite a (s.relocShard x.1 x.2.1 (s.slotBase x.1) x.2.2)
    | none => s) s
  s.updStep fun p =>
    { p with active := k.active, id := k.step, attempt := k.attempt, lastBoundary := k.boundary, prevBoundary := k.boundary, digest := k.digest, items := k.items,
             tokens := (k.items.map Item.tokens).sum, modelSlot := k.modelSlot, started := false, descs := [], built := false, takeWaits := [], tokensOut := [], toError := [], arith := {}, expert := {},
             faults := [], seating := [], partDone := none }

/-- The copy of R437 is complete, no slot being LOADING still: with its state's digest equal to the partner's the rejoiner's contribution goes out, and the next boundary takes it back. A shard that
fails its check is asked for again. -/
def execRejoinCopyComplete (copy : RejoinCopy) (s : State) : Res :=
  if s.pair.member ≠ .rejoining ∨ s.pair.copyDone then .next s
  else if !s.copyGood copy then .next (s.emit .rejoinStart)
  else if copy.digest ≠ copy.peerDigest ∨ copy.loading then .next s
  else
    let s := ((s.takeCopy copy).phaseCause 6).updPair fun p => { p with copyDone := true }
    .next (s.contribute s.rackTime)

/-- The package leaves its household (R433, R436): member mask, table, KV and slots go, and owner keys that wait take effect (R503). What is
staged of the household configuration stays (DESIGN CHOICE, notes/assumptions/142.md). -/
def State.leaveHousehold (s : State) : State :=
  let s : State := { s with
    table := [], kv := KvSt.empty, seated := none, accepted := [], deferred := [], promptReady := [], moved := [], movedFailed := [],
    resumed := [], resumeFailed := [], step := StepSt.reset }
  let s := s.putSlots []
  let s := s.updPair fun p =>
    { p with members := [], lost := [], pairNums := [], takeovers := [], grants := [], mirrored := none, partnerRecords := [], partnerDue := [],
             partnerDeferred := [], claimAt := none }
  (((((s.wr SEQ_HH_CTL.FORMED 0).wr SEQ_HH_CTL.PAIRS 0).wr SEQ_CFG_COMMIT.GO 0).wr PAIR_MAINT.FORCE 0).setMember .outside).applyKeys

/-- PAIR_MAINT.LEAVE. -/
def State.leaveCmd (s : State) : State :=
  match s.pair.member with
  | .out => s.leaveHousehold
  | .halted => s.leaveHousehold
  | .outside => s
  | _ => s.conflict PAIR_MAINT.LEAVE.base Err.PAIR_LIVE

def execLeave (q : Requester) (s : State) : Res := s.action q .pair 0 0x108 State.leaveCmd

/-- PAIR_MAINT.RELEASE with a lane; a LANE above 87 is a reserved encoding, and the lane already named is released (R6, R443). -/
def State.releaseCmd (s : State) (lane : Nat) : State :=
  let s := if lane ≤ 87 then s.wr PAIR_MAINT.LANE lane else s
  s.release (s.rd PAIR_MAINT.LANE)

def execReleaseLane (q : Requester) (lane : BitVec 7) (s : State) : Res := s.action q .pair 0 0x108 fun s => s.releaseCmd lane.toNat

/-- PAIR_MAINT.FORCE (R428): position 1 of a household of one pair takes over. The bit reads 1 until the takeover is made, and starts nothing more meanwhile (R10, R11). -/
def State.forceCmd (s : State) : State :=
  if s.pairs = 1 ∧ s.position = 1 ∧ s.pair.member = .out ∧ !s.on PAIR_MAINT.FORCE then
    ((s.wr PAIR_MAINT.FORCE 1).updStep fun p => { p with active := decide (p.items ≠ []) }).sendTakeover 1
  else s

def execForce (q : Requester) (s : State) : Res := s.action q .pair 0 0x108 State.forceCmd

end Sys2Proof.Machine
end

