-- ==== Sys2Proof/Machine/RackTime.lean ====
section
/-!
DEFINITION. Rack time (R438 to R440, R543, R570): loads, corrections at FRAME_SYNC edges, and the loss of either reference.
-/
namespace Sys2Proof.Machine

/-- PAIR_RTIME_CTL.ARM (R439). -/
def State.armCmd (s : State) : State :=
  if s.pair.member = .outside then s.wr PAIR_RTIME_CTL.ARM 1 else s.conflict PAIR_RTIME_CTL.WORD.base Err.RTIME_LIVE

def execArm (q : Requester) (s : State) : Res := s.action q .pair 0 0x118 State.armCmd

/-- A stored time moved with rack time. -/
def rebased (old new t : Nat) : Nat := t + new - old

/-- Load T (R439): the heartbeat period of R458 restarts. The other periods in progress keep what they have run (DESIGN CHOICE, notes/assumptions/35.md). -/
def State.loadRackTime (s : State) (t : Nat) : State :=
  let f := rebased s.rackTime t
  let g (x : Nat) : Nat := if x = 0 then 0 else max 1 (f x)
  let s := s.updMgmt fun m => { m with updLast := f m.updLast, recoveryFrom := m.recoveryFrom.map f, bootAt := m.bootAt + (t : Int) - (s.rackTime : Int) }
  let s : State := { s with
    rackTime := t, heldBack := 0, rtimeSeen := true,
    cores := s.cores.map fun e => (e.1, { e.2 with sweptAt := if e.2.sweptAt = 0 then 0 else f e.2.sweptAt }),
    lanes := s.lanes.map fun e => (e.1, { e.2 with testedAt := f e.2.testedAt, trainFrom := f e.2.trainFrom }),
    cel := { s.cel with corrected := s.cel.corrected.map fun e => (e.1, f e.2), laneHits := s.cel.laneHits.map fun e => (e.1, e.2.1, f e.2.2),
                        scrubFrom := f s.cel.scrubFrom },
    kind := { s.kind with assignedAt := f s.kind.assignedAt, settling := s.kind.settling.map fun e => (e.1, f e.2) } }
  let s := s.updPower fun p => { p with lastKick := t, since := f p.since, idleSince := f p.idleSince, overFrom := p.overFrom.map f, coolFrom := p.coolFrom.map f }
  (s.updPair fun p => { p with goAt := p.goAt.map f, lastHb := g p.lastHb, lastAlive := g p.lastAlive, hbFrom := g p.hbFrom, aliveFrom := g p.aliveFrom }).wr PAIR_RTIME_CTL.ARM 0

/-- Move rack time to the nearest multiple of 1 ms when it is more than 20 ns off (R440). The first correction after a power-up is neither counted nor logged. -/
def State.correctRackTime (s : State) : State :=
  let t := s.rackTime - s.heldBack
  let m := (t + 500000) / 1000000 * 1000000
  if t ≤ m + 20 ∧ m ≤ t + 20 then s
  else
    let counted := s.rtimeSeen
    let s : State := { s with rackTime := max m s.rackTime, heldBack := s.rackTime - m, rtimeSeen := true }
    if !counted then s
    else ((s.bump PAIR_RTIME_CTL.SLIPS).logErr (s.mkErr Err.FRAME_SLIP sevInfo nodeHall)).raiseIrq .pair 0 2

/-- A FRAME_SYNC rising edge (R439, R440, R521, R543). -/
def execFrameSyncEdge (s : State) : Res :=
  let s : State := { s with pins := { s.pins with syncOk := true, missedSync := 0 } }
  let s := s.ptbPages.foldl (fun s g => if s.rd PG_PTB_CTL.TRIGGER g = 2 then s.ptbStop g else s) s
  let s := if s.on PAIR_RTIME_CTL.ARM ∧ s.pair.member = .outside then s.loadRackTime (s.rd64 PAIR_RTIME_SET_LO.TIME) else s.correctRackTime
  .next (if s.pair.formReady ∧ s.pair.member = .outside then s.formHousehold else s)

/-- Three FRAME_SYNC edges missed in a row (R440). -/
def execFrameSyncLost (s : State) : Res :=
  let s : State := { s with pins := { s.pins with syncOk := false, missedSync := 3 } }
  .next ((s.logErr (s.mkErr Err.FRAME_SYNC_LOST sevInfo nodeHall)).raiseIrq .pair 0 2)

/-- No REFCLK_RACK edge for 1 µs (R440, R570): the hall counts from its own oscillator. -/
def execRefclkLost (s : State) : Res :=
  let s : State := { s with pins := { s.pins with refclkOk := false } }
  .next ((s.logErr (s.mkErr Err.REFCLK_LOST sevInfo nodeHall)).raiseIrq .pair 0 2)

/-- REFCLK_RACK is back (R440). -/
def execRefclkRestored (s : State) : Res := .next { s with pins := { s.pins with refclkOk := true } }

/-- A debug-trigger edge starts the perturbations armed for it (R543, R548). -/
def execDbgTrigEdge (s : State) : Res :=
  .next (s.ptbPages.foldl (fun s g => if s.rd PG_PTB_CTL.TRIGGER g = 2 ∧ !s.on PG_PTB_STS.ACTIVE g then s.ptbStart g else s) s)

end Sys2Proof.Machine
end

