-- ==== Sys2Proof/Machine/Power.lean ====
section
/-!
DEFINITION. Power (R447 to R468, R476, R477): operating points, the damper, caps, brakes, pace-locked mode, droop and input limits, and temperature.
-/
namespace Sys2Proof.Machine

/-! Operating points and boost levels (R447, R449). -/

/-- Core rail of each point, mV. -/
def opMv : List Nat := [550, 570, 590, 610, 630, 645, 660, 675, 690, 705, 720, 750, 780, 810, 845, 880]

/-- Pace limit of each point, MHz. -/
def opPace : List Nat := [810, 900, 990, 1080, 1170, 1242, 1314, 1386, 1467, 1548, 1620, 1719, 1800, 1872, 1935, 1980]

/-- Dynamic power factor f of each point, in ten-thousandths. -/
def opF : List Nat :=
  [2918, 3482, 4104, 4785, 5529, 6153, 6816, 7520, 8317, 9162, 10000, 11514, 13040, 14625, 16452, 18257]

/-- Boost rail of each level, mV, and its rate, MHz. -/
def kpMv : List Nat := [800, 850, 900, 950]
def kpRate : List Nat := [2100, 2300, 2450, 2600]

/-- The held point of a pace: the lowest whose pace limit reaches it (R462) (DEDUCED, notes/assumptions/87.md). -/
def heldOp (rate : Nat) : Nat := opPace.findIdx fun p => decide (rate ≤ p)

/-- The held boost level: the lowest whose rate × 0.9 reaches the pace (R462) (DEDUCED, notes/assumptions/87.md). -/
def heldKp (rate : Nat) : Nat := kpRate.findIdx fun p => decide (10 * rate ≤ 9 * p)

/-! The target point (R450, R451, R462, R463). -/

/-- Whether a phase class is active: its cause occurred within 2 µs, or a larder is busy. -/
def State.phaseActive (s : State) (n : Nat) : Bool :=
  let t := SMap.get 0 s.power.phases n
  (decide (t ≠ 0) && decide (s.rackTime + 1 ≤ t + 2000)) || (decide (n = 2) && (List.range 4).any fun w => decide ((s.wing w).larder ≠ []) || decide ((s.wing w).larQueue ≠ []))

/-- H: the largest hint of the active classes that are enabled, or the default point. -/
def State.hint (s : State) : Nat :=
  match (List.range 7).filter fun n => s.on PWR_PHASEn.ENABLE 0 n && s.phaseActive n with
  | [] => s.rd PWR_OP_CTL.DEFAULT_OP
  | l => l.foldl (fun m n => max m (s.rd PWR_PHASEn.OP 0 n)) 0

/-- The target of the core rails: the hint, or the held point of pace-locked mode, under both ceilings. -/
def State.targetOp (s : State) : Nat :=
  let h := if s.on PWR_PACE.ENABLE then s.rd PWR_PACE.HELD_OP else s.hint
  min h (min (s.rd PWR_OP_STS.C_CAP) (s.rd PWR_OP_STS.C_THM))

/-- The level of the boost rails (R449, R459, R462, R467): KP0 under a brake or at THROTTLE and above. -/
def State.boostLevel (s : State) : Nat :=
  if s.power.brakes ≠ [] ∨ 0 < s.rd THM_STS.LEVEL then 0 else if s.on PWR_PACE.ENABLE then s.rd PWR_PACE.HELD_KP else s.rd PWR_BOOST.LEVEL

/-- PACE.BROKEN (R463): set when a ceiling or a brake takes the target below the held point or level, and cleared once nothing does and the core rails have the held
point's voltage again. -/
def State.checkPace (s : State) : State :=
  let low := s.on PWR_PACE.ENABLE && (decide (s.targetOp < s.rd PWR_PACE.HELD_OP) || decide (s.boostLevel < s.rd PWR_PACE.HELD_KP))
  if low && !s.on PWR_PACE.BROKEN then
    ((s.wr PWR_PACE.BROKEN 1).pwrEvt PWR_EVT.PACE_BROKEN).logErr (s.mkErr Err.PACE_BROKEN sevInfo)
  else if !s.on PWR_PACE.ENABLE || (!low && decide (10 * opMv.getD (s.rd PWR_PACE.HELD_OP) 0 ≤ s.power.rail)) then s.wr PWR_PACE.BROKEN 0
  else s

/-- A phase class with no cause for 2 µs is inactive again (R450). -/
def execPhaseClassExpire (s : State) : Res :=
  .next ((s.updPower fun p => { p with phases := p.phases.filter fun e => decide (s.rackTime + 1 ≤ e.2 + 2000) }).checkPace)

/-- The core-rail reading, mV (R469, R476): the present voltage, retention voltage in Ember, and none deeper. -/
def State.railMv (s : State) : Nat :=
  match s.power.fire with
  | .banked => 0
  | .smoored => 0
  | .ember => Config.retentionMv
  | _ => s.power.rail / 10

/-- Whether the regulators hold the core rails at a point: from stage 2 on, in Glow and Burning (R469, R511). -/
def State.railsHeld (s : State) : Bool := !s.resting && decide (2 ≤ s.rd HAL_BOOT_STS.STAGE) && decide (s.rd HAL_BOOT_STS.STAGE ≤ 6)

/-- Ten nanoseconds of a rail move (R448): 0.1 mV at most, from the present voltage toward the target point's. -/
def State.moveRail (s : State) : State :=
  let goal := 10 * opMv.getD s.targetOp 0
  if !s.railsHeld ∨ s.power.rail = goal then s
  else s.updPower fun p => { p with rail := if p.rail < goal then p.rail + 1 else p.rail - 1 }

/-- The core rails have reached the target point (R448): POINT shows it, and a broken pace may be whole again. Before, nothing. -/
def execRailMoveComplete (s : State) : Res :=
  .next (if !s.railsHeld ∨ s.power.rail ≠ 10 * opMv.getD s.targetOp 0 then s else (s.wr PWR_OP_STS.POINT s.targetOp).checkPace)

/-! Caps and brakes (R452 to R460). -/

/-- The cap applied: the safe cap while it is in force (R458). -/
def State.capNow (s : State) : Nat := if s.on PWR_CAP_STS.SAFE then s.rd PWR_CAP_CTL.SAFE_CAP_W else s.rd PWR_CAP.CAP_W

/-- The target of a brake action (R457, R459, R460, R465, R467). -/
def State.brakeTarget (s : State) (b : BrakeSrc) : Nat :=
  match b with
  | .brakeN => s.capNow * 25 / 100
  | .warnN => s.capNow * s.rd PWR_BRAKE.PRESET_PCT / 100
  | .inputUv => s.capNow * s.rd PWR_BRAKE.PRESET_PCT / 100
  | .bridge => s.capNow
  | .hard => s.capNow * 50 / 100

/-- Whether P_allow may exceed the cap (R455): EXC_EN is 1 and no brake holds; the draw has not been over the cap for longer than leaves it time to be back within
1 ms; and the draws of the last 10 ms leave room for it (DESIGN CHOICE, notes/assumptions/32.md). -/
def State.mayExceed (s : State) : Bool :=
  s.on PWR_CAP_CTL.EXC_EN && decide (s.power.brakes = []) && s.power.overFrom.all (fun t => decide (s.rackTime < t + 970000)) &&
    decide ((s.power.draws.take 998).foldl (· + ·) 0 + 2 * (s.capNow * 8 / 7) ≤ 1000 * s.capNow)

/-- The ceiling of P_allow: the lowest target of the brakes in force, or the cap, or, in an excursion, the cap × 8 ÷ 7 (R455). -/
def State.allowCeiling (s : State) : Nat :=
  s.power.brakes.foldl (fun m b => min m (s.brakeTarget b)) (if s.mayExceed then s.capNow * 8 / 7 else s.capNow)

/-- A brake action of a source begins (R459): P_allow goes to the target at once. Each bridge is an action of its own, with the new cap as its target (R457). -/
def State.addBrake (s : State) (b : BrakeSrc) : State :=
  if s.power.brakes.contains b ∧ b ≠ .bridge then s
  else
    let s := if s.power.brakes.contains b then s else s.updPower fun p => { p with brakes := p.brakes ++ [b] }
    let s := (s.bump PWR_BRAKE.COUNT).wr PWR_CAP_STS.BRAKED 1
    (s.updPower fun p => { p with pAllow := min p.pAllow s.allowCeiling }).checkPace

/-- A source releases its own hold (R460). -/
def State.dropBrake (s : State) (b : BrakeSrc) : State :=
  let s := s.updPower fun p => { p with brakes := p.brakes.filter fun x => decide (x ≠ b) }
  (s.wr PWR_CAP_STS.BRAKED (if s.power.brakes = [] then 0 else 1)).checkPace

/-- BRAKE_N falls (R459). -/
def execBrakeAssert (s : State) : Res :=
  .next (((s.updPower fun p => { p with brakeN := true }).addBrake .brakeN).pwrEvt PWR_EVT.BRAKE)

/-- BRAKE_N rises (R459). -/
def execBrakeRelease (s : State) : Res := .next ((s.updPower fun p => { p with brakeN := false }).dropBrake .brakeN)

/-- PWR_WARN_N is asserted (R460): logged once for each assertion. -/
def execPwrWarnAssert (s : State) : Res :=
  let s := ((s.updPower fun p => { p with warnN := true }).addBrake .warnN).pwrEvt PWR_EVT.WARN
  .next (s.logErr (s.mkErr Err.PWR_WARN sevInfo))

/-- PWR_WARN_N is deasserted (R460). -/
def execPwrWarnRelease (s : State) : Res :=
  .next (((s.updPower fun p => { p with warnN := false }).dropBrake .warnN).endScope Err.PWR_WARN 0)

/-- The cap applied has changed from `old` (R456, R457): a lower one shows its lag, and is bridged with the brake beyond the limit (DEDUCED, notes/assumptions/87.md). -/
def State.recap (s : State) (old : Nat) : State :=
  let cap := s.capNow
  if old ≤ cap then s
  else
    let lag := (s.power.draw - cap) * 10 / 300
    let s := (s.wr PWR_CAP_STS.LAG (min lag 0xFFFF)).wr PWR_CAP_STS.LAGGING (if cap < s.power.draw then 1 else 0)
    let limit := s.rd PWR_CAP_CTL.LAG_LIMIT_US
    if 300 * limit < s.power.draw - cap ∨ limit = 0 then (s.addBrake .bridge).pwrEvt PWR_EVT.CAP_LAG else s

/-- A write of PWR_CAP (R456, R458). A cap outside 400 to 2,800 W is a reserved encoding (R6). -/
def State.capWrite (s : State) (w : Nat) : State :=
  if w < 400 ∨ 2800 < w then s else ((s.wr PWR_CAP.CAP_W w).wr PWR_CAP_STS.SAFE 0).recap s.capNow

def execPwrCapWrite (q : Requester) (v : Word) (s : State) : Res := s.action q .pwr 0 0x10C fun s => s.capWrite (bitsN v.toNat 11 0)

/-- PWR_HB.KICK (R458). -/
def State.kickCmd (s : State) : State := s.updPower fun p => { p with lastKick := s.rackTime, hbLost := false }

def execKick (q : Requester) (s : State) : Res := s.action q .pwr 0 0x124 State.kickCmd

/-- Five seconds of rack time without a kick (R458). -/
def execHbLost (s : State) : Res :=
  if !s.on PWR_CAP_CTL.HB_EN ∨ s.power.hbLost ∨ s.rackTime < s.power.lastKick + 5000000000 then .next s
  else
    let old := s.capNow
    let s := (s.updPower fun p => { p with hbLost := true }).wr PWR_CAP_STS.SAFE 1
    let s := (s.pwrEvt PWR_EVT.HB_LOST).logErr (s.mkErr Err.HB_LOST sevInfo)
    .next (s.recap old)

/-! The damper (R452 to R454). -/

/-- The energy of a token at the present point, pJ: the controller's estimate, which each correction changes (R452, R453). -/
def State.tokenEnergy (s : State) : Nat := max 1 (Config.energy (1 + 16 * s.power.corrections + s.rd PWR_OP_STS.POINT))

/-- Every 100 ns P_allow moves toward its ceiling at the slopes of R452, and each wing is granted its tokens (R453). -/
def execDamperTokenGrant (s : State) : Res :=
  let c := s.allowCeiling
  let s := s.updPower fun p => { p with pAllow := if p.pAllow ≤ c then min c (p.pAllow + 15) else max c (p.pAllow - 30) }
  let n := (s.power.pAllow - Config.energy 0) * 100000 / (4 * s.tokenEnergy)
  .next (s.updPower fun p => { p with budget := (List.range 4).foldl (fun m w => SMap.set 0 m w n) [] })

/-- Every 10 µs the estimate is corrected against the measured draw (R453), whose excess over the cap is followed (R455); the energy meter, the input's voltage and
current (R476) and the lag of a lowered cap follow, and a bridge ends once the draw is within the cap (R457). -/
def execDamperCorrection (draw core mv : Nat) (s : State) : Res :=
  let e := s.power.energyRest + 10 * draw
  let s := s.updPower fun p =>
    { p with draw := draw, coreDraw := core, sumDraw := p.sumDraw + draw, sumCore := p.sumCore + core, samples := p.samples + 1,
             energyRest := e % 1000, corrections := p.corrections + 1, draws := (draw :: p.draws).take 1000,
             overFrom := if draw ≤ s.capNow then none else some (p.overFrom.getD s.rackTime) }
  let s := (s.bump64 PWR_ENERGY_LO.MJ (e / 1000)).wr PWR_DRAW.NOW (min draw 0xFFFF)
  let s := (s.wr PWR_INPUT.MV (min (mv / 2) 0xFFFF)).wr PWR_INPUT.MA (min (draw * 1000000 / mv) 0xFFFF)
  if s.capNow < draw then .next s
  else .next ((s.wr PWR_CAP_STS.LAGGING 0).dropBrake .bridge)

/-- The ceiling of the millisecond decision (R454): the highest point whose predicted draw fits the cap, from the sums of the millisecond's samples. -/
def capCeiling (cap samples draw core asked granted point : Nat) : Nat :=
  let a := if asked = 0 then 1 else asked
  let g := if asked = 0 then 1 else granted
  let fp := opF.getD point 1
  let fits (m : Nat) : Bool := decide ((draw - core) * g * fp + core * a * opF.getD m 0 ≤ cap * samples * g * fp)
  (((List.range 16).reverse.find? fits)).getD 0

/-- Every millisecond C_cap is set (R454). -/
def execCapCeilingUpdate (s : State) : Res :=
  let p := s.power
  let s := s.wr PWR_OP_STS.C_CAP (capCeiling s.capNow p.samples p.sumDraw p.sumCore p.asked p.granted (s.rd PWR_OP_STS.POINT))
  let s := if p.samples = 0 then s else s.wr PWR_DRAW.AVG_1MS (min (p.sumDraw / p.samples) 0xFFFF)
  .next ((s.updPower fun p => { p with sumDraw := 0, sumCore := 0, samples := 0, asked := 0, granted := 0 }).checkPace)

/-! Pace-locked mode (R461, R462). -/

/-- A write of PWR_PACE: reserved values leave their field, and a rate that no point reaches is refused with ENABLE at 1. -/
def State.paceWrite (s : State) (v : Nat) : State :=
  let en := bitsN v 31 31
  let rate := if 500 ≤ bitsN v 11 0 ∧ bitsN v 11 0 ≤ 2000 then bitsN v 11 0 else s.rd PWR_PACE.RATE_MHZ
  let tail := if 500 ≤ bitsN v 23 12 ∧ bitsN v 23 12 ≤ 2300 then bitsN v 23 12 else s.rd PWR_PACE.TAIL_MHZ
  if en = 1 ∧ 1980 < rate then s.conflict PWR_PACE.WORD.base Err.PACE_RANGE
  else
    let s := ((s.wr PWR_PACE.ENABLE en).wr PWR_PACE.RATE_MHZ rate).wr PWR_PACE.TAIL_MHZ tail
    let s := (s.wr PWR_PACE.HELD_OP (if en = 1 then heldOp rate else 0)).wr PWR_PACE.HELD_KP (if en = 1 then heldKp tail else 0)
    s.checkPace

def execPwrPaceWrite (q : Requester) (v : Word) (s : State) : Res := s.action q .pwr 0 0x128 fun s => s.paceWrite v.toNat

/-! Fire states: entry (R469, R470, R474). -/

/-- The lanes go to electrical idle (R469). -/
def State.idleLanes (s : State) : State :=
  { s with lanes := s.lanes.mapVals LaneSt.reset fun _ a => { a with idle := a.idle || a.carrying, carrying := false, training := false } }

/-- Enter a power state. The PCIe link is in L1 in Banked and Smoored (R474, R475), and stays in L0 in Ember, where it may enter L1 (DESIGN CHOICE,
notes/assumptions/148.md). -/
def State.enterFire (s : State) (f : Fire) : State :=
  if s.power.fire = f then s
  else
    let s := if f = .ember ∨ f = .banked ∨ f = .smoored then { s with porches := s.porches.mapVals Porch.reset fun _ q => { q with tornFrom := none } }.idleLanes else s
    let s : State := { s with pcie := { s.pcie with l1 := decide (f = .banked) || decide (f = .smoored) } }
    (s.updPower fun p => { p with fire := f, since := s.rackTime }).pwrEvt PWR_EVT.STATE

/-- Write the wear ledger to flash (R96). -/
def State.saveLedger (s : State) : State := s.updKept fun k => { k with wearSaved := k.wear }

/-- Everything at its reset value but the flash and fuses, the queue, the record of outputs, rack time, the pins, the straps, the rows marked for repair,
which bring-up spares (R368) (DEDUCED, notes/assumptions/124.md), the failed cores, which it maps out (R92, R512), what MGT counts since power-up (R508), and
the registers of the pages named (R515, R523) (DEDUCED, notes/assumptions/36.md). -/
def State.blank (s : State) (pages : List Nat) : State :=
  let t : State := { State.reset with
    pending := s.pending, out := s.out, freeCtr := s.freeCtr, rackTime := s.rackTime, heldBack := s.heldBack, rtimeSeen := s.rtimeSeen,
    kept := s.kept, pins := s.pins, pcie := s.pcie, cel := { State.reset.cel with markedRows := s.cel.markedRows, scrubFrom := s.rackTime }, regs := s.regs.filter fun r => pages.contains (r.1 / 0x1000),
    pair := { PairSt.reset with rack := s.pair.rack, slot := s.pair.slot, failedCores := s.pair.failedCores },
    mgmt := { MgmtSt.reset with draws := s.mgmt.draws }, fab := { seen := s.out.length } }
  (t.wr MGT_STS.RECOVERY_TRIES (s.rd MGT_STS.RECOVERY_TRIES)).wr MGT_LOG_STS.LOST (s.rd MGT_LOG_STS.LOST)

/-- The membership that a reset keeps for the join that follows it (R515, R523). -/
def State.keepMask (s t : State) : State :=
  if s.pair.member = .out then
    t.updPair fun p => { p with member := .out, members := s.pair.members, lost := s.pair.lost, pairNums := s.pair.pairNums, hhAbi := s.pair.hhAbi }
  else t

/-- The pages that Wainil holds through Smoored (R515). -/
def wainilPages : List Nat := [Block.pwr.page 0, Block.thm.page 0, Block.mgt.page 0, Block.sec.page 0, Block.pair.page 0]

/-- Enter Smoored (R470, R474): work stops, the ledger is saved, a HALTED package becomes OUTSIDE, and all but Wainil's state is lost. -/
def State.enterSmoored (s : State) : State :=
  let s := (s.stopAll.leaveStep).saveLedger
  let s := if s.pair.member = .halted then s.leaveHousehold else s
  let t := s.keepMask (s.blank wainilPages)
  let t : State := { t with mgmt := s.mgmt, power := { s.power with phases := [], budget := [], asked := 0, granted := 0 } }
  (t.wr HAL_BOOT_STS.STAGE 1).enterFire .smoored

/-! Droop and input (R464, R465). -/

/-- A monitored rail below 0.50 V for 2 µs, unless it stands at retention voltage (R464): issue stops on that rail, the work is handed over, and bring-up, where it
is still under way, stops (R512) (DEDUCED, notes/assumptions/104.md). -/
def execRailUndervolt (r : Rail) (mv : Nat) (s : State) : Res :=
  if 500 ≤ mv ∨ (s.resting ∧ r ≠ .hall) then .next s
  else
    let s := s.updPower fun p =>
      { p with railCut := if p.railCut.contains r then p.railCut else p.railCut ++ [r], rail := if r = .core then 10 * mv else p.rail }
    let s := s.pwrEvt PWR_EVT.RAIL_UV
    .next ((s.fatal (s.mkErr Err.RAIL_UNDERVOLT sevPackage)).failBringUp Err.RAIL_UNDERVOLT)

/-- Input below 56 V for 10 µs (R465). -/
def execInputUv (mv : Nat) (s : State) : Res :=
  if 56000 ≤ mv then .next s
  else
    let s := ((s.updPower fun p => { p with inputUv := true }).wr PWR_INPUT.MV (min (mv / 2) 0xFFFF)).addBrake .inputUv
    let s := s.pwrEvt PWR_EVT.INPUT_UV
    .next (s.logErr (s.mkErr Err.INPUT_UV sevInfo))

/-- Input back above 57 V (R465). -/
def execInputUvRelease (s : State) : Res := .next ((s.updPower fun p => { p with inputUv := false }).dropBrake .inputUv)

/-- Append the grave records still waiting to the flash sector of 16,384 records (R483). -/
def State.flushLog (s : State) : State :=
  s.updKept fun k => { k with flashLog := (k.flashLog ++ k.flashPending).drop ((k.flashLog ++ k.flashPending).length - 16384), flashPending := [] }

/-- The package falls unpowered (R465, R575): the ledger is written first. Only flash, fuses and the straps' wiring outlast it. -/
def State.powerOff (s : State) : State :=
  let s := s.saveLedger.applyKeys
  { State.reset with
    pending := s.pending, out := s.out, freeCtr := s.freeCtr, kept := { s.kept with flashPending := [] },
    pins := { State.reset.pins with mated := s.pins.mated, refclkOk := s.pins.refclkOk },
    pair := { PairSt.reset with rack := s.pair.rack, slot := s.pair.slot }, mgmt := { MgmtSt.reset with draws := s.mgmt.draws },
    power := { PowerSt.reset with powered := false } }

/-- Input below 50 V or above 70 V (R465): INPUT_CUT is recorded in flash and the input disconnected. -/
def execInputCut (mv : Nat) (s : State) : Res :=
  if 50000 ≤ mv ∧ mv ≤ 70000 then .next s
  else
    let s := s.updPower fun p => { p with issueCut := true }
    .next (s.logErr (s.mkErr Err.INPUT_CUT sevPackage)).flushLog.powerOff

/-! Temperature (R466 to R468). Readings are in 0.125 °C. -/

/-- More than four sensors of some wing are invalid. -/
def State.wingBlind (s : State) : Bool :=
  (List.range 4).any fun w => decide (4 < (s.power.badSensors.filter fun n => decide (n / 16 = w)).length)

/-- The valid readings, hottest first among equals the lowest sensor: the governing sensor and its reading. -/
def State.hottest (s : State) : Option (Nat × Int) :=
  (s.power.temps.filterMap fun e => if s.power.badSensors.contains e.1 then none else e.2.map fun t => (e.1, t)).foldl
    (fun m e => match m with | some x => if x.2 < e.2 then some e else m | none => some e) none

/-- The reading that R467 acts on: the hottest valid one, 95 °C for an invalid sensor, 105 °C for a wing with more than four. -/
def State.governing (s : State) : Int :=
  let t := match s.hottest with | some e => e.2 | none => -320
  let t := if s.power.badSensors = [] then t else max t 760
  if s.wingBlind then max t 840 else t

/-- Show a level in THM_STS, raising its interrupt when it changes (R551) (DEDUCED, notes/assumptions/106.md). -/
def State.setLevel (s : State) (l : Nat) : State := if s.rd THM_STS.LEVEL = l then s else (s.wr THM_STS.LEVEL l).raiseIrq .thm 0 0

/-- The trip (R467): issue is cut, the work handed over, and the package enters Smoored. -/
def State.trip (s : State) : State :=
  let s := (s.setLevel 3).bump THM_FAULTS.TRIPS
  let s := s.updPower fun p => { p with issueCut := true, tripped := true }
  ((s.fatal (s.mkErr Err.THM_TRIP sevPackage)).flushLog).enterSmoored

/-- A trip is over, by recovery or by WAKE (R467, R470): the level reads 0 and the hold of HARD is released. -/
def State.untrip (s : State) : State := ((s.updPower fun p => { p with tripped := false, coolFrom := none }).setLevel 0).dropBrake .hard

/-- Apply the levels of R467 to the governing reading (DEDUCED, notes/assumptions/106.md). -/
def State.thermal (s : State) : State :=
  let t := s.governing
  let l := s.rd THM_STS.LEVEL
  let s := s.updPower fun p => { p with coolFrom := if 680 ≤ t then none else if p.coolFrom.isSome then p.coolFrom else some s.rackTime }
  if l = 3 then s
  else if 920 ≤ t then s.trip
  else
    let hard : Bool := decide (840 ≤ t) || (decide (l = 2) && decide (800 ≤ t))
    let throttle : Bool := hard || decide (760 ≤ t) || (decide (0 < l) && decide (736 ≤ t))
    let top := min (s.rd PWR_OP_STS.POINT) s.targetOp
    let s := s.setLevel (if hard then 2 else if throttle then 1 else 0)
    let s := if throttle && decide (l = 0) then (if hard then s else s.bump THM_COUNTS.THROTTLE).wr PWR_OP_STS.C_THM (top - 1) else s
    let s := if hard && decide (l ≠ 2) then
        (((s.bump THM_COUNTS.HARD).wr PWR_OP_STS.C_THM 0).addBrake .hard).logErr (s.mkErr Err.THM_HARD sevInfo)
      else if !hard && decide (l = 2) then s.dropBrake .hard
      else s
    s.checkPace

/-- A sensor is read (R466, R468). -/
def execSensorRead (n : Fin 72) (reading : Option Int) (s : State) : Res :=
  let valid := match reading with | some t => if -320 ≤ t ∧ t ≤ 1200 then some t else none | none => none
  let s := match valid with
    | some t =>
      let s := s.updPower fun p => { p with temps := SMap.set none p.temps n.val (some t), badSensors := p.badSensors.filter fun x => decide (x ≠ n.val) }
      ((s.wr THM_SENSORn.VALID 1 0 n.val).wr THM_SENSORn.TJ (t % 4096).toNat 0 n.val).endScope Err.THM_SENSOR n.val
    | none =>
      let s := s.wr THM_SENSORn.VALID 0 0 n.val
      if s.power.badSensors.contains n.val then s
      else
        let s := (s.updPower fun p => { p with badSensors := p.badSensors ++ [n.val] }).bump THM_FAULTS.SENSOR
        (s.logErr (s.mkErr Err.THM_SENSOR sevInfo) n.val).raiseIrq .thm 0 1
  let s := match s.hottest with
    | some e => (s.wr THM_STS.HOT_SENSOR e.1).wr THM_STS.HOT_TJ (e.2 % 4096).toNat
    | none => s
  .next s.thermal

/-- Every 100 µs in THROTTLE, or after it clears, C_thm moves one point (R467). -/
def execThrottleStep (s : State) : Res :=
  let c := s.rd PWR_OP_STS.C_THM
  if 0 < s.rd THM_STS.LEVEL then .next (if 760 ≤ s.governing then (s.wr PWR_OP_STS.C_THM (c - 1)).checkPace else s)
  else .next ((s.wr PWR_OP_STS.C_THM (min 15 (c + 1))).checkPace)

end Sys2Proof.Machine
end

