-- ==== Sys2Proof/Machine/Wear.lean ====
section
/-!
DEFINITION. Core resets (R526), remaps (R90 to R93), the wear ledger (R95 to R97) and the kindling roles (R98, R99).
-/
namespace Sys2Proof.Machine

/-! Core reset (R526). -/

/-- A core's state after a core reset: memories, what waits in the network and the time of its last sweep are kept. -/
def Core.afterReset (k : Core) : Core :=
  { Core.reset with ls := k.ls, imem := k.imem, held := k.held, sweptAt := k.sweptAt, lateCount := k.lateCount }

/-- Reset core `c`; the references that its stream commands hold on table slots go (R343). -/
def State.coreReset (s : State) (c : Nat) : State :=
  let s := (s.core c).streams.foldl (fun s m => match m.table with
    | some n => s.updTable (wingOf c) n fun t => { t with inflight := t.inflight - 1 }
    | none => s) s
  let s := (s.updCore c Core.afterReset).updStep fun p => { p with takeWaits := p.takeWaits.filter fun w => decide (w.core ≠ c) }
  ((s.wr CORE_FAULT.WORD 0 c).wr CORE_LS_ECC.WORD 0 c).wr CORE_IMEM_FIX.WORD 0 c

/-- START the contexts of a core again at the seated image's entries, or leave them HALTED (R526, R539). -/
def State.restartCore (s : State) (c : Nat) : State :=
  match s.seatedImage with
  | some b => if (imgCores b).contains c then s.updCore c fun k => k.startImage b else s
  | none => s

/-- Whether a core is withdrawn from the tile list: it holds no descriptor and waits for none (R523) (DEDUCED, notes/assumptions/147.md). -/
def State.withdrawn (s : State) (c : Nat) : Bool :=
  !(s.step.descs.any fun d => match d.st with | .taken k _ => decide (k = c) | _ => false) && !s.step.takeWaits.any fun w => decide (w.core = c)

/-- The wing steward resets a core that it has withdrawn from the tile list, and starts it again (R523, R526). -/
def execCoreReset (c : CoreId) (s : State) : Res :=
  if s.withdrawn c.toNat then .next ((s.coreReset c.toNat).restartCore c.toNat) else .next s

/-! Remaps (R90 to R93). -/

/-- The key of a core's row and its logical column. -/
def rowKey (c : Nat) : Nat := 32 * wingOf c + c / 64 % 32
def localCol (c : Nat) : Nat := c % 32

/-- Map the failed core of a row out at a physical column. -/
def State.mapRow (s : State) (row col : Nat) : State :=
  (s.updKept fun k => { k with remaps := SMap.set none k.remaps row (some (col, true)) }).raiseIrq .wng (row / 32) 0

/-- A failure that its row cannot repair: the package stays out until it is replaced (R93). -/
def State.unrepairable (s : State) (node : Nat) : State :=
  (s.updKept fun k => { k with condemned := true, faulty := some (4, Err.CORE_UNREPAIRABLE) }).logErr (s.mkErr Err.CORE_UNREPAIRABLE sevPackage node)

/-- Wainil remaps a failed core while the package is out of its household and its partner serves alone (R92). The shifted cores are reset and reloaded from the cellar and the partner: instruction memory from the seated image, local store
as the partner's copy holds it. -/
def execInServiceRemap (c : CoreId) (s : State) : Res :=
  let n := c.toNat
  let ready : Bool := decide (s.pair.member = .out) && s.partnerAlone
  if !ready ∨ !s.pair.failedCores.contains n then .next s
  else
    let s := s.updPair fun p => { p with failedCores := p.failedCores.filter fun x => decide (x ≠ n) }
    if (SMap.get none s.kept.remaps (rowKey n)).isSome then .next (s.unrepairable n)
    else
      let s := s.mapRow (rowKey n) (localCol n)
      let shifted : List Nat := (List.range (32 - localCol n)).map fun i => n + i
      let s := shifted.foldl State.coreReset s
      let s : State := match s.seatedImage with
        | some b => (imgSegs b).foldl (fun (s : State) g =>
            let src := (b.drop g.src).take g.len
            ((rectCores g.x0 g.y0 g.x1 g.y1).filter fun c => shifted.contains c).foldl (fun (s : State) c =>
              s.updCore c fun k => { k with imem := Memory.write k.imem g.imem src }) s) s
        | none => s
      .next s.repaired

/-! The wear ledger (R95 to R97). -/

/-- The largest number whose 400th power does not exceed `n`, below 2^`bits`. -/
def root400 (n : Nat) : Nat → Nat → Nat
  | 0, r => r
  | b + 1, r => root400 n b (if (r + 2 ^ b) ^ 400 ≤ n then r + 2 ^ b else r)

/-- A of R95 over 1 ms, in the ledger's unit of 2^-32 ms: 2^32 × 2^(k/400) with k = 8 (V − 800) + 5 (T − 680), V in mV and T in 0.125 °C. -/
def stressMs (mv : Nat) (t : Int) : Nat :=
  let e : Int := 12800 + 8 * ((mv : Int) - 800) + 5 * (t - 680)
  if e < 0 then 0
  else
    let e := e.toNat
    -- 2^32 × 2^(r/400), then scaled by the whole powers
    root400 (2 ^ (12800 + e % 400)) 33 0 * 2 ^ (e / 400) / 2 ^ 32

/-- The reading of the sensor nearest a kindling row (R95, R466; the rows of the four sensors are the model's, notes/assumptions/37.md). -/
def State.rowTemp (s : State) (w y : Nat) : Int :=
  let n := 16 * w + 12 + y / 8
  if s.power.badSensors.contains n then 760 else (SMap.get none s.power.temps n).getD 760

/-- The rail voltage of the physical core at column 31 or 32 of a row (DESIGN CHOICE, notes/assumptions/88.md). -/
def State.wearMv (s : State) (w y col : Nat) : Nat :=
  if !s.resting ∧ s.kindCol w y = col ∧ s.rd WNG_KIND_ROLE.ACTIVE_ROWS w / 2 ^ y % 2 = 1 then kpMv.getD s.boostLevel 0 else s.railMv

/-- Add stress to a ledger, warning once at the threshold (R95, R97). -/
def State.addStress (s : State) (w y col n : Nat) : State :=
  let k := ledgerKey w y col
  let s := s.updKept fun q => { q with wear := SMap.upd 0 q.wear k (· + n) }
  if SMap.get 0 s.kept.wear k < WNG_WEAR_WARN.WORD.word * stressSecond ∨ s.kept.warned.contains k then s
  else
    let s := s.updKept fun q => { q with warned := q.warned ++ [k] }
    (s.logErr (s.mkErr Err.WEAR_WARN sevInfo (nodeSteward w)) k).raiseIrq .wng w 1

/-- Every row of every wing with both boost-capable columns. -/
def boostCores : List (Nat × Nat × Nat) :=
  (List.range 4).flatMap fun w => (List.range 32).flatMap fun y => [(w, y, 31), (w, y, 32)]

/-- Every 1 ms (R95). -/
def execWearLedgerAccrue (s : State) : Res :=
  .next (boostCores.foldl (fun s e => s.addStress e.1 e.2.1 e.2.2 (stressMs (s.wearMv e.1 e.2.1 e.2.2) (s.rowTemp e.1 e.2.1))) s)

/-- Every 60 s (R96). -/
def execLedgerSave (s : State) : Res := .next s.saveLedger

/-- At a power-up the ledgers last saved come back with 60 s at 0.95 V and 115 °C added (R96). -/
def State.restoreLedger (s : State) : State :=
  s.updKept fun k =>
    { k with wear := boostCores.foldl (fun m e => SMap.upd 0 m (ledgerKey e.1 e.2.1 e.2.2) (· + 3840 * stressSecond)) k.wearSaved }

/-! Roles (R98, R99). -/

/-- The rows of a wing that take the active roles: 24 eligible rows of lowest ledger, ties to the lower row. -/
def State.roleRows (s : State) (w : Nat) : List Nat :=
  let rows := (List.range 32).filter fun y => s.boostEligible w y
  (sortBy (fun a b => decide (s.rowLedger w a < s.rowLedger w b) || (decide (s.rowLedger w a = s.rowLedger w b) && decide (a < b))) rows).take 24

/-- Give a wing its roles; the cores that change rail settle for 2 µs (R98). Fewer than 24 are logged once for each reduction (R99). -/
def State.giveRoles (s : State) (w : Nat) : State :=
  let rows := s.roleRows w
  let was := s.rd WNG_KIND_ROLE.ACTIVE_ROWS w
  let changed := (List.range 32).filter fun y => decide (was / 2 ^ y % 2 = 1) != rows.contains y
  let s : State := { s with kind := { s.kind with settling := changed.foldl (fun m y => SMap.set 0 m (32 * w + y) (s.rackTime + 2000)) s.kind.settling } }
  let s := s.wr WNG_KIND_ROLE.ACTIVE_ROWS (rows.foldl (fun m y => m + 2 ^ y) 0) w
  if 24 ≤ rows.length then s
  else (s.logErr (s.mkErr Err.KINDLING_DEGRADED sevInfo (nodeSteward w)) (32 * w + rows.length)).raiseIrq .wng w 2

/-- Whether the package stands at a step boundary: no step is in progress, or no tile of the step just built has been handed out. -/
def State.atBoundary (s : State) : Bool := !s.step.active || s.step.descs.all fun d => decide (d.st = .listed)

/-- The first step boundary after 3,600 s or after a retirement (R98). The 3,600 s run from the last assignment (DESIGN CHOICE,
notes/assumptions/116.md). -/
def execKindlingRoleReassign (s : State) : Res :=
  if !s.atBoundary ∨ (!s.kind.reassignDue ∧ s.step.lastBoundary < s.kind.assignedAt + 3600000000000) then .next s
  else
    let s := (List.range 4).foldl State.giveRoles s
    .next { s with kind := { s.kind with assignedAt := s.rackTime, reassignDue := false } }

end Sys2Proof.Machine
end

