-- ==== Sys2Proof/Machine/Reset.lean ====
section
/-!
DEFINITION. Bring-up and resets (R487, R488, R490, R511 to R518, R523 to R526, R569).
-/
namespace Sys2Proof.Machine

/-! The image (R487, R488). -/

/-- LENGTH of an image. -/
def imageLen (b : Bytes) : Nat := fieldAt b 0x10 4

/-- Whether the fields of an image meet R487. -/
def imageFields (b : Bytes) : Bool :=
  let n := imageLen b
  decide (fieldAt b 0 4 = 0x494C4E57) && decide (fieldAt b 4 2 = 1) && decide (fieldAt b 6 1 ≤ 63) && decide (fieldAt b 7 1 = 0) &&
    decide (fieldAt b 8 4 ≠ 0) && decide (fieldAt b 0x0E 2 = 0) && decide (n % 4096 = 0) && decide (0 < n) && decide (n ≤ 12 * 2 ^ 20) &&
    decide (leNat ((b.drop 0x14).take 44) = 0) && decide (n ≤ b.length)

/-- Whether an image is valid (R488). -/
def State.imageOk (s : State) (b : Bytes) : Bool :=
  let n := imageLen b
  imageFields b && decide (sha512 ((b.drop 0x40).take 512) = Config.fwKeyDigest) &&
    sigOk ((b.drop 0x40).take 512) (b.take (n - 512)) ((b.drop (n - 512)).take 512) && decide (s.kept.svnMin ≤ fieldAt b 6 1)

/-! Bring-up (R511, R512). -/

/-- A stage is reached. -/
def State.reach (s : State) (stage : Nat) : State := (s.wr HAL_BOOT_STS.STAGE stage).raiseIrq .hal 0 0

/-- Bring-up stops at a stage (R512, R569), whose pages are not served when its time has not come (R514); the code is logged, a bad strap apart. -/
def State.bringUpFail (s : State) (stage : Nat) (code : Code) : State :=
  let s := if s.rd HAL_BOOT_STS.STAGE < stage then (s.reach stage).updMgmt fun m => { m with stalled := true } else s
  let s := ((s.wr HAL_BOOT_STS.FAIL 1).wr HAL_BOOT_STS.FAIL_CODE code.toNat).raiseIrq .hal 0 2
  if code = Err.FORM_MASK then s else s.logErr (s.mkErr code sevPackage)

/-- Whether a stage still to come may run. -/
def State.up (s : State) : Bool := !s.on HAL_BOOT_STS.FAIL

/-- A row that no remap can repair stops bring-up in stage 4, and does so again at every reset (R93, R512). -/
def State.rowLost (s : State) : State :=
  (s.updKept fun k => { k with condemned := true, faulty := some (4, Err.CORE_UNREPAIRABLE) }).bringUpFail 4 Err.CORE_UNREPAIRABLE

/-- Cores found failed in stage 4 are mapped out; a second failure of a row stops bring-up (R92, R93, R512). -/
def State.mapFailed (s : State) (cores : List Nat) (spares : List (Fin 128)) : State :=
  let s := spares.foldl (fun (s : State) r =>
    match SMap.get none s.kept.remaps r.val with
    | none => s.mapRow r.val 32
    | some (f, _) => if f = 32 ∨ !s.up then s else s.rowLost) s
  cores.foldl (fun (s : State) c =>
    if !s.up then s
    else if (SMap.get none s.kept.remaps (rowKey c)).isSome then s.rowLost
    else s.mapRow (rowKey c) (localCol c)) s

/-- What is found when stages are run again: what has broken since, and the cores named as failed (R92) (DEDUCED, notes/assumptions/39.md). -/
def State.retest (s : State) : Found :=
  let f := s.kept.tests.headD {}
  { f with cores := s.pair.failedCores.foldl (fun l c => insertNat c l) f.cores }

/-- Stages 2 to 4, from t3 to t5: rails at OP0, stacks trained and the cellar zero, cores tested, instruction memories zero and contexts HALTED (DEDUCED, notes/assumptions/39.md). -/
def State.stages (s : State) (f : Found) : State :=
  let faults := s.kept.faulty.toList ++ f.fault.toList
  let stop (n : Nat) (s : State) : State := match faults.find? fun e => decide (e.1 = n) with
    | some e => if s.up then s.bringUpFail n e.2 else s
    | none => s
  let s : State := { s with kept := { s.kept with tests := s.kept.tests.drop 1 }, pair := { s.pair with failedCores := [] }, mgmt := { s.mgmt with stalled := false } }
  let s := stop 2 (((s.reach 2).wr PWR_OP_STS.POINT 0).updPower fun p => { p with rail := 5500, railCut := [] })
  let s := if s.up then stop 3 ({ s with cellar := [], cel := { s.cel with badLines := [], scrubFrom := s.rackTime } }.spareMarked) else s
  let s := if s.up then s.reach 3 else s
  let s := if s.up then stop 4 (s.mapFailed f.cores f.spares) else s
  let s := if s.up then s.reach 4 else s
  let s := if s.up ∧ 35 < s.pair.slot then s.bringUpFail 4 Err.FORM_MASK else s
  s.updPower fun p => { p with issueCut := false, fire := .glow, since := s.rackTime, idleSince := s.rackTime }

/-- The flash-held records come back to the log under their numbers, which go on from the highest (R483) (DEDUCED, notes/assumptions/36.md). -/
def State.restoreLog (s : State) : State :=
  s.updMgmt fun m => { m with log := s.kept.flashLog, nextSeq := s.kept.flashLog.foldl (fun n r => max n r.seq) 0 + 1 }

/-- The boot ROM at t1 (R490, R511): the image is copied and checked, and runs; or the package offers recovery. -/
def State.boot (s : State) (cause : Nat) (f : Found) : State :=
  let s := ((s.wr HAL_BOOT_STS.STAGE 0).wr HAL_BOOT_STS.CAUSE cause).restoreLog.applyKeys
  let b := s.kept.flashImage
  if s.imageOk b then
    let b := b.take (imageLen b)
    let s := s.updMgmt fun m => { m with image := b, mode := .running, bootAt := (s.rackTime : Int) }
    let s := ((s.wr MGT_FW_VER.VERSION (fieldAt b 8 4)).wr SEC_SVN.RUNNING (fieldAt b 6 1)).reach 1
    s.stages f
  else
    let s := s.updMgmt fun m => { m with mode := .recovery, image := [], recoveryFrom := some s.rackTime }
    -- the ROM trains pair-link lanes 0 to 3
    let s := (List.range 4).foldl (fun (s : State) i => s.updLane (72 + i) fun a => { a with carrying := true }) s
    ((s.reach 7).raiseIrq .mgt 0 1).emit .recoveryRequest

/-- A cold power-up (R511, R512, R569, R575): nothing while the package is up (DEDUCED, notes/assumptions/93.md). -/
def execPowerUp (b : BringUp) (s : State) : Res :=
  if s.rd HAL_BOOT_STS.STAGE ≠ 0 ∨ s.power.fire = .smoored then .next s
  else
    let t := s.blank []
    let t : State := { t with
      rackTime := 0, heldBack := 0, rtimeSeen := false, pins := { t.pins with mated := true },
      pcie := { State.reset.pcie with perst := s.pcie.perst }, pair := { PairSt.reset with rack := b.rack, slot := b.slot.toNat } }
    .next ((t.restoreLedger.updKept fun k => { k with faulty := b.fault }).boot 0 { cores := b.failedCores.map (·.toNat), spares := b.failedSpares })

/-- Once stage 4 is done and PAIR_PLAN72 to PAIR_PLAN87 are VALID, the pair link trains (R513). A lane that is mapped out stays so until it is released (R443). -/
def execPairLinkTrainStart (s : State) : Res :=
  let lanes : List Nat := (List.range 16).map fun i => 72 + i
  if s.rd HAL_BOOT_STS.STAGE ≠ 4 ∨ !s.up ∨ !(lanes.all fun l => s.on PAIR_PLANn.VALID 0 l) ∨ (lanes.any fun l => (s.lane l).training) then .next s
  else .next (lanes.foldl (fun (s : State) l => if s.mappedOut l then s else s.startTraining l) s).becomeReady

/-- Train the rack lanes of a wing (R513), but those that carry already. A lane that is mapped out stays so until it is released (R443). -/
def State.trainWing (s : State) (w : Nat) : State :=
  (List.range 18).foldl (fun (s : State) i =>
    if s.mappedOut (18 * w + i) ∨ (s.lane (18 * w + i)).carrying then s else s.startTraining (18 * w + i)) s

/-- A write of FAB_CTL (R416, R513): setting ENABLE trains the wing's lanes; clearing it takes them down. -/
def State.fabCtl (s : State) (w v : Nat) : State :=
  let was := s.on FAB_CTL.ENABLE w
  let s := (s.wr FAB_CTL.SPARE_AUTO (bitsN v 1 1) w).wr FAB_CTL.ENABLE (bitsN v 0 0) w
  if !was ∧ bitsN v 0 0 = 1 then s.trainWing w
  else if was ∧ bitsN v 0 0 = 0 then
    (List.range 18).foldl (fun (s : State) i => s.updLane (18 * w + i) fun a => { a with carrying := false, training := false }) s
  else s

def execFabEnableWrite (q : Requester) (w : Wing) (v : Word) (s : State) : Res := s.action q .fab w.val 0x100 fun s => s.fabCtl w.val v.toNat

/-! Package reset (R523, R524). -/

/-- A package reset with its cause (R527): R511 from t1. The flash-held records are written first; a grant ends; a package that was OUT keeps its mask (DEDUCED, notes/assumptions/36.md) (DEDUCED, notes/assumptions/39.md). -/
def State.resetPackage (s : State) (cause : Nat) : State :=
  let s := s.endGrant
  let s := if s.mgmt.pendingAct then s.logErr (s.mkErr Err.FW_ACTIVATE sevInfo nodeWainil) else s
  let s := s.flushLog
  let t := s.blank []
  let t : State := { t with pcie := { State.reset.pcie with perst := s.pcie.perst } }
  let t := t.updPair fun p => { p with keptMask := if s.pair.member = .out then s.pair.members else [] }
  let t : State := if s.pins.refclkOk then t else { t with rackTime := 0, heldBack := 0 }
  t.boot cause t.retest

/-- Whether the package is out of service: OUTSIDE, OUT or HALTED (R493, R523). -/
def State.outOfService (s : State) : Bool :=
  match s.pair.member with
  | .outside => true
  | .out => true
  | .halted => true
  | _ => false

/-- HAL_RESET.PACKAGE. -/
def State.packageCmd (s : State) : State :=
  if s.outOfService then s.resetPackage 1 else s.conflict HAL_RESET.WORD.base Err.RESET_STATE

def execPackage (q : Requester) (s : State) : Res := s.action q .hal 0 0x104 State.packageCmd

/-- A wake from Smoored (R515): stages 2 to 4 with the image of firmware SRAM; the membership is OUTSIDE, and a package that was OUT joins once READY (DEDUCED, notes/assumptions/39.md). -/
def State.smooredWake (s : State) : State :=
  let mask := if s.pair.member = .out then s.pair.members else []
  let s := s.updPair fun p => { PairSt.reset with rack := p.rack, slot := p.slot, keptMask := mask, failedCores := p.failedCores }
  let s := (s.wr HAL_BOOT_STS.CAUSE 4).stages s.retest
  s.pwrEvt PWR_EVT.STATE

/-! Wing reset (R525). -/

/-- HAL_RESET.WING: the wing's cores stop under R70. -/
def State.wingCmd (s : State) (w : Nat) : State :=
  match s.pair.member with
  | .paired => s.conflict HAL_RESET.WORD.base Err.RESET_STATE
  | .alone => s.conflict HAL_RESET.WORD.base Err.RESET_STATE
  | .rejoining => s.conflict HAL_RESET.WORD.base Err.RESET_STATE
  | .halted => s.conflict HAL_RESET.WORD.base Err.RESET_STATE
  | _ =>
    let s := s.wr HAL_RESET.WING (s.rd HAL_RESET.WING ||| 2 ^ w)
    let s : State := { s with cores := s.cores.map fun e => if wingOf e.1 = w then (e.1, (List.range 8).foldl Core.stopCtx e.2) else e }
    s.updWing w fun g => { g with resetting := true }

def execWing (q : Requester) (w : Wing) (s : State) : Res := s.action q .hal 0 0x104 fun s => s.wingCmd w.val

/-- The pages of a wing: its WNG, LAR, CMP and FAB pages and its CORE pages. -/
def wingPage (w page : Nat) : Bool :=
  match pageBlock page with
  | some (.wng, i) => decide (i = w)
  | some (.lar, i) => decide (i = w)
  | some (.cmp, i) => decide (i = w)
  | some (.fab, i) => decide (i = w)
  | some (.core, i) => decide (wingOf i = w)
  | _ => false

/-- Pages return to their reset values, and with their registers every requester's latches and held low words of them (R13 says no more than 'after
reset'; DESIGN CHOICE, notes/assumptions/112.md). -/
def State.resetPages (s : State) (p : Nat → Bool) : State :=
  { s with regs := s.regs.filter fun r => !p (r.1 / 0x1000), latch := s.latch.filter fun e => !p (e.1 % 2 ^ 27 / 0x1000),
           heldLow := s.heldLow.filter fun e => !p (e.1 % 2 ^ 27 / 0x1000) }

/-- Stage 4 run again for a wing (R92, R93, R525): failed cores of its rows are mapped out, and a row beyond repair keeps the package out. -/
def State.retestWing (s : State) (n : Nat) : State :=
  let f := s.retest
  let s : State := { s with kept := { s.kept with tests := s.kept.tests.drop 1 },
                            pair := { s.pair with failedCores := s.pair.failedCores.filter fun c => decide (wingOf c ≠ n) } }
  let s := (f.spares.filter fun r => decide (r.val / 32 = n)).foldl (fun (s : State) r =>
    match SMap.get none s.kept.remaps r.val with
    | none => s.mapRow r.val 32
    | some (c, _) => if c = 32 then s else s.unrepairable (nodeSteward n)) s
  (f.cores.filter fun c => decide (wingOf c = n)).foldl (fun (s : State) c =>
    if (SMap.get none s.kept.remaps (rowKey c)).isSome then s.unrepairable c else s.mapRow (rowKey c) (localCol c)) s

/-- The wing reset's stage 4 completes (R525): cores, stewards, larder, table slots, gateway and mesh are in their reset state, and the rack lanes that were
enabled retrain; the wing is READY once they have. The gateway's ENABLE returns to 0 with it, and carries nothing until it is set (DEDUCED,
notes/assumptions/40.md). -/
def execWingResetComplete (w : Wing) (s : State) : Res :=
  let n := w.val
  if !(s.wing n).resetting then .next s
  else
    let en := s.on FAB_CTL.ENABLE n
    let s : State := { s with
      cores := s.cores.filter fun e => decide (wingOf e.1 ≠ n), wings := SMap.set WingSt.reset s.wings n { WingSt.reset with retraining := true },
      stewards := s.stewards.filter fun e => decide (e.1 / 2 ≠ n ∨ 8 ≤ e.1), kind := { s.kind with reassignDue := true },
      lanes := s.lanes.filter fun e => decide (laneWing e.1 ≠ n) }
    let s := (s.unseat.resetPages (wingPage n)).retestWing n
    .next ((if en then s.trainWing n else s).wingReady n)

/-! Endpoint and partition resets (R516 to R518). -/

/-- The porch and ring of a partition as an endpoint reset leaves them (R517): held records, and batches due or unconfirmed, are kept, and the slots are
cleared (DEDUCED, notes/assumptions/134.md). -/
def State.resetPartition (s : State) (p : Nat) : State :=
  let s := s.resetPages fun g => decide (g = Block.por.page p)
  let s := s.updPorch p fun q => { Porch.reset with accepted := q.accepted }
  s.updRing p fun r => { r with prod := 0, cons := 0, consTaken := false, unsignalled := 0, firstUnsignalled := 0, written := false }

/-- The endpoint reset (R517): configuration space, MSI-X tables and POR pages return to reset values, the last with their latches (DESIGN CHOICE,
notes/assumptions/112.md). -/
def State.endpointReset (s : State) : State :=
  let s : State := { s with pcie := { s.pcie with msix := [], pba := [], bme := false } }
  (List.range 16).foldl State.resetPartition s

/-- PERST# is asserted (R517): the link drops too. -/
def execPerstAssert (s : State) : Res :=
  let s := s.endpointReset
  .next { s with pcie := { s.pcie with perst := true, up := false, gtps := 0, width := 0 } }

/-- PERST# is deasserted (R516). -/
def execPerstDeassert (s : State) : Res := .next { s with pcie := { s.pcie with perst := false } }

/-- A Function Level Reset of PF0 (R517). -/
def execPfFlr (s : State) : Res := .next s.endpointReset

/-- The 128 bytes of a CANCEL record for a handle (R276, R280). -/
def cancelRecord (handle : Word) : Bytes := [0x02, 0, 0, 0] ++ leBytes 4 handle.toNat ++ List.replicate 120 0

/-- A Function Level Reset of VF n + 1 (R518): the partition's results and records go, and its sequences are cancelled at the next boundary, which it
requests (R246). -/
def execVfFlr (p : Part) (s : State) : Res :=
  let n := p.val
  let s := s.resetPartition n
  let s : State := { s with
    deferred := s.deferred.filter fun d => decide (d.part ≠ p),
    pcie := { s.pcie with msix := s.pcie.msix.filter fun e => decide (e.1 / 4096 ≠ n + 1), pba := s.pcie.pba.filter fun e => decide (e.1 ≠ n + 1) } }
  let home : Bool := s.pair.members.contains s.me
  let s := s.updRing n fun r => { r with due := [], held := [], unconfirmed := [], discarding := home }
  let mine := s.liveSeqs.filter fun e => decide ((s.seq e).home = s.me) && decide ((s.seq e).part = n)
  let s : State := { s with accepted := s.accepted ++ mine.map fun e =>
    { part := p, stamp := 0, time := s.rackTime, torn := false, bytes := cancelRecord (s.handle e) } }
  let s := s.updRing n fun r => { r with resetLeft := if home then s.accepted.length else 0 }
  .next (if home then s.reportWork else s)

/-- The PCIe link's training ends (R272, R516): in Flit mode it carries traffic, otherwise it holds in training. The LTSSM leaves Detect no earlier than t3 and
the release of PERST#. `bme` is Bus Master Enable of PF0 as the host then configures it (DESIGN CHOICE, notes/assumptions/127.md); messages that could not be
sent before go out. -/
def execPcieLinkTraining (gtps width : Nat) (bme : Bool) (s : State) : Res :=
  if s.pcie.perst ∨ s.rd HAL_BOOT_STS.STAGE < 2 then .next s
  else if 64 ≤ gtps then
    let due := s.pcie.pba
    .next (due.foldl (fun s v => s.sendMsix v.1 v.2) { s with pcie := { s.pcie with up := true, gtps := gtps, width := width, bme := bme, pba := [] } })
  else
    let s : State := { s with pcie := { s.pcie with up := false, gtps := gtps, width := width } }
    .next (s.logErr (s.mkErr Err.PCIE_NO_FLIT sevInfo))

/-- The provisioned ID that the target gives at ENTDAA (R484): rack and slot in its low 7 bits; the spec does not give the rest, which is free
(DESIGN CHOICE, notes/assumptions/29.md). -/
def State.provisionedId (s : State) : Nat := leNat ((Config.wire 9 []).take 6) % 2 ^ 48 / 2 ^ 7 * 2 ^ 7 + s.me.toNat

/-- ENTDAA: Wainil gives its provisioned ID and takes its dynamic address (R484). -/
def execEntdaa (address : BitVec 7) (s : State) : Res :=
  .next ((s.wr MGT_MCTP.I3C_DA address.toNat).emit (.reply .i3c "ENTDAA" (leBytes 6 s.provisionedId)))

/-! Maintenance commands of Wainil (R495, R496). -/

/-- 24 hours of Wainil's clock since the boot (R495). -/
def State.ranDay (s : State) : Bool := decide (s.mgmt.bootAt + 86400000000000 ≤ (s.rackTime : Int))

/-- SEC_SVN.COMMIT. -/
def State.commitSvn (s : State) : State :=
  if s.ranDay then s.updKept fun k => { k with svnMin := fieldAt s.mgmt.image 6 1 } else s.conflict SEC_SVN.WORD.base Err.SVN_EARLY

def execCommit (q : Requester) (s : State) : Res := s.action q .sec 0 0x10C State.commitSvn

/-- MGT_MAINT.HANDOVER. -/
def State.handoverCmd (s : State) : State :=
  if s.pair.member = .paired then s.handOver else s.conflict MGT_MAINT.WORD.base Err.HANDOVER_STATE

def execMgtHandover (q : Requester) (s : State) : Res := s.action q .mgt 0 0x10C State.handoverCmd

/-- A write of MGT_MAINT with RETIRE: the core of the write is named as failed. -/
def State.retireCmd (s : State) (v : Nat) : State :=
  if s.pair.member = .out ∨ s.pair.member = .outside then
    (s.wr MGT_MAINT.CORE (bitsN v 11 0)).updPair fun p => { p with failedCores := insertNat (bitsN v 11 0) p.failedCores }
  else s.conflict MGT_MAINT.WORD.base Err.REMAP_STATE

def execRetire (q : Requester) (v : Word) (s : State) : Res := s.action q .mgt 0 0x10C fun s => s.retireCmd v.toNat

end Sys2Proof.Machine
end

