-- ==== Sys2Proof/Machine/Rest.lean ====
section
/-!
DEFINITION. The fire states (R469 to R475): idling down, a household's rest, wakes, and Smoored.
-/
namespace Sys2Proof.Machine

/-! Going down (R469, R470). -/

/-- Enter Banked: local stores, instruction memories and compression-table slots are dropped, and with them what the cores were doing. -/
def State.enterBanked (s : State) : State :=
  let s : State := { s with
    cores := s.cores.map fun e => (e.1, { Core.afterReset e.2 with ls := [], imem := [] }),
    wings := SMap.mapVals WingSt.reset (fun _ (w : WingSt) => { w with tables := [] }) s.wings }
  let s := (List.range 4).foldl (fun (s : State) w => s.wr CMP_SET.LOADED 0 w) s
  (s.updKv fun k => { k with slots := [] }).enterFire .banked

/-- Whether the package idles down by itself: OUTSIDE or OUT (R470), and no formation in progress. -/
def State.idlesAlone (s : State) : Bool :=
  (decide (s.pair.member = .outside) || decide (s.pair.member = .out)) && s.pair.goAt.isNone

/-- Whether a gated unit is active: a hearth, a stream engine or a larder (R453, R470). -/
def State.gatedBusy (s : State) : Bool :=
  (s.cores.any fun e => decide (e.2.hearthQ ≠ []) || e.2.streams.any fun m => m.started) ||
    s.wings.any fun e => decide (e.2.larder ≠ []) || decide (e.2.larQueue ≠ [])

/-- No step and no gated unit active for GLOW_US (R470). -/
def execGlowEntry (s : State) : Res :=
  .next (if s.power.fire = .burning ∧ !s.step.active ∧ !s.gatedBusy ∧ 1 ≤ s.rd PWR_STATE_CTL.FLOOR ∧
      s.power.idleSince + 1000 * s.rd PWR_STATE_CTL.GLOW_US ≤ s.rackTime then s.enterFire .glow else s)

/-- Outside a household, idle for EMBER_MS (R470). -/
def execEmberIdleEntry (s : State) : Res :=
  .next (if s.power.fire = .glow ∧ s.idlesAlone ∧ 2 ≤ s.rd PWR_STATE_CTL.FLOOR ∧
      s.power.idleSince + 1000000 * s.rd PWR_STATE_CTL.EMBER_MS ≤ s.rackTime then s.enterFire .ember else s)

/-- Outside a household, in Ember for BANKED_S (R470). -/
def execBankedIdleEntry (s : State) : Res :=
  .next (if s.power.fire = .ember ∧ s.idlesAlone ∧ s.rd PWR_STATE_CTL.FLOOR = 3 ∧
      s.power.since + 1000000000 * s.rd PWR_STATE_CTL.BANKED_S ≤ s.rackTime then s.enterBanked else s)

/-! A household's rest (R471). -/

/-- A member's IDLE packet at the leader. -/
def execIdleReport (from_ : PkgId) (floor : BitVec 3) (idle : Bool) (s : State) : Res :=
  .next (if s.serving.contains from_ ∧ s.leader = s.me then s.takeIdle from_ floor.toNat idle else s)

/-- Whether the package serves in its household. -/
def State.servesHousehold (s : State) : Bool := decide (s.pair.member = .paired) || decide (s.pair.member = .alone)

/-- REST arrives. -/
def execRest (entry : DWord) (banked : Option DWord) (s : State) : Res :=
  .next (if s.servesHousehold then
      s.updPower fun p => { p with restEntry := some entry.toNat, restBanked := banked.map BitVec.toNat }
    else s)

/-- REST's first entry time, from Glow (R470); never below the own FLOOR. -/
def execRestEmberEntry (s : State) : Res :=
  match s.power.restEntry with
  | none => .next s
  | some t =>
    if s.rackTime < t ∨ s.power.fire ≠ .glow ∨ s.rd PWR_STATE_CTL.FLOOR < 2 then .next s
    else .next ((s.updPower fun p => { p with restEntry := none }).enterFire .ember)

/-- REST's second entry time. -/
def execRestBankedEntry (s : State) : Res :=
  match s.power.restBanked with
  | none => .next s
  | some t =>
    if s.rackTime < t ∨ s.power.fire ≠ .ember ∨ s.rd PWR_STATE_CTL.FLOOR < 3 then .next s
    else .next ((s.updPower fun p => { p with restBanked := none }).enterBanked)

/-! Waking (R470, R472, R473, R476). -/

/-- What stewards rewrite on leaving Banked: instruction memory from the seated image, and the table set (R469). -/
def State.refillCores (s : State) : State :=
  match s.seated with
  | none => s
  | some n => match s.currentImage n with | some i => s.seat n i | none => s

/-- Rise from Ember or Banked to Glow, with the cause of LAST_WAKE. A wake cancels REST, every link that rested retrains, and the
pair-link clock waits for it (R427, R472) (DEDUCED, notes/assumptions/103.md). -/
def State.wake (s : State) (cause : Nat) : State :=
  let was := s.power.fire
  if was ≠ .ember ∧ was ≠ .banked then s
  else
    let s := (s.enterFire .glow).updPower fun p => { p with restEntry := none, restBanked := none, idleSince := s.rackTime }
    let s := (s.wr PWR_STATE_STS.LAST_WAKE cause).bump PWR_STATE_STS.WAKES
    let s := s.updPair fun p => { p with idleFrom := [], wokeAt := some s.rackTime }
    let s := s.lanes.foldl (fun (s : State) e => if e.2.idle then s.startTraining e.1 else s) s
    if was = .banked then s.refillCores else s

/-- Drive WAKE_N low for 2 µs, waking the household (R472, R568). -/
def State.driveWake (s : State) : State := (s.emit (.pin "WAKE_N" false)).emit (.pin "WAKE_N" true)

/-- Work becomes due (R470): Burning from Glow, else a wake. -/
def execWorkDueWake (s : State) : Res :=
  match s.power.fire with
  | .glow => .next s.burn
  | .ember => .next (s.wake 7)
  | .banked => .next (s.wake 7)
  | _ => .next s

/-- The next start of a valid mantel slot after now. -/
def State.nextMantel (s : State) : Option Nat :=
  (List.range 64).foldl (fun m n =>
    if !s.on SEQ_MANTELn.VALID 0 n then m
    else
      let x := match mantelStart n s.rackTime with | some x => x + 10000000 | none => 156250 * n
      some (min x (m.getD x))) none

/-- W of R472: the next mantel start or the earliest TTL_END of a paused sequence, less the state's wake time and 20 µs. -/
def State.wakeTime (s : State) : Option Nat :=
  let ttl := (s.liveSeqs.filter fun e => decide ((s.seq e).st = .paused) && decide ((s.seq e).ttlEnd ≠ 0)).map fun e => (s.seq e).ttlEnd
  let all := s.nextMantel.toList ++ ttl
  match all with
  | [] => none
  | x :: r => some (r.foldl min x - ((if s.power.fire = .banked then 100000 else 10000) + 20000))

/-- Each resting member rises at W on its own. -/
def execScheduledWake (s : State) : Res :=
  match s.wakeTime with
  | none => .next s
  | some w => .next (if s.servesHousehold ∧ w ≤ s.rackTime then s.wake 1 else s)

/-- WAKE_N falls. Smoored does not respond (R571). -/
def execWakeNFall (s : State) : Res := .next (s.wake 2)

/-- Wainil checks the enabled porches for their expected stamps at rest (R473); after the wake hall steward 0 examines them. -/
def execPorchWatch (s : State) : Res :=
  let found := (List.range 16).any fun p => s.on POR_CTL.PORCH_ENABLE p && (s.porch p).shows
  if (s.power.fire ≠ .ember ∧ s.power.fire ≠ .banked) ∨ !found then .next s
  else .next ((s.driveWake).wake 3).examineAll

/-- PWR_STATE_CTL.WAKE. -/
def State.wakeCmd (s : State) : State :=
  match s.power.fire with
  | .ember => s.driveWake.wake 4
  | .banked => s.driveWake.wake 4
  | .smoored => s.untrip.smooredWake.wr PWR_STATE_STS.LAST_WAKE 4
  | _ => s

def execPwrWake (q : Requester) (s : State) : Res := s.action q .pwr 0 0x12C State.wakeCmd

/-- PWR_STATE_CTL.SMOOR. -/
def State.smoorCmd (s : State) : State :=
  if s.power.fire = .smoored then s
  else if s.outOfService then s.enterSmoored
  else s.conflict PWR_STATE_CTL.WORD.base Err.SMOORED_MEMBER

def execSmoor (q : Requester) (s : State) : Res := s.action q .pwr 0 0x12C State.smoorCmd

/-- A tripped package rises once every sensor has read below 85 °C for 60 s (R467). -/
def execTripRecover (s : State) : Res :=
  match s.power.coolFrom with
  | none => .next s
  | some t =>
    if !s.power.tripped ∨ s.power.fire ≠ .smoored ∨ s.rackTime < t + 60000000000 then .next s
    else .next s.untrip.smooredWake

/-- PAIR_ALIVE silent for 200 µs (R427). A resting member first wakes the household (R472, R473) (DEDUCED, notes/assumptions/103.md). -/
def execPairAliveSilent (s : State) : Res :=
  if s.aliveHeard then .next s
  else if s.servesHousehold ∧ (s.power.fire = .ember ∨ s.power.fire = .banked) then .next (s.driveWake.wake 6).aliveSilent
  else .next s.aliveSilent

end Sys2Proof.Machine
end

