-- ==== Sys2Proof/Machine/Mgmt.lean ====
section
/-!
DEFINITION. Wainil's services (R481 to R509): the event log, MCTP, PLDM monitoring and firmware update, recovery, SPDM, owner records and debug grants. The
bytes that the standards give a message are not modelled: a reply carries the values that the spec states (notes/assumptions/41.md).
-/
namespace Sys2Proof.Machine

/-- Whether requests and messages pass on a binding: the PCIe one needs a link that carries traffic (R272, R484). -/
def State.hearsOn (s : State) (b : Binding) : Bool := match b with | .i3c => true | .pcie => s.pcie.up

/-- A request on a binding: nothing where it does not arrive. -/
def State.heard (s : State) (b : Binding) (f : State → Res) : Res := if s.hearsOn b then f s else .next s

/-- A packet leaves on a binding; on I3C it is pending, and an in-band interrupt says so (R484). -/
def State.answerMctp (s : State) (b : Binding) (o : Out) : State :=
  match b with
  | .i3c => (s.emit o).emit .inBand
  | .pcie => s.emit o

/-- A reply with its values, each in 8 bytes. -/
def State.mgtReply (s : State) (b : Binding) (name : String) (vals : List Nat) : State := s.answerMctp b (.reply b name (vals.flatMap (leBytes 8)))

/-! The event log (R483). -/

/-- Grave records are appended to flash. -/
def execLogFlashAppend (s : State) : Res := .next s.flushLog

/-! MCTP control (R484). -/

/-- The endpoint ID of a binding. -/
def eidField (b : Binding) : Fld := match b with | .i3c => MGT_MCTP.EID_I3C | .pcie => MGT_MCTP.EID_PCIE

def execSetEndpointId (b : Binding) (eid : Byte) (s : State) : Res := s.heard b fun s =>
  .next ((s.wr (eidField b) eid.toNat).mgtReply b "SetEndpointID" [eid.toNat])

def execGetEndpointId (b : Binding) (s : State) : Res := s.heard b fun s => .next (s.mgtReply b "GetEndpointID" [s.rd (eidField b)])

def execGetEndpointUuid (b : Binding) (s : State) : Res := s.heard b fun s =>
  .next (s.answerMctp b (.reply b "GetEndpointUUID" (Config.endpointUuid s.kept.serial.toNat)))

def execGetMctpVersionSupport (b : Binding) (s : State) : Res := s.heard b fun s => .next (s.answerMctp b (.reply b "GetMCTPVersionSupport" (Config.wire 2 [])))

/-- Control, PLDM and SPDM. -/
def execGetMessageTypeSupport (b : Binding) (s : State) : Res := s.heard b fun s => .next (s.mgtReply b "GetMessageTypeSupport" [0x00, 0x01, 0x05])

/-- Any other message type is discarded. -/
def execMctpUnsupportedType (_b : Binding) (_kind : Byte) (s : State) : Res := .next s

/-! PLDM Types 0 and 2 (R485, R486). -/

def execGetTid (b : Binding) (s : State) : Res := s.heard b fun s => .next (s.mgtReply b "GetTID" [s.mgmt.tid])

def execSetTid (b : Binding) (tid : Byte) (s : State) : Res := s.heard b fun s =>
  .next ((s.updMgmt fun m => { m with tid := tid.toNat }).mgtReply b "SetTID" [])

def execGetPldmVersion (b : Binding) (s : State) : Res := s.heard b fun s => .next (s.answerMctp b (.reply b "GetPLDMVersion" (Config.wire 3 [])))

/-- PLDM Types 0, 2 and 5. -/
def execGetPldmTypes (b : Binding) (s : State) : Res := s.heard b fun s => .next (s.mgtReply b "GetPLDMTypes" [0, 2, 5])

def execGetPldmCommands (b : Binding) (s : State) : Res := s.heard b fun s => .next (s.answerMctp b (.reply b "GetPLDMCommands" (Config.wire 4 [])))

/-- The sensors of the PDR repository, numeric ones first (R485). -/
def numericSensors : List Nat :=
  [1, 2, 3, 4, 0x10] ++ ((List.range 72).map fun n => 0x100 + n) ++ (List.range 12).map fun n => 0x200 + n
def stateSensors : List Nat := [0x300, 0x301, 0x302]

def execGetPdrRepositoryInfo (b : Binding) (s : State) : Res := s.heard b fun s =>
  .next (s.mgtReply b "GetPDRRepositoryInfo" [(numericSensors ++ stateSensors).length])

/-- The kind and the quantity of a sensor, and its resolution as a fraction of the unit named (R485). -/
def sensorKind (id : Nat) : String × Nat × Nat :=
  if id = 1 then ("numeric: input voltage, mV", 2, 1)
  else if id = 2 then ("numeric: input current, mA", 1, 1)
  else if id = 3 then ("numeric: input draw over 1 ms, W", 1, 1)
  else if id = 4 then ("numeric: input energy, mJ", 1, 1)
  else if id = 0x10 then ("numeric: hottest junction, degree C", 1, 8)
  else if id < 0x200 then ("numeric: junction sensor, degree C", 1, 8)
  else if id < 0x300 then ("numeric: HBM3 stack, degree C", 1, 1)
  else if id = 0x300 then ("state: power state", 0, 1)
  else if id = 0x301 then ("state: membership state", 0, 1)
  else ("state: thermal level", 0, 1)

/-- The thresholds of a sensor: warning, critical and fatal, in degrees, of a junction sensor (R467, R485). -/
def sensorThresholds (id : Nat) : List Nat := if 0x100 ≤ id ∧ id < 0x200 then [95, 105, 115] else []

/-- Record `record` describes the sensor at that place of the repository: its identifier, kind, quantity, resolution and thresholds (R485). -/
def execGetPdr (b : Binding) (record : Nat) (s : State) : Res := s.heard b fun s =>
  match (numericSensors ++ stateSensors)[record]? with
  | some id => .next (s.mgtReply b ("GetPDR: " ++ (sensorKind id).1) ([record, id, (sensorKind id).2.1, (sensorKind id).2.2] ++ sensorThresholds id))
  | none => .next (s.mgtReply b "GetPDR: no such record" [record])

/-- The code of the power state (R469) and of the membership state (R436), as PWR_STATE_STS and PAIR_STS show them. -/
def fireCode : Fire → Nat
  | .burning => 0 | .glow => 1 | .ember => 2 | .banked => 3 | .smoored => 4
def memberCode : Member → Nat
  | .outside => 0 | .paired => 1 | .alone => 2 | .out => 3 | .rejoining => 4 | .halted => 5

/-- Whether the rails beyond the always-on one are down: in Smoored (R470), before stage 2 of bring-up and in recovery (R490, R511). -/
def State.railsOff (s : State) : Bool :=
  decide (s.power.fire = .smoored) || decide (s.rd HAL_BOOT_STS.STAGE < 2) || decide (s.rd HAL_BOOT_STS.STAGE = 7)

/-- A sensor's operational state and value now: unavailable while its rail is off or it has not been read, failed while it is invalid. -/
def State.senseNow (s : State) (temps : List Int) (id : Nat) : Nat × Int :=
  let off := s.railsOff
  if id = 1 then (0, s.rd PWR_INPUT.MV)
  else if id = 2 then (0, s.rd PWR_INPUT.MA)
  else if id = 3 then (0, s.rd PWR_DRAW.AVG_1MS)
  else if id = 4 then (0, s.rd64 PWR_ENERGY_LO.MJ)
  else if id = 0x10 then (match s.hottest with | some e => (0, e.2) | none => (1, 0))
  else if id < 0x200 then
    let n := id - 0x100
    if off ∧ n < 64 then (1, 0)
    else if s.power.badSensors.contains n then (2, 0)
    else match SMap.get none s.power.temps n with | some t => (0, t) | none => (1, 0)
  else if id < 0x300 then (if off then (1, 0) else match temps[id - 0x200]? with | some t => (0, t) | none => (1, 0))
  else if id = 0x300 then (0, fireCode s.power.fire)
  else if id = 0x301 then (0, memberCode s.pair.member)
  else (0, s.rd THM_STS.LEVEL)

/-- The reading of the last refresh. -/
def State.sensor (s : State) (id : Nat) : Nat × Int := ((s.mgmt.readings.find? fun e => decide (e.1 = id)).map (·.2)).getD (1, 0)

/-- A reading on a binding. -/
def State.answerSensor (s : State) (b : Binding) (name : String) (known : List Nat) (id : Nat) : State :=
  if known.contains id then s.mgtReply b name [id, (s.sensor id).1, ((s.sensor id).2 % 2 ^ 64).toNat] else s.mgtReply b (name ++ ": no such sensor") [id]

def execGetSensorReading (b : Binding) (sensor : BitVec 16) (s : State) : Res := s.heard b fun s =>
  .next (s.answerSensor b "GetSensorReading" numericSensors sensor.toNat)

def execGetStateSensorReadings (b : Binding) (sensor : BitVec 16) (s : State) : Res := s.heard b fun s =>
  .next (s.answerSensor b "GetStateSensorReadings" stateSensors sensor.toNat)

/-- Events go to the receiver set last, on its binding. -/
def execSetEventReceiver (b : Binding) (eid : Byte) (s : State) : Res := s.heard b fun s =>
  .next ((s.updMgmt fun m => { m with receiver := some (b, eid) }).mgtReply b "SetEventReceiver" [])

/-- The oldest event kept is returned and kept no longer. -/
def execPollForPlatformEventMessage (b : Binding) (s : State) : Res := s.heard b fun s =>
  match s.mgmt.events with
  | [] => .next (s.mgtReply b "PollForPlatformEventMessage: none" [])
  | e :: r => .next ((s.updMgmt fun m => { m with events := r }).mgtReply b "PollForPlatformEventMessage" [e.sensor, (e.value % 2 ^ 64).toNat])

/-- An event goes to the receiver on its binding; on one that carries nothing it is lost, and its resends follow (R486). -/
def State.sendEvent (s : State) (e : PldmEvent) : State :=
  match s.mgmt.receiver with
  | some r => if s.hearsOn r.1 then s.answerMctp r.1 (.platformEvent r.1 e) else s
  | none => s

/-- Keep an event, at most 64, and send it to the receiver (R486). -/
def State.newEvent (s : State) (sensor : Nat) (value : Int) : State :=
  let e : PldmEvent := { sensor := sensor, value := value, sentAt := s.rackTime, tries := if s.mgmt.receiver.isSome then 1 else 0 }
  (s.updMgmt fun m => { m with events := (m.events ++ [e]).drop ((m.events ++ [e]).length - 64) }).sendEvent e

/-- The threshold level of a junction reading: warning, critical, fatal. -/
def threshold (t : Int) : Nat := if 920 ≤ t then 3 else if 840 ≤ t then 2 else if 760 ≤ t then 1 else 0

/-- What of a sensor makes events: the threshold level of a junction sensor, the value of a state sensor. -/
def eventLevel (e : Nat × Nat × Int) : Option Nat :=
  if 0x100 ≤ e.1 ∧ e.1 < 0x200 ∧ e.2.1 = 0 then some (threshold e.2.2) else if 0x300 ≤ e.1 then some e.2.2.toNat else none

/-- The levels that a change from `old` to `l` makes events of: each threshold crossed in turn by a junction sensor, and a new state (R486). -/
def eventLevels (id old l : Nat) : List Nat :=
  if 0x300 ≤ id then (if old = l then [] else [l])
  else if old ≤ l then (List.range (l - old)).map fun k => old + 1 + k
  else (List.range (old - l)).map fun k => old - 1 - k

/-- Every 10 ms the readings are refreshed, and each crossing and each change is an event (R485, R486). -/
def execPldmSensorRefresh (temps : List Int) (s : State) : Res :=
  let rs := (numericSensors ++ stateSensors).map fun id => (id, s.senseNow temps id)
  let s := s.updMgmt fun m => { m with readings := rs }
  .next (rs.foldl (fun (s : State) e =>
    match eventLevel e with
    | none => s
    | some l =>
      let dflt := if e.1 = 0x300 then 1 else 0
      (eventLevels e.1 (SMap.get dflt s.mgmt.sensorLevels e.1) l).foldl (fun s (k : Nat) => s.newEvent e.1 k)
        (s.updMgmt fun m => { m with sensorLevels := SMap.set dflt m.sensorLevels e.1 l })) s)

/-- Kept event `n` has not been acknowledged within 250 ms: it is sent again, up to 3 times, and then only kept for polling (R486). -/
def execPlatformEventResend (n : Nat) (s : State) : Res :=
  match s.mgmt.events[n]? with
  | none => .next s
  | some e =>
    if e.tries = 0 ∨ 4 < e.tries ∨ s.rackTime < e.sentAt + 250000000 then .next s
    else
      let e' := { e with tries := e.tries + 1, sentAt := s.rackTime }
      let s := s.updMgmt fun m => { m with events := m.events.set n e' }
      if e.tries = 4 then .next (s.logErr (s.mkErr Err.MGT_EVENT_UNDELIVERED sevInfo nodeWainil))
      else .next (s.sendEvent e')

/-! Firmware update (R491 to R494). -/

/-- Change MODE, with its interrupt (R551). -/
def State.setMode (s : State) (m : FwMode) : State :=
  if s.mgmt.mode = m then s else (s.updMgmt fun g => { g with mode := m }).raiseIrq .mgt 0 1

/-- The mode outside an update. -/
def State.restMode (s : State) : State := s.setMode (if s.inRecovery then .recovery else .running)

/-- The update ends and its buffer is discarded. -/
def State.endUpdate (s : State) : State :=
  (s.updMgmt fun m => { m with updBuf := [], updBinding := none, updSize := 0, updVerified := false, cancelWaits := none }).restMode

/-- Whether a command comes from the binding that holds the update; it restarts the 120 s. -/
def State.inUpdate (s : State) (b : Binding) : Bool := decide (s.mgmt.updBinding = some b)
def State.touch (s : State) : State := s.updMgmt fun m => { m with updLast := s.rackTime }

/-- PF0's descriptors and the serial (R491). -/
def execQueryDeviceIdentifiers (b : Binding) (s : State) : Res := s.heard b fun s =>
  .next (s.answerMctp b (.reply b "QueryDeviceIdentifiers" (Config.wire 5 [] ++ leBytes 8 s.kept.serial.toNat)))

/-- One component, firmware, identifier 1, with the running and the pending version. -/
def execGetFirmwareParameters (b : Binding) (s : State) : Res := s.heard b fun s =>
  .next (s.mgtReply b "GetFirmwareParameters" [0x000A, 0x0001, s.rd MGT_FW_VER.VERSION, s.rd MGT_FW_PEND.VERSION])

/-- RequestUpdate (R491, R494). In recovery it is offered once the partner source has ended (R490). -/
def execRequestUpdate (b : Binding) (maxTransfer : Nat) (s : State) : Res := s.heard b fun s =>
  if s.mgmt.updBinding.isSome then .next (s.mgtReply b "RequestUpdate: ALREADY_IN_UPDATE_MODE" [])
  else if s.mgmt.recoveryFrom.isSome then .next (s.mgtReply b "RequestUpdate: not offered" [])
  else
    let s := s.updMgmt fun m => { m with updBinding := some b, updTransfer := min maxTransfer 4096, updBuf := [], updSize := 0, updVerified := false }
    let s := if s.inRecovery then s else s.setMode .update
    .next (s.touch.mgtReply b "RequestUpdate" [])

def execPassComponentTable (b : Binding) (s : State) : Res := s.heard b fun s =>
  .next (if s.inUpdate b then s.touch.mgtReply b "PassComponentTable" [] else s.mgtReply b "PassComponentTable: NOT_IN_UPDATE_MODE" [])

/-- The device asks for the next piece of the image: one request at a time. -/
def State.requestData (s : State) (b : Binding) : State :=
  s.mgtReply b "RequestFirmwareData" [s.mgmt.updBuf.length, min s.mgmt.updTransfer (s.mgmt.updSize - s.mgmt.updBuf.length)]

/-- UpdateComponent begins the transfer of an image of up to 12 MiB. While one is being transferred it is refused: one RequestFirmwareData is outstanding at
a time (R491) (PRESUMED, PLDM Type 5; notes/assumptions/151.md). -/
def execUpdateComponent (b : Binding) (size : Nat) (s : State) : Res := s.heard b fun s =>
  if !s.inUpdate b ∨ s.mgmt.updVerified then .next (s.mgtReply b "UpdateComponent: NOT_IN_UPDATE_MODE" [])
  else if s.mgmt.updSize ≠ 0 then .next (s.touch.mgtReply b "UpdateComponent: INVALID_STATE_FOR_COMMAND" [])
  else if size = 0 ∨ 12 * 2 ^ 20 < size then .next (s.touch.mgtReply b "UpdateComponent: not possible" [size])
  else .next (((s.updMgmt fun m => { m with updBuf := [], updSize := size }).touch.mgtReply b "UpdateComponent" [size]).requestData b)

/-- An image is refused in recovery: it counts, and the sources are offered again from the partner (R490). -/
def State.recoveryRefused (s : State) : State :=
  ((s.bump MGT_STS.RECOVERY_TRIES).updMgmt fun m => { m with recoveryFrom := some s.rackTime }).emit .recoveryRequest

/-- The image is complete: it is verified and, when valid, apply begins with the erase of the image region (R492), and of an older image that awaits its
activation there (R508). -/
def State.verify (s : State) (b : Binding) : State :=
  let s := s.mgtReply b "TransferComplete" []
  if s.imageOk s.mgmt.updBuf then
    let s := (s.mgtReply b "VerifyComplete" [0]).updMgmt fun m => { m with updVerified := true, pendingAct := false }
    let s := if s.rd MGT_FW_PEND.VERSION ≠ 0 then (s.wr MGT_FW_PEND.VERSION 0).raiseIrq .mgt 0 1 else s
    (s.updKept fun k => { k with flashImage := [] }).setMode .applying
  else
    let s := (s.mgtReply b "VerifyComplete" [1]).endUpdate
    if s.inRecovery then s.recoveryRefused else s

/-- Firmware data arrives; the next piece is asked for, or the image is complete. -/
def execRequestFirmwareDataResponse (b : Binding) (data : Bytes) (s : State) : Res := s.heard b fun s =>
  if !s.inUpdate b ∨ s.mgmt.updVerified ∨ s.mgmt.updSize ≤ s.mgmt.updBuf.length then .next s
  else
    let want := min s.mgmt.updTransfer (s.mgmt.updSize - s.mgmt.updBuf.length)
    let s := (s.updMgmt fun m => { m with updBuf := m.updBuf ++ data.take want }).touch
    .next (if s.mgmt.updSize ≤ s.mgmt.updBuf.length then s.verify b else s.requestData b)

/-- A recovered image runs after a package reset (R490). -/
def State.recovered (s : State) : State := (s.logErr (s.mkErr Err.FW_RECOVERY sevInfo nodeWainil)).resetPackage 3

/-- The flash fails its read-back in recovery (R490); the image region counts as blank (DEDUCED, notes/assumptions/89.md). -/
def State.recoveryFail (s : State) : State :=
  (s.updKept fun k => { k with flashImage := [] }).logErr (s.mkErr Err.RECOVERY_FAIL sevPackage nodeWainil)

/-- Apply ends, with the image read back good or not (R490, R492, R494) (DEDUCED, notes/assumptions/90.md). -/
def execApplyComplete (good : Bool) (s : State) : Res :=
  match s.mgmt.updBinding with
  | none => .next s
  | some b =>
    if s.mgmt.mode ≠ .applying then .next s
    else
      let img := s.mgmt.updBuf
      let wait := s.mgmt.cancelWaits
      let s := s.mgtReply b "ApplyComplete" [if good then 0 else 1]
      let s := if good then s.updKept fun k => { k with flashImage := img } else s
      if s.inRecovery then
        let s := match wait with
          | some c => s.mgtReply c "CancelUpdate: NOT_IN_UPDATE_MODE" []
          | none => s
        .next (if good then s.recovered else s.endUpdate.recoveryFail)
      else
        let s := s.logErr (s.mkErr Err.FW_APPLY sevInfo nodeWainil)
        let s := if good then
            ((s.updMgmt fun m => { m with pendingAct := true }).wr MGT_FW_PEND.VERSION (fieldAt img 8 4)).raiseIrq .mgt 0 1
          else s
        match wait with
        | some c => .next (s.endUpdate.mgtReply c "CancelUpdate: NOT_IN_UPDATE_MODE" [])
        | none => .next (if good then s.touch.setMode .update else s.endUpdate)

/-- ActivateFirmware (R493): a reset into the new image out of service, or deferred to the next reset. The update that brought the image ends with it; a later
one goes on (DEDUCED, notes/assumptions/90.md). -/
def execActivateFirmware (b : Binding) (s : State) : Res := s.heard b fun s =>
  if !s.mgmt.pendingAct then .next (s.mgtReply b "ActivateFirmware: NOT_IN_UPDATE_MODE" [])
  else if s.outOfService then .next ((s.mgtReply b "ActivateFirmware: self-contained" []).resetPackage 2)
  else
    let s := if s.inUpdate b ∧ s.mgmt.updVerified then s.endUpdate else s
    .next (s.mgtReply b "ActivateFirmware: next reset" [0])

/-- The mode as MGT_STS.MODE shows it. -/
def modeCode : FwMode → Nat
  | .running => 0 | .recovery => 1 | .update => 2 | .applying => 3

/-- GetStatus; from the binding of the update it is a command, which restarts the 120 s (R494). -/
def execGetStatus (b : Binding) (s : State) : Res := s.heard b fun s =>
  let s := if s.inUpdate b then s.touch else s
  .next (s.mgtReply b "GetStatus" [modeCode s.mgmt.mode, s.mgmt.updBuf.length, s.mgmt.updSize])

/-- The component transfer is cancelled; apply, once begun, is not (R494). -/
def execCancelUpdateComponent (b : Binding) (s : State) : Res := s.heard b fun s =>
  if !s.inUpdate b then .next (s.mgtReply b "CancelUpdateComponent: NOT_IN_UPDATE_MODE" [])
  else if s.mgmt.updVerified then .next (s.touch.mgtReply b "CancelUpdateComponent: not possible" [])
  else .next ((s.updMgmt fun m => { m with updBuf := [], updSize := 0 }).touch.mgtReply b "CancelUpdateComponent" [])

/-- CancelUpdate; during apply the answer waits for its end (R494). -/
def execCancelUpdate (b : Binding) (s : State) : Res := s.heard b fun s =>
  if !s.inUpdate b then .next (s.mgtReply b "CancelUpdate: NOT_IN_UPDATE_MODE" [])
  else if s.mgmt.mode = .applying then .next (s.updMgmt fun m => { m with cancelWaits := some b })
  else .next (s.endUpdate.mgtReply b "CancelUpdate" [])

/-- 120 s without data or a command before apply (R494). -/
def execFwUpdateTimeout (s : State) : Res :=
  if s.mgmt.updBinding.isNone ∨ s.mgmt.updVerified ∨ s.rackTime < s.mgmt.updLast + 120000000000 then .next s
  else .next (s.endUpdate.logErr (s.endUpdate.mkErr Err.FW_UPDATE_TIMEOUT sevInfo nodeWainil))

/-! Recovery (R490). -/

/-- The partner asks for the image. -/
def execRecoveryRequest (s : State) : Res :=
  .next (if s.inRecovery ∨ s.mgmt.image = [] then s else s.emit (.recoveryImage s.mgmt.image))

/-- A complete image in recovery: programmed, read back and booted, or refused. A transfer still running elsewhere ends (DEDUCED, notes/assumptions/89.md). -/
def State.recover (s : State) (image : Bytes) (readBackGood : Bool) : State :=
  if !s.imageOk image then s.recoveryRefused
  else
    let s := match s.mgmt.updBinding with | some b => (s.mgtReply b "CancelUpdate by the device" []).endUpdate | none => s
    if readBackGood then (s.updKept fun k => { k with flashImage := image }).recovered else s.recoveryFail

/-- The partner's image arrives within its 2 s. -/
def execRecoveryImageReceive (image : Bytes) (readBackGood : Bool) (s : State) : Res :=
  .next (if s.inRecovery ∧ s.mgmt.recoveryFrom.isSome then s.recover image readBackGood else s)

/-- The partner source ends after 2 s; host and sideband are offered. -/
def execRecoveryPartnerTimeout (s : State) : Res :=
  match s.mgmt.recoveryFrom with
  | none => .next s
  | some t => .next (if s.rackTime < t + 2000000000 then s else s.updMgmt fun m => { m with recoveryFrom := none })

/-- The first `n` bytes of the update buffer as the host has written it through BAR2 (R490). -/
def State.windowImage (s : State) (n : Nat) : Bytes := ((List.range (ceilDiv n 4)).flatMap fun k => leBytes 4 (SMap.get 0 s.mgmt.window k).toNat).take n

/-- MGT_RECOVERY.GO checks the image that the driver has written to the update buffer, LENGTH bytes of it. While the partner is still asked, while an
image already taken is programmed, and outside recovery, it is ignored (DEDUCED, notes/assumptions/89.md). -/
def execRecoveryGo (q : Requester) (readBackGood : Bool) (s : State) : Res :=
  s.action q .mgt 0 0x184 fun s =>
    if s.inRecovery ∧ s.mgmt.recoveryFrom.isNone ∧ s.mgmt.mode ≠ .applying then s.recover (s.windowImage (s.rd MGT_RECOVERY.LENGTH)) readBackGood else s

/-! SPDM (R497 to R499). -/

/-- A binding's place in the table of connection states: 1 after GET_VERSION, 2 after GET_CAPABILITIES, 3 after NEGOTIATE_ALGORITHMS. -/
def spdmKey (b : Binding) : Nat := match b with | .i3c => 0 | .pcie => 1
def State.spdmAt (s : State) (b : Binding) : Nat := SMap.get 0 s.mgmt.spdm (spdmKey b)
def State.spdmTo (s : State) (b : Binding) (n : Nat) : State := s.updMgmt fun m => { m with spdm := SMap.set 0 m.spdm (spdmKey b) n }

/-- An SPDM answer, or ERROR where the connection has not come so far (PRESUMED, SPDM 1.3; notes/assumptions/43.md). -/
def State.spdm (s : State) (b : Binding) (least : Nat) (f : State → State) : Res :=
  .next (if least ≤ s.spdmAt b then f s else s.mgtReply b "ERROR: UnexpectedRequest" [])

/-- Version 1.3 only. -/
def execGetVersion (b : Binding) (s : State) : Res := s.heard b fun s => s.spdm b 0 fun s => (s.spdmTo b 1).mgtReply b "VERSION" [0x13]

/-- CERT_CAP, CHAL_CAP, MEAS_CAP with signature. -/
def execGetCapabilities (b : Binding) (s : State) : Res := s.heard b fun s =>
  s.spdm b 1 fun s => (s.spdmTo b 2).answerMctp b (.reply b "CAPABILITIES: CERT_CAP, CHAL_CAP, MEAS_CAP with signature" [])

/-- RSAPSS-4096 and SHA-512. -/
def execNegotiateAlgorithms (b : Binding) (s : State) : Res := s.heard b fun s =>
  s.spdm b 2 fun s => (s.spdmTo b 3).answerMctp b (.reply b "ALGORITHMS: TPM_ALG_RSAPSS_4096, TPM_ALG_SHA_512, DMTF" [])

/-- Slot 0 only. -/
def execGetDigests (b : Binding) (s : State) : Res := s.heard b fun s =>
  s.spdm b 3 fun s => s.answerMctp b (.reply b "DIGESTS" (sha512 (Config.certChain 0)))

def execGetCertificate (b : Binding) (offset length : Nat) (s : State) : Res := s.heard b fun s =>
  s.spdm b 3 fun s => s.answerMctp b (.reply b "CERTIFICATE" (((Config.certChain 0).drop offset).take length))

/-- CEL_CAP: STACK_GB, twelve HBM3 devices, EXTENTS (R360). -/
def State.celCapWord (s : State) : Nat := (if s.kept.orderingA then 48 else 24) * 2 ^ 24 + 12 * 2 ^ 16 + s.cellarExtents

/-- A measurement block (R499): the boot ROM's contents and the ordering number's code are free, as the spec gives neither, and the code takes 3 bytes before
the revision (PRESUMED, notes/assumptions/41.md). -/
def State.measurement (s : State) (i : Nat) : Bytes :=
  let served := (List.range 64).filter fun n => match (s.slot n).st with | .ready => true | .draining => true | _ => false
  match i with
  | 1 => sha512 (Config.wire 6 [])
  | 2 => sha512 (s.mgmt.image.take (imageLen s.mgmt.image - 512))
  | 3 => leBytes 1 (s.rd SEC_SVN.RUNNING) ++ leBytes 1 s.kept.svnMin ++ leBytes 2 s.hhAbi
  | 4 => leBytes 4 ((match s.mgmt.grant with | some g => 2 ^ 31 + g.1 | none => 0)) ++ (if s.mgmt.grant.isSome then s.mgmt.grantNonce.take 4 else [0, 0, 0, 0])
  | 5 => sha512 (served.flatMap fun n =>
      leBytes 8 (s.slot n).modelId.toNat ++ leBytes 4 (s.slot n).version.toNat ++ sha512 (s.slot n).manifest)
  | 6 => padTo 3 ((Config.wire 7 [if s.kept.orderingA then 1 else 0]).take 3) ++ [0xB0] ++ leBytes 4 s.celCapWord
  | _ => []

/-- A response signed by the device key over what it says, the requester's nonce and a fresh one. -/
def State.signed (s : State) (b : Binding) (name : String) (nonce body : Bytes) : State :=
  let own := Config.random s.mgmt.draws ++ Config.random (s.mgmt.draws + 1)
  (s.updMgmt fun m => { m with draws := m.draws + 2 }).answerMctp b
    (.reply b name (body ++ own ++ Config.deviceSign (Config.wire 8 [s.mgmt.draws] ++ nonce ++ body ++ own)))

def execChallenge (b : Binding) (nonce : Bytes) (s : State) : Res := s.heard b fun s =>
  s.spdm b 3 fun s => s.signed b "CHALLENGE_AUTH" nonce (sha512 (Config.certChain 0))

/-- Index 0 asks for the number of blocks and 0xFF for all of them; with a nonce the answer is signed. -/
def execGetMeasurements (b : Binding) (index : Byte) (nonce : Bytes) (s : State) : Res := s.heard b fun s =>
  s.spdm b 3 fun s =>
    let i := index.toNat
    let body := if i = 0 then [6] else if i = 255 then (List.range 6).flatMap fun k => s.measurement (k + 1) else s.measurement i
    if i ≠ 0 ∧ i ≠ 255 ∧ 6 < i then s.mgtReply b "ERROR: InvalidRequest" [i]
    else if nonce = [] then s.answerMctp b (.reply b "MEASUREMENTS" body)
    else s.signed b "MEASUREMENTS" nonce body

/-- ERROR with UnsupportedRequest (R498). -/
def execSpdmUnsupportedRequest (b : Binding) (kind : Byte) (s : State) : Res := s.heard b fun s =>
  .next (s.mgtReply b "ERROR: UnsupportedRequest" [kind.toNat])

/-! Owner records (R500 to R504). -/

/-- The record in MGT_REC_WIN. -/
def State.recordWin (s : State) : Bytes := (List.range 400).flatMap fun m => leBytes 4 (s.rd MGT_REC_WIN.WORD 0 m)

def recOwnerKey (r : Bytes) : Bytes := (r.drop 0x40).take 512
def recSubject (r : Bytes) : Bytes := (r.drop 0x240).take 512

/-- REC_FORMAT (R500, R501) (DEDUCED, notes/assumptions/105.md). -/
def recFormat (r : Bytes) : Bool :=
  let t := fieldAt r 4 1
  let i := fieldAt r 5 1
  decide (fieldAt r 0 4 = 0x52454353) && decide (1 ≤ t) && decide (t ≤ 3) && decide (if t = 1 then i = 0 else i < 8) && decide (fieldAt r 6 2 = 0) &&
    (decide (t = 3) || (decide (leNat ((r.drop 0x10).take 16) = 0) && decide (fieldAt r 0x20 8 = 0))) &&
    (decide (t = 2) || decide (fieldAt r 0x28 4 = 0)) && decide (leNat ((r.drop 0x2C).take 20) = 0) &&
    decide (if t = 1 then recSubject r = recOwnerKey r else if t = 3 then leNat (recSubject r) = 0 else True)

/-- The result of a record: the first check of R501 that fails. -/
def State.recordResult (s : State) (r : Bytes) : Code :=
  let t := fieldAt r 4 1
  let own := sha512 (recOwnerKey r)
  if !recFormat r then 1
  else if !sigOk (recOwnerKey r) (r.take 0x440) ((r.drop 0x440).take 512) then 2
  else if (if t = 1 then s.kept.ownerDigest.isSome else decide (s.kept.ownerDigest ≠ some own)) then 3
  else if fieldAt r 8 8 ≠ s.kept.serial.toNat ∧ !(fieldAt r 8 8 = 0 ∧ t = 2) then 4
  else if t = 3 ∧ (s.mgmt.nonce ≠ some ((r.drop 0x10).take 16) ∨ (fieldAt r 0x20 8 ≠ 0 ∧ fieldAt r 0x20 8 ≤ s.rackTime)) then 5
  else if t = 2 ∧ fieldAt r 0x28 4 ≤ SMap.get 0 s.kept.mkeySeq (fieldAt r 5 1) then 6
  else 0

/-- OWNER: the digest is fused (R502). -/
def State.fuseOwner (s : State) (r : Bytes) : State := s.updKept fun k => { k with ownerDigest := some (sha512 (recOwnerKey r)) }

/-- MODEL_KEY: key and SEQUENCE go to the security sector; in effect at the next boundary, or at once outside a household (R503). -/
def State.storeKey (s : State) (r : Bytes) : State :=
  let n := fieldAt r 5 1
  let key := if leNat (recSubject r) = 0 then none else some (recSubject r)
  let s := s.updKept fun k => { k with mkeySeq := SMap.set 0 k.mkeySeq n (fieldAt r 0x28 4), mkeysDue := k.mkeysDue ++ [(n, key)] }
  if s.pair.members = [] then s.applyKeys else s

/-- No nonce is valid any more. -/
def State.clearNonce (s : State) : State :=
  (List.range 4).foldl (fun (s : State) n => s.wr SEC_NONCEn.NONCE 0 0 n) (s.updMgmt fun m => { m with nonce := none })

/-- The injections of a new grant count from 0 (R548). -/
def State.clearInjected (s : State) : State :=
  (s.regs.filter fun r => decide (r.1 % 0x1000 = PG_PTB_STS.WORD.base)).foldl (fun s r => s.wr PG_PTB_STS.INJECTED 0 (r.1 / 0x1000)) s

/-- DEBUG_AUTH: the grant, in place of any in force, and the nonce is consumed (R505 to R507). In a serving state it needs IN_SERVICE: without it the grant
in force ends and none takes its place. One without PERTURB locks the perturbation registers again (DEDUCED, notes/assumptions/105.md). -/
def State.grantDebug (s : State) (r : Bytes) : State :=
  let scope := fieldAt r 5 1
  let s := s.clearNonce
  if !s.outOfService ∧ scope / 4 % 2 = 0 then s.endGrant
  else
    let was := s.mgmt.grant.isSome
    let s := if scope % 2 = 1 then s.clearInjected else s.lockPtb
    let s := (s.updMgmt fun m => { m with grant := some (scope, fieldAt r 0x20 8), grantNonce := (r.drop 0x10).take 16 }).wr64
      SEC_DEBUG_END_LO.NOT_AFTER (fieldAt r 0x20 8)
    let s := s.logErr (s.mkErr Err.DEBUG_GRANT sevInfo nodeWainil)
    if was then s else s.raiseIrq .sec 0 0

/-- SUBMIT (R501): the record is checked and, when accepted, takes effect; SUBMIT and BUSY read 1 until the check ends, and RESULT follows then (notes/assumptions/42.md). -/
def State.submitRecord (s : State) : State :=
  if s.on MGT_REC_CTL.BUSY then s.conflict MGT_REC_CTL.WORD.base Err.RECORD_BUSY
  else
    let r := s.recordWin
    let c := s.recordResult r
    let s := ((s.updMgmt fun m => { m with record := some c }).wr MGT_REC_CTL.BUSY 1).wr MGT_REC_CTL.SUBMIT 1
    if c ≠ 0 then s
    else match fieldAt r 4 1 with
      | 1 => s.fuseOwner r
      | 2 => s.storeKey r
      | _ => s.grantDebug r

/-- A record of a given TYPE is submitted. -/
def State.submitType (s : State) (t : Nat) : State := if fieldAt s.recordWin 4 1 = t then s.submitRecord else s

/-- An OWNER record (R502). -/
def execOwnerRecord (q : Requester) (s : State) : Res := s.action q .mgt 0 0x180 fun s => s.submitType 1

/-- A MODEL_KEY record (R503). -/
def execModelKeyRecord (q : Requester) (s : State) : Res := s.action q .mgt 0 0x180 fun s => s.submitType 2

/-- A DEBUG_AUTH record (R507). -/
def execDebugAuthRecord (q : Requester) (s : State) : Res := s.action q .mgt 0 0x180 fun s => s.submitType 3

/-- The check of the record ends (R501, R551). -/
def execRecordCheckComplete (s : State) : Res :=
  match s.mgmt.record with
  | none => .next s
  | some c =>
    .next (((((s.updMgmt fun m => { m with record := none }).wr MGT_REC_CTL.SUBMIT 0).wr MGT_REC_CTL.BUSY 0).wr MGT_REC_CTL.RESULT c.toNat).raiseIrq .mgt 0 2)

/-! Debug authorisation (R505, R507). -/

/-- SEC_NONCE_CTL.GEN draws a nonce. -/
def State.genNonce (s : State) : State :=
  let b := (Config.random s.mgmt.draws ++ List.replicate 16 0).take 16
  let s := s.updMgmt fun m => { m with nonce := some b, draws := m.draws + 1 }
  (List.range 4).foldl (fun (s : State) n => s.wr SEC_NONCEn.NONCE (leNat ((b.drop (4 * n)).take 4)) 0 n) s

def execGen (q : Requester) (s : State) : Res := s.action q .sec 0 0x110 State.genNonce

/-- SEC_DEBUG.REVOKE. -/
def execRevoke (q : Requester) (s : State) : Res := s.action q .sec 0 0x124 State.endGrant

/-- NOT_AFTER is reached. -/
def execDebugGrantExpire (s : State) : Res :=
  match s.mgmt.grant with
  | none => .next s
  | some g => .next (if g.2 ≠ 0 ∧ g.2 ≤ s.rackTime then s.endGrant else s)

end Sys2Proof.Machine
end

