-- ==== Sys2Proof/Machine/Sweep.lean ====
section
/-!
DEFINITION. The sweep (R537 to R542), the power connector's mating detect (R575) and the test port (R573).
-/
namespace Sys2Proof.Machine

/-! Core chunks (R539, R540). -/

/-- Whether core `c` is the next of its wing's round: the lowest logical number not yet swept in this pass (DEDUCED, notes/assumptions/92.md). -/
def State.sweepTurn (s : State) (c : Nat) : Bool := ((wingCores (wingOf c)).find? fun k => !s.sweepRound.contains k) == some c

/-- A chunk starts only while no step is in progress, the sweep may run and its wing takes a core at all (R538, R539, R541). Each chunk is over when it is made, so no
second one of its wing runs beside it (DEDUCED, notes/assumptions/92.md). -/
def State.chunkMay (s : State) (c : Nat) : Bool := !s.step.active && s.sweepMay && s.sweepTurn c && decide (0 < s.rd SWP_CTL.CORES_PER_WING)

/-- The core is swept in this pass; a pass over every core counts (R542) (DEDUCED, notes/assumptions/92.md). -/
def State.markSwept (s : State) (c : Nat) : State :=
  let r := s.sweepRound ++ [c]
  if r.length < 4096 then { s with sweepRound := r } else ({ s with sweepRound := [] }.bump SWP_STS.PASSES)

/-- A core chunk from its start to the core reset that ends it; `good` is what BIST and golden vectors find (DEDUCED, notes/assumptions/92.md). -/
def execCoreChunk (c : CoreId) (good : Bool) (s : State) : Res :=
  let n := c.toNat
  if !s.chunkMay n then .next s
  else
    let s := ((s.sweepWake.coreReset n).markSwept n).updCore n fun k => { k with swept := true, sweptAt := s.rackTime, lateCount := 0 }
    if good then .next ((s.restartCore n).endScope Err.SWEEP_LATE n)
    else
      let s := (((s.bump SWP_FAILS.CORE).wr SWP_LAST_CORE.VALID 1).wr SWP_LAST_CORE.CORE n).raiseIrq .swp 0 0
      .next (s.fatal (s.mkErr Err.SWEEP_CORE_FAIL sevPackage n))

/-- A core has passed another whole interval without a sweep (R541). -/
def execSweepLate (c : CoreId) (s : State) : Res :=
  let n := c.toNat
  let missed := (s.rackTime - s.lastSweep n) / s.sweepInterval
  if missed ≤ (s.core n).lateCount then .next s
  else
    let s := (s.updCore n fun k => { k with lateCount := missed }).endScope Err.SWEEP_LATE n
    .next ((s.logErr (s.mkErr Err.SWEEP_LATE sevInfo n) n).raiseIrq .swp 0 2)

/-! Idle lanes (R537, R540). -/

/-- Whether a lane carries no traffic and is to be tested: a spare that replaces none and is not mapped out, once per hour, or any lane while the package is OUT or
OUTSIDE. -/
def State.laneIdle (s : State) (l : Nat) : Bool :=
  decide (s.pair.member = .out) || decide (s.pair.member = .outside) ||
    (!isPairLane l && !s.mappedOut l && (s.wing (laneWing l)).spares.contains (laneLocal l) && !(s.lane l).carrying &&
      decide ((s.lane l).testedAt + 3600000000000 ≤ s.rackTime))

/-- A lane runs PRBS31 for 1 ms: any uncorrectable codeword, or more than 224 corrected symbols, fails it. -/
def execLaneBerTest (l : Lane) (uncorrectable corrected : Nat) (s : State) : Res :=
  if !s.sweepMay ∨ !s.laneIdle l then .next s
  else
  let s := s.sweepWake
  if uncorrectable = 0 ∧ corrected ≤ 224 then .next (s.updLane l fun a => { a with testedAt := s.rackTime })
  else
    let s := ((s.mapOut l).bump SWP_FAILS.LANE).raiseIrq .swp 0 1
    .next (s.logErr (s.mkErr Err.SWEEP_LANE_FAIL sevInfo (laneNode l)))

/-! The power connector (R575). -/

/-- MATE_DET breaks: issue is cut, the ledger written, and V64 disconnected. -/
def execMateDetBreak (s : State) : Res :=
  .next ({ s with pins := { s.pins with mated := false } }.powerOff)

/-! The test port (R573). -/

/-- The boundary instructions act only OUTSIDE and in Glow or Burning. -/
def State.boundaryScan (s : State) (name : String) : State :=
  let ok : Bool := decide (s.pair.member = .outside) && (decide (s.power.fire = .glow) || decide (s.power.fire = .burning))
  s.emit (.jtag (if ok then name else "BYPASS") 0)

def execJtagExtest (s : State) : Res := .next (s.boundaryScan "EXTEST")
def execJtagExtestPulse (s : State) : Res := .next (s.boundaryScan "EXTEST_PULSE")
def execJtagExtestTrain (s : State) : Res := .next (s.boundaryScan "EXTEST_TRAIN")

/-- IDCODE: revision B0 and part number 0x5A47; the BSDL file gives the rest. -/
def execJtagIdcode (s : State) : Res := .next (s.emit (.jtag "IDCODE" ((0xB5A47 : BitVec 20) ++ Config.idcodeLow)))

/-- Private instructions act as BYPASS without a JTAG_PRIVATE grant (R506). -/
def execJtagPrivateInstruction (s : State) : Res :=
  let ok : Bool := match s.mgmt.grant with | some g => decide (g.1 / 2 % 2 = 1) | none => false
  .next (s.emit (.jtag (if ok then "PRIVATE" else "BYPASS") 0))

end Sys2Proof.Machine
end

