-- ==== Sys2Proof/Machine/Registers.lean ====
section
/-!
DEFINITION. What a register reads as (R10, R13, R549 to R561): the registers that show machine state are computed from it, and the others hold
their word.
-/
namespace Sys2Proof.Machine

/-! The register table as a map. -/

/-- Whether a register array holds a page offset. -/
def RegDesc.holds (r : RegDesc) (o : Nat) : Bool :=
  if r.count ≤ 1 ∨ r.stride = 0 then decide (o = r.off)
  else decide (r.off ≤ o) && decide ((o - r.off) % r.stride = 0) && decide ((o - r.off) / r.stride < r.count)

/-- The register at a page offset of a block; none where the offset is reserved (R549, R553). -/
def regAt (b : Block) (o : Nat) : Option RegDesc :=
  if o < 0x100 then headerRegs.find? fun r => r.holds o else b.regs.find? fun r => r.holds o

/-- The reset value of a register's word. -/
def RegDesc.reset (r : RegDesc) : Nat := r.fields.foldl (fun w f => w + f.rst * 2 ^ f.lo) 0

/-- The whole word of a register as a field, by its BAR0 offset. -/
def RegDesc.fld (r : RegDesc) (off : Nat) : Fld := ⟨off, 0, 31, 0, r.reset⟩

/-! Words computed from the machine (RO fields and fields that hardware updates). -/

/-- A word of the directory (R553 to R555). -/
def dirWordAt (q : Requester) (o : Nat) : Option Nat :=
  match q with
  | .vf p =>
    match o with
    | 0x100 => some 2
    | 0x104 => some (2 ^ 31 + p.val)
    | 0x108 => some 1
    | 0x10C => some (p.val * 2 ^ 16)
    | 0x110 => some (Block.code .por * 2 ^ 24 + 1)
    | 0x114 => some (p.val * 2 ^ 16 + 1)
    | _ => none
  | _ =>
    if o < 0x108 then none
    else
      match Block.all[(o - 0x108) / 8]? with
      | none => none
      | some b => some (if o % 8 = 0 then b.code * 2 ^ 24 + b.pages.2 else b.pages.1)

/-- The state code of a context (R67). -/
def CtxState.code : CtxState → Nat
  | .halted => 0
  | .ready => 1
  | .running => 2
  | .waitRemote => 3
  | .waitRecv => 4
  | .waitSync => 5
  | .waitImem => 6
  | .faulted => 15

/-- CORE_HEARTH_STS (R167). -/
def Core.hearthWord (k : Core) : Nat :=
  (match k.holder with | some x => 2 ^ 31 + x * 2 ^ 28 | none => 0) + k.file.mode.code * 2 ^ 26 + k.hearthQ.length * 2 ^ 23 +
    (if k.file.mode = .exact then (BitVec.ofInt 10 k.file.w).toNat * 2 ^ 11 else 0) + (k.file.ents.filter fun e => e.2.sat).length

/-- The words of a digest, or zero when there is none. -/
def digestWord (d : Option Bytes) (m : Nat) : Nat :=
  match d with
  | some b => fieldAt b (4 * m) 4
  | none => 0

/-- The longest free run of model extents (R331). -/
def State.largestRun (s : State) : Nat :=
  let free := s.regionBounds.2 - s.regionBounds.1
  (List.range (free + 1)).foldl (fun m n => if (s.freeRun s.extentsUsed n).isSome then n else m) 0

/-- Free model extents (R331). -/
def State.freeExtents (s : State) : Nat := s.regionBounds.2 - s.regionBounds.1 - (s.extentsUsed.map (·.2)).sum

/-- Spares left of a kind: the fewest in any place (R379) (DESIGN CHOICE, notes/assumptions/99.md). -/
def sparesLeft (kind places : Nat) (used : SMap Nat) : Nat :=
  (List.range places).foldl (fun m k => min m (Config.spares kind k - SMap.get 0 used k)) 0xFFFF

/-- Whether a perturbation grant is in force (R506). -/
def State.mayPerturb (s : State) : Bool := match s.mgmt.grant with | some g => decide (g.1 % 2 = 1) | none => false

/-- The client that SEQ_CLI_SEL names, with what this package has written and no boundary has applied yet (R10, R261) (DEDUCED, notes/assumptions/94.md). -/
def State.cliView (s : State) : Client :=
  let n := s.rd SEQ_CLI_SEL.CLIENT
  (s.cliChanges.filter fun k => decide (k.client = n)).foldl (fun c k =>
    { c with owner := k.owner.getD c.owner, rate := k.rate.getD c.rate, burst := k.burst.getD c.burst }) (s.client (clientKey s.me n))

/-- The credit of the selected client at the last boundary; zero before the first (R262, R271). -/
def State.cliCredit (s : State) : Nat :=
  if s.rd64 SEQ_BOUNDARY_LO.TIME = 0 then 0 else (s.client (clientKey s.me (s.rd SEQ_CLI_SEL.CLIENT))).credit

/-- Counter `m` of the selected client (R264). -/
def State.cliAcct (s : State) (m : Nat) : Nat := (s.client (clientKey s.me (s.rd SEQ_CLI_SEL.CLIENT))).acct.getD m 0

/-- The low or high word of a 64-bit quantity, by the offset of the word in its pair. -/
def half64 (v k : Nat) : Nat := v / 2 ^ (32 * k) % 2 ^ 32

/-- The word of a page that shows machine state; none where the register holds its own word. `w` is the word held. -/
def State.liveWord (s : State) (q : Requester) (b : Block) (i o w : Nat) : Option Nat :=
  match b with
  | .dir => dirWordAt q o
  | .hal => none
  | .mgt =>
    match o with
    | 0x100 => some (w + modeCode s.mgmt.mode * 2 ^ 30 + (if s.mgmt.pendingAct then 2 ^ 29 else 0))
    | 0x110 => some (half64 s.mgmt.nextSeq 0)
    | 0x114 => some (half64 s.mgmt.nextSeq 1)
    | _ => if 0x140 ≤ o ∧ o < 0x180 then some (fieldAt s.mgmt.selected (o - 0x140) 4) else none
  | .sec =>
    match o with
    | 0x100 => some ((if s.kept.ownerDigest.isSome then 2 ^ 31 else 0) +
        (List.range 8).foldl (fun m n => if (SMap.get none s.kept.mkeys n).isSome then m + 2 ^ n else m) 0)
    | 0x104 => some (half64 s.kept.serial.toNat 0)
    | 0x108 => some (half64 s.kept.serial.toNat 1)
    | 0x10C => some (setBitsN w 5 0 s.kept.svnMin)
    | 0x124 => some (match s.mgmt.grant with | some g => 2 ^ 31 + g.1 % 8 | none => 0)
    | _ =>
      if 0x200 ≤ o ∧ o < 0x220 then some (SMap.get 0 s.kept.mkeySeq ((o - 0x200) / 4))
      else if 0x300 ≤ o ∧ o < 0x340 then some (digestWord s.kept.ownerDigest ((o - 0x300) / 4))
      else if 0x400 ≤ o ∧ o < 0x600 then some (digestWord ((SMap.get none s.kept.mkeys ((o - 0x400) / 0x40)).map sha512) ((o - 0x400) % 0x40 / 4))
      else none
  | .pwr =>
    match o with
    | 0x100 => some (setBitsN (setBitsN w 27 24 s.targetOp) 11 0 s.railMv)
    | 0x120 => some (w + (if s.power.brakeN then 2 ^ 15 else 0) + (if s.power.warnN then 2 ^ 14 else 0))
    | 0x124 => some (min ((s.rackTime - s.power.lastKick) / 100000000) 0xFFFF * 2 ^ 16)
    | 0x130 => some (setBitsN w 31 29 (fireCode s.power.fire))
    | _ => none
  | .thm => none
  | .swp =>
    match o with
    | 0x104 => some (w + (if !s.on SWP_CTL.ENABLE ∨ s.perturbed then 2 ^ 31 else 0) +
        (if (List.range 4096).any fun c => decide (s.lastSweep c + s.sweepInterval < s.rackTime) then 2 ^ 30 else 0))
    | _ => none
  | .pair =>
    match o with
    | 0x104 => some (w + memberCode s.pair.member * 2 ^ 29 + s.position * 2 ^ 28 + (if s.seenLately s.pair.lastHb then 2 ^ 27 else 0) +
        (if s.seenLately s.pair.lastAlive then 2 ^ 26 else 0) + s.pairLanes * 2 ^ 16)
    | 0x108 => some (if s.pair.member = .rejoining then w else setBitsN w 31 31 0)
    | 0x118 => some (w + (if s.pins.refclkOk then 2 ^ 30 else 0) + (if s.pins.syncOk then 2 ^ 29 else 0))
    | 0x11C => some (half64 s.rackTime 0)
    | 0x120 => some (half64 s.rackTime 1)
    | _ => none
  | .cel =>
    match o with
    | 0x100 => some s.celCapWord
    | 0x110 => some (w + sparesLeft 1 49152 s.kept.spareRows)
    | 0x114 => some (w + sparesLeft 0 192 s.kept.spareLanes)
    | _ => none
  | .seq =>
    match o with
    | 0x10C => some s.liveSeqs.length
    | 0x128 => some (w + (if s.cfgPending then 2 ^ 29 else 0))
    | 0x404 => some (s.cliView.owner * 2 ^ 28 + s.cliView.rate)
    | 0x408 => some s.cliView.burst
    | 0x40C => some (half64 s.cliCredit 0)
    | 0x410 => some (half64 s.cliCredit 1)
    | 0x808 => some s.kvFree
    | 0x820 => some (w + min s.kv.inLoft.length 0xFFFF)
    | _ =>
      if 0x240 ≤ o ∧ o < 0x280 then some (s.partLive s.me ((o - 0x240) / 4))
      else if 0x420 ≤ o ∧ o < 0x450 then some (half64 (s.cliAcct ((o - 0x420) / 8)) ((o - 0x420) % 8 / 4))
      else none
  | .mdl =>
    match o with
    | 0x108 => some (s.largestRun * 2 ^ 16 + s.freeExtents)
    | 0x10C => some (match s.seated with | some n => 2 ^ 31 + n | none => 0)
    | 0x128 => some (s.slots.foldl (fun n e => if e.2.st.code.1 = 1 ∨ e.2.st.code.1 = 2 then n + e.2.done.length else n) 0)
    | _ =>
      if 0x400 ≤ o ∧ o < 0xE00 then some ((s.slotWords ((o - 0x400) / 40) s.step.lastBoundary).getD ((o - 0x400) % 40 / 4) 0)
      else none
  | .por =>
    match o with
    | 0x104 => some (s.porch i).next.toNat
    | 0x11C => some (s.ring i).prod.toNat
    | 0x120 => some (s.ring i).cons.toNat
    | 0x124 => some (s.ring i).heldRecords
    | 0x130 => some (half64 (s.rd64 SEQ_STEP_ID_LO.STEP) 0)
    | 0x134 => some ((if (s.ring i).prod = (s.ring i).cons ∧ (s.ring i).held = [] then 2 ^ 31 else 0) +
        (if (s.ring i).held = [] then 0 else 2 ^ 30) + half64 (s.rd64 SEQ_STEP_ID_LO.STEP) 1 % 2 ^ 30)
    | _ => none
  | .wng =>
    match o with
    | 0x100 => some ((if (s.wing i).resetting then 2 ^ 31 else 0) +
        ((List.range 32).filter fun y => (SMap.get none s.kept.remaps (32 * i + y)).isSome).length)
    | 0x104 => some (half64 s.rackTime 0)
    | 0x108 => some (half64 s.rackTime 1)
    | 0x10C => some (min (s.step.takeWaits.filter fun t => decide (wingOf t.core = i)).length 0xFFF * 2 ^ 20 +
        min (s.step.descs.filter fun d => decide (d.wing = i) && s.available (planGroups (s.plan s.step.modelSlot)) d).length 0xFFFFF)
    | _ =>
      if 0x200 ≤ o ∧ o < 0x280 then
        some (match SMap.get none s.kept.remaps (32 * i + (o - 0x200) / 4) with
          | some (c, inService) => (if inService then 2 ^ 7 else 0) + 2 ^ 6 + c
          | none => 0x3F)
      else if 0x400 ≤ o ∧ o < 0x480 then
        some (min (SMap.get 0 s.kept.wear (ledgerKey i ((o - 0x400) / 4) 31) / stressSecond) 0xFFFFFFFF)
      else if 0x480 ≤ o ∧ o < 0x500 then
        some (min (SMap.get 0 s.kept.wear (ledgerKey i ((o - 0x480) / 4) 32) / stressSecond) 0xFFFFFFFF)
      else none
  | .lar =>
    match o with
    | 0x10C => some ((if (s.wing i).larder = [] ∧ !((s.wing i).larQueue.any fun q => decide (q.moved ≠ 0)) then 0 else 2 ^ 31) + (s.wing i).larder.length + (s.wing i).larQueue.length)
    | _ => none
  | .cmp =>
    if 0x100 ≤ o ∧ o < 0x140 then
      let t := SMap.get TableSlot.reset (s.wing i).tables ((o - 0x100) / 4)
      some ((if t.valid then 2 ^ 31 else 0) + (if t.pend.isSome then 2 ^ 30 else 0) + t.gen % 256 * 2 ^ 16 + t.inflight)
    else none
  | .fab =>
    match o with
    | 0x104 => some ((List.range 18).foldl (fun m l => if (s.lane (18 * i + l)).carrying then m + 2 ^ l else m) 0)
    | 0x124 => some (s.pair.epoch % 256)
    | 0x128 => some (w + (s.wing i).xrack.length * 2 ^ 16)
    | _ => none
  | .core =>
    match o with
    | 0x100 => some ((List.range 8).foldl (fun m x => m + ((s.core i).ctx x).st.code * 16 ^ x) 0)
    | 0x108 => some (half64 (s.core i).hsCnt.toNat 0)
    | 0x10C => some (half64 (s.core i).hsCnt.toNat 1)
    | 0x118 => some (s.core i).hearthWord
    | _ => none

/-- A word of the common header that is fixed for its page or computed (R545, R549); none where the register holds its own word (DEDUCED, notes/assumptions/98.md). -/
def State.headerWord (s : State) (b : Block) (i page o w : Nat) : Option Nat :=
  match o with
  | 0x000 => some (b.code * 2 ^ 24 + i * 2 ^ 8 + 1)
  | 0x008 => some ((if b.hasPtb then 2 ^ 31 else 0) + b.irqBits)
  | 0x010 => some ((if s.mayPerturb then 0 else 2 ^ 31) + (if s.on PG_PTB_STS.ACTIVE page then 2 ^ 30 else 0) +
      (if s.rd PG_IRQ_STS.SOURCES page &&& s.rd PG_IRQ_EN.SOURCES page ≠ 0 then 2 ^ 29 else 0))
  | _ => if 0x040 ≤ o ∧ o ≤ 0x05C ∧ !b.hasPtb then some 0 else if o = 0x00C then some (setBitsN w 1 1 0) else none

/-- The word in effect at a page offset (R5, R10): zero at a reserved offset. -/
def State.readWord (s : State) (q : Requester) (b : Block) (i page o : Nat) : Nat :=
  let w := match regAt b o with | some r => s.rd (r.fld (page * 0x1000 + o)) | none => 0
  if o < 0x100 then (s.headerWord b i page o w).getD w else (s.liveWord q b i o w).getD w

/-! MSI-X pages (R275, R550, R557). -/

/-- A word of a function's MSI-X table or PBA. -/
def State.msixWord (s : State) (fn : Nat) (pba : Bool) (o : Nat) : Nat :=
  if pba then (List.range 32).foldl (fun m k => if s.pcie.pba.contains (fn, o * 8 + k) then m + 2 ^ k else m) 0
  else if o / 16 < msixSize fn then (SMap.get (msixDefault (4096 * fn + o / 4)) s.pcie.msix (4096 * fn + o / 4)).toNat
  else 0

/-- A write of a word of a function's MSI-X table: the Mask bit alone of a vector control word; a pending vector goes out once it is unmasked, while the
endpoint can write. -/
def State.msixWrite (s : State) (fn : Nat) (pba : Bool) (o : Nat) (v : Word) : State :=
  if pba ∨ msixSize fn ≤ o / 16 then s
  else
    let key := 4096 * fn + o / 4
    let x : Word := if o / 4 % 4 = 3 then v &&& 1 else if o / 4 % 4 = 0 then v &&& 0xFFFFFFFC else v
    let s : State := { s with pcie := { s.pcie with msix := SMap.set (msixDefault key) s.pcie.msix key x } }
    if o / 4 % 4 = 3 ∧ x = 0 ∧ s.pcie.pba.contains (fn, o / 16) ∧ s.hostOpen then
      { s with pcie := { s.pcie with pba := s.pcie.pba.filter fun e => decide (e ≠ (fn, o / 16)) } }.emit (.msix fn (o / 16))
    else s

/-! Latches (R13, R559). -/

/-- A requester's number in the keys of latches and held words. -/
def reqCode : Requester → Nat
  | .pf => 0
  | .vf p => p.val + 1
  | .wainil => 17

/-- The key of a requester's latch or held word, by the offset of the low register. -/
def latchKey (q : Requester) (lowOff : Nat) : Nat := 2 ^ 27 * reqCode q + lowOff

/-- What a high word reads as before the requester's first low-word read: its reset value (R13); a fused word is its own reset value. -/
def State.highReset (s : State) (q : Requester) (b : Block) (i page o : Nat) : Nat :=
  if b = .sec ∧ o = 0x108 then s.readWord q b i page o else match regAt b o with | some r => r.reset | none => 0

/-- A read of a register: the low word of a pair latches the high word, and the high word returns the latch. -/
def State.readReg (s : State) (q : Requester) (b : Block) (i page o : Nat) : Nat × State :=
  let v := s.readWord q b i page o
  match (regAt b o).map RegDesc.pairing with
  | some Pairing.low =>
    (v, { s with latch := SMap.set none s.latch (latchKey q (page * 0x1000 + o)) (some (BitVec.ofNat 32 (s.readWord q b i page (o + 4)))) })
  | some Pairing.high =>
    match SMap.get none s.latch (latchKey q (page * 0x1000 + o - 4)) with
    | some x => (x.toNat, s)
    | none => (s.highReset q b i page o, s)
  | _ => (v, s)

/-- A read by a requester at an offset of its BAR0, and the word it returns (R12, R514, R556). -/
def State.readBar (s : State) (q : Requester) (off : Nat) : Nat × State :=
  match msixPage q off with
  | some (fn, pba) => if s.inRecovery then (0xFFFFFFFF, s.missed q off) else (s.msixWord fn pba (off % 0x1000), s)
  | none =>
    if off % 4 ≠ 0 then (0xFFFFFFFF, s.logRegAccess off)
    else
    match (reqPage q off).bind fun g => (pageBlock g).map fun b => (g, b) with
    | none => (0xFFFFFFFF, s.logRegAccess off)
    | some (g, b, i) => if s.serves b then s.readReg q b i g (off % 0x1000) else (0xFFFFFFFF, s.missed q off)

end Sys2Proof.Machine
end

