-- ==== Sys2Proof/Machine/Access.lean ====
section
/-!
DEFINITION. Writes and reads of registers over PCIe (R5, R6, R10 to R13, R544 to R559): the access codes, refused writes, the common header, the
pairs of R13, and the effect each register's field has.
-/
namespace Sys2Proof.Machine

/-! Access codes (R6, R10). -/

/-- A word after a write by the access codes of its fields: a reserved encoding leaves its field, and a W1S bit starts its action elsewhere. -/
def applyFields (fs : List FieldDesc) (w v : Nat) : Nat :=
  fs.foldl (fun w f =>
    let x := bitsN v f.hi f.lo
    match f.acc with
    | .rw | .rwl => if f.legal.ok x then setBitsN w f.hi f.lo x else w
    | .w1c => setBitsN w f.hi f.lo (bitsN w f.hi f.lo - (bitsN w f.hi f.lo &&& x))
    | .ro | .w1s => w) w

/-- Write a register by its access codes. -/
def State.writeFields (s : State) (r : RegDesc) (off v : Nat) : State := s.wr (r.fld off) (applyFields r.fields (s.rd (r.fld off)) v) 0 0

/-! Live units (R544): the conditions that refuse a write. -/

/-- Whether a frame of the pool or a unit of the loft is allocated (R200). -/
def State.kvLive (s : State) : Bool := decide (s.kv.frames ≠ []) || decide (s.kv.loftUnits ≠ [])

/-- Whether two runs of frames meet. -/
def runsMeet (a n b m : Nat) : Bool := decide (n ≠ 0) && decide (m ≠ 0) && decide (a < b + m) && decide (b < a + n)

/-- Whether a model region of extents meets the sequence table of 8 MiB or the KV pool, all given in their registers' units (R302). -/
def regionMeets (base size table kvBase kvSize : Nat) : Bool :=
  runsMeet (1024 * base) (1024 * size) table 128 || runsMeet (1024 * base) (1024 * size) kvBase kvSize

/-- Whether the package is a household member (R436). -/
def State.inHousehold (s : State) : Bool := decide (s.pair.member ≠ .outside)

/-- Why a write of a register is refused as a whole, if it is (R200, R270, R299, R302, R429, R436, R439, R442, R462, R470, R495, R496, R501, R524,
R527). -/
def State.refusal (s : State) (b : Block) (i o v : Nat) : Option Code :=
  let bit (n : Nat) : Bool := decide (bitsN v n n = 1)
  let region (t k n : Nat) : Bool := regionMeets (s.rd MDL_REGION.BASE) (s.rd MDL_REGION.SIZE) t k n
  match b with
  | .hal =>
    match o with
    | 0x104 =>
      if bit 31 ∧ !s.outOfService then some Err.RESET_STATE
      else if bitsN v 3 0 ≠ 0 ∧ s.pair.member ≠ .outside ∧ s.pair.member ≠ .out then some Err.RESET_STATE else none
    | 0x108 =>
      if bit 31 ∧ (s.rd HAL_BOOT_STS.STAGE ≠ 6 ∨ s.on HAL_BOOT_STS.FAIL ∨ s.kept.condemned ∨ s.inHousehold) then some Err.FORM_STATE else none
    | _ => if 0x10C ≤ o ∧ o ≤ 0x118 ∧ (s.on HAL_FORM.FORMING ∨ s.inHousehold) then some Err.FORM_STATE else none
  | .mgt =>
    match o with
    | 0x10C =>
      if bit 31 ∧ s.pair.member ≠ .paired then some Err.HANDOVER_STATE
      else if bit 30 ∧ s.pair.member ≠ .out ∧ s.pair.member ≠ .outside then some Err.REMAP_STATE else none
    | 0x180 => if bit 31 ∧ s.on MGT_REC_CTL.BUSY then some Err.RECORD_BUSY else none
    | _ => if 0x400 ≤ o ∧ s.on MGT_REC_CTL.BUSY then some Err.RECORD_BUSY else none
  | .sec => if o = 0x10C ∧ bit 31 ∧ !s.ranDay then some Err.SVN_EARLY else none
  | .pwr => if o = 0x12C ∧ bit 24 ∧ s.power.fire ≠ .smoored ∧ !s.outOfService then some Err.SMOORED_MEMBER else none
  | .pair =>
    match o with
    | 0x100 =>
      if s.inHousehold ∧ bitsN v 7 0 ≤ 35 ∧ bitsN v 7 0 ≠ s.rd PAIR_CTL.PAIR_NUM then some Err.PAIR_LIVE else none
    | 0x108 =>
      if bit 31 ∧ (s.pair.member ≠ .out ∨ !s.partnerAlone ∨ s.mustRepair) then some Err.REJOIN_STATE
      else if bit 31 ∧ s.hhAbi ≠ s.pair.hhAbi then some Err.FW_ABI
      else if bit 30 ∧ (s.pair.member = .paired ∨ s.pair.member = .alone ∨ s.pair.member = .rejoining) then some Err.PAIR_LIVE else none
    | 0x118 => if bit 31 ∧ s.inHousehold then some Err.RTIME_LIVE else none
    | _ => if 0x200 ≤ o ∧ o < 0x360 ∧ (s.lane ((o - 0x200) / 4)).carrying then some Err.PLAN_LIVE else none
  | .seq =>
    let kv := s.rd SEQ_KV_BASE.FIRST_FRAME
    let n := s.rd SEQ_KV_SIZE.FRAMES
    let t := s.rd SEQ_TABLE_BASE.FRAME
    match o with
    | 0x120 => if s.liveSeqs ≠ [] then some Err.TABLE_LIVE else if region (bitsN v 23 0) kv n then some Err.REGION_OVERLAP else none
    | 0x800 => if s.kvLive then some Err.KV_LIVE else if region t (bitsN v 23 0) n then some Err.REGION_OVERLAP else none
    | 0x804 =>
      if s.kvLive ∧ !s.inHousehold then some Err.KV_LIVE else if region t kv (bitsN v 23 0) then some Err.REGION_OVERLAP else none
    | 0x80C => if s.kvLive then some Err.KV_LIVE else none
    | 0x818 => if s.kvLive ∧ !s.inHousehold then some Err.KV_LIVE else none
    | _ => none
  | .mdl =>
    if o = 0x104 then
      if regionMeets (bitsN v 31 16) (bitsN v 15 0) (s.rd SEQ_TABLE_BASE.FRAME) (s.rd SEQ_KV_BASE.FIRST_FRAME) (s.rd SEQ_KV_SIZE.FRAMES)
      then some Err.REGION_OVERLAP
      else if s.slots.any fun e => decide (e.2.st ≠ .evicted) then some Err.MODEL_LIVE else none
    else none
  | .por => if o = 0x110 ∧ s.ringOn i then some Err.RING_LIVE else none
  | _ => none

/-- Why a write of a 64-bit quantity is refused, by the page offset of its low word (R200, R299, R380). -/
def State.pairRefusal (s : State) (b : Block) (i low : Nat) : Option Code :=
  match b with
  | .seq => if low = 0x810 ∧ s.kvLive then some Err.KV_LIVE else none
  | .por => if (low = 0x108 ∨ low = 0x114) ∧ s.ringOn i then some Err.RING_LIVE else none
  | .lar => if low = 0x104 ∧ s.on LAR_CTL.ENABLE i then some Err.LARDER_LIVE else none
  | _ => none

/-! Registers whose writes act. -/

/-- PWR_CAP_CTL (R456, R458): setting HB_EN starts the 5 s timer, and a safe cap in force takes a new SAFE_CAP_W at once. -/
def State.capCtlWrite (s : State) (r : RegDesc) (off v : Nat) : State :=
  let old := s.capNow
  let was := s.on PWR_CAP_CTL.HB_EN
  let s := s.writeFields r off v
  let s := if !was ∧ s.on PWR_CAP_CTL.HB_EN then s.kickCmd else s
  s.recap old

/-- SEQ_CFG_COMMIT (R269, R551): GO has an effect only in a household. -/
def State.cfgCommitWrite (s : State) (v : Nat) : State :=
  let go : Bool := decide (bitsN v 31 31 = 1) && s.inHousehold && !s.on SEQ_CFG_COMMIT.GO
  let clear : Bool := decide (bitsN v 30 30 = 1) && s.on SEQ_CFG_COMMIT.MISMATCH
  let s := if go then s.wr SEQ_CFG_COMMIT.GO 1 else s
  let s := if clear then s.wr SEQ_CFG_COMMIT.MISMATCH 0 else s
  if go || clear then s.raiseIrq .seq 0 1 else s

/-- A change of the client that SEQ_CLI_SEL names, for the next boundary (R261) (DEDUCED, notes/assumptions/94.md). -/
def State.stageClient (s : State) (owner rate burst : Option Nat) : State :=
  { s with cliChanges := s.cliChanges ++ [{ client := s.rd SEQ_CLI_SEL.CLIENT, owner := owner, rate := rate, burst := burst }] }

/-- A write of a household-configuration register by a member goes to the staged copy (R268) (DEDUCED, notes/assumptions/94.md). -/
def State.stageWord (s : State) (r : RegDesc) (off v : Nat) : State :=
  let w := match SMap.get none s.staged off with | some x => x.toNat | none => s.rd (r.fld off)
  { s with staged := SMap.set none s.staged off (some (BitVec.ofNat 32 (applyFields r.fields w v))) }

/-- MGT_LOG_SEL_HI (R482): the record of the sequence number written is held as it stands, for MGT_LOG_DATAn. The words of a record that is not present are
free (notes/assumptions/1.md) (DESIGN CHOICE, notes/assumptions/97.md). -/
def State.selectLog (s : State) (hi : Nat) : State :=
  let s := s.wr MGT_LOG_SEL_HI.SEQ hi
  let n := s.rd MGT_LOG_SEL_LO.SEQ + 2 ^ 32 * hi
  match s.mgmt.log.find? fun r => decide (r.seq = n) with
  | some r => (s.wr MGT_LOG_STS.VALID 1).updMgmt fun m => { m with selected := r.bytes }
  | none =>
    (List.range 16).foldl (fun (s : State) _ => s.draw.2.updMgmt fun m => { m with selected := m.selected ++ leBytes 4 (s.draw.1.toNat % 2 ^ 32) })
      ((s.wr MGT_LOG_STS.VALID 0).updMgmt fun m => { m with selected := [] })

/-- CEL_PROBE (R361, R379): the mapping of the address. -/
def State.probe (s : State) (a : Nat) : State :=
  let h := celHash a
  let s := ((s.wr CEL_PROBE_RES.STACK h.1).wr CEL_PROBE_RES.PC h.2.1).wr CEL_PROBE_RES.PLANE h.2.2.1
  s.wr CEL_PROBE_RES.VALID (if a < s.cellarBytes then 1 else 0)

/-- PAIR_MAINT (R428, R436, R443): LANE, then each command whose bit is 1, in the order RELEASE, FORCE, LEAVE, REJOIN, which no rule gives
(DESIGN CHOICE, notes/assumptions/136.md). -/
def State.pairMaint (s : State) (v : Nat) : State :=
  let s := if bitsN v 6 0 ≤ 87 then s.wr PAIR_MAINT.LANE (bitsN v 6 0) else s
  let s := if bitsN v 29 29 = 1 then s.releaseCmd (s.rd PAIR_MAINT.LANE) else s
  let s := if bitsN v 28 28 = 1 then s.forceCmd else s
  let s := if bitsN v 30 30 = 1 then s.leaveCmd else s
  if bitsN v 31 31 = 1 then s.rejoinCmd else s

/-- MGT_MAINT (R496): CORE, then RETIRE and then HANDOVER, an order that no rule gives (DESIGN CHOICE, notes/assumptions/136.md). -/
def State.mgtMaint (s : State) (v : Nat) : State :=
  let s := s.wr MGT_MAINT.CORE (bitsN v 11 0)
  let s := if bitsN v 30 30 = 1 then s.retireCmd v else s
  if bitsN v 31 31 = 1 then s.handoverCmd else s

/-- HAL_RESET (R524, R525). -/
def State.halReset (s : State) (v : Nat) : State :=
  let s := (List.range 4).foldl (fun (s : State) w => if bitsN v w w = 1 then s.wingCmd w else s) s
  if bitsN v 31 31 = 1 then s.packageCmd else s

/-- PWR_STATE_CTL (R470): its fields, then WAKE and then SMOOR, an order that no rule gives (DESIGN CHOICE, notes/assumptions/136.md). -/
def State.stateCtl (s : State) (r : RegDesc) (off v : Nat) : State :=
  let s := s.writeFields r off v
  let s := if bitsN v 25 25 = 1 then s.wakeCmd else s
  if bitsN v 24 24 = 1 then s.smoorCmd else s

/-- A write of one word of a block's own registers that is not refused. MGT_RECOVERY.GO has a row of its own. -/
def State.writeBlock (s : State) (b : Block) (i o off v : Nat) (r : RegDesc) : State :=
  match b, o with
  | .hal, 0x104 => s.halReset v
  | .hal, 0x108 => if bitsN v 31 31 = 1 then s.formGo else s
  | .mgt, 0x10C => s.mgtMaint v
  | .mgt, 0x11C => s.selectLog v
  | .mgt, 0x180 => if bitsN v 31 31 = 1 then s.submitRecord else s
  | .sec, 0x10C => if bitsN v 31 31 = 1 then s.commitSvn else s
  | .sec, 0x110 => if bitsN v 0 0 = 1 then s.genNonce else s
  | .sec, 0x124 => if bitsN v 30 30 = 1 then s.endGrant else s
  | .pwr, 0x10C => s.capWrite (bitsN v 11 0)
  | .pwr, 0x110 => s.capCtlWrite r off v
  | .pwr, 0x124 => if bitsN v 0 0 = 1 then s.kickCmd else s
  | .pwr, 0x128 => s.paceWrite v
  | .pwr, 0x12C => s.stateCtl r off v
  | .pair, 0x108 => s.pairMaint v
  | .pair, 0x118 => if bitsN v 31 31 = 1 then s.armCmd else s
  | .por, 0x100 => s.porCtl i v
  | .fab, 0x100 => s.fabCtl i v
  | .seq, 0x128 => s.cfgCommitWrite v
  | .seq, 0x404 => s.stageClient (some (bitsN v 31 28)) (some (bitsN v 19 0)) none
  | .seq, 0x408 => if bitsN v 19 0 = 0 then s else s.stageClient none none (some (bitsN v 19 0))
  | _, _ => if configOffs.contains off ∧ s.inHousehold then s.stageWord r off v else s.writeFields r off v

/-! Pairs (R13). -/

/-- Whether any field of a register may be written. -/
def RegDesc.writable (r : RegDesc) : Bool := r.fields.any fun f => decide (f.acc ≠ .ro)

/-- A low-word write is held, for its requester alone (DESIGN CHOICE, notes/assumptions/112.md). -/
def State.holdLow (s : State) (q : Requester) (off : Nat) (v : Word) : State :=
  { s with heldLow := SMap.set none s.heldLow (latchKey q off) (some v) }

/-- The whole value that a high-word write makes, and the held low word gone. -/
def State.joinHalves (s : State) (q : Requester) (low v : Nat) (r : RegDesc) : Nat × State :=
  let lo := match SMap.get none s.heldLow (latchKey q low) with | some x => x.toNat | none => s.rd (r.fld low)
  (2 ^ 32 * v + lo, { s with heldLow := SMap.set none s.heldLow (latchKey q low) none })

/-- Write both words of a pair. -/
def State.writePair (s : State) (low x : Nat) (r : RegDesc) : State :=
  (s.wr (r.fld low) (x % 2 ^ 32)).wr (r.fld (low + 4)) (x / 2 ^ 32 % 2 ^ 32)

/-- The write of a high word: a refusal of its live unit names the high word, a reserved encoding is discarded, and otherwise the whole value takes effect. -/
def State.writeHigh (s : State) (q : Requester) (b : Block) (i o off v : Nat) (r : RegDesc) : State :=
  let (x, s) := s.joinHalves q (off - 4) v r
  match s.pairRefusal b i (o - 4) with
  | some c => s.conflict off c
  | none =>
    if !(b.pairLegal (o - 4)).ok x then s
    else
      let s := s.writePair (off - 4) x r
      if b = .cel ∧ o = 0x11C then s.probe x else s

/-! Perturbation registers (R543, R545 to R548). -/

/-- The perturbation points of a page (R545). -/
def Block.ptbPoints : Block → Nat
  | .core => 0x3F
  | .wng => 0xF
  | .cel => 0xFFF
  | .lar | .cmp | .por => 1
  | .fab | .pair => 0xFFFF
  | _ => 0

/-- The KINDs of error a page can take (R547) (DESIGN CHOICE, notes/assumptions/100.md). -/
def Block.takesKind (b : Block) (k : Nat) : Bool :=
  match k with
  | 0 => true
  | 1 | 2 => (match b with | .core | .cel | .wng => true | _ => false)
  | 3 => (match b with | .cmp | .por | .pair => true | _ => false)
  | 4 => (match b with | .fab | .pair => true | _ => false)
  | 5 => decide (b = .pair)
  | _ => false

/-- PG_PTB_INJ (R548): reserved encodings leave their field; an acting perturbation takes the new COUNT (DEDUCED, notes/assumptions/96.md) (DESIGN CHOICE, notes/assumptions/100.md). -/
def State.ptbInj (s : State) (b : Block) (page v : Nat) : State :=
  let kind := if b.takesKind (bitsN v 31 28) then bitsN v 31 28 else s.rd PG_PTB_INJ.KIND page
  let sym := bitsN v 15 8
  let s := s.wr PG_PTB_INJ.KIND kind page
  let s := if bitsN v 23 16 = 0 ∧ kind ≠ 0 then s else s.wr PG_PTB_INJ.COUNT (bitsN v 23 16) page
  let s := if (if kind = 4 then 1 ≤ sym ∧ sym ≤ 31 else sym = 0) then s.wr PG_PTB_INJ.SYMBOLS sym page else s
  let s := s.wr PG_PTB_INJ.BIT (bitsN v 5 0) page
  if s.on PG_PTB_STS.ACTIVE page then s.wr PG_PTB_STS.LEFT (s.rd PG_PTB_INJ.COUNT page) page else s

/-- PG_PTB_CTL (R543, R548). -/
def State.ptbCtl (s : State) (b : Block) (page v : Nat) : State :=
  if bitsN v 30 29 = 2 ∧ (s.inHousehold ∨ s.pins.syncOk) then s.conflict (page * 0x1000 + 0x40) Err.TRIG_LAND
  else
    let s := if bitsN v 30 29 = 3 then s else s.wr PG_PTB_CTL.TRIGGER (bitsN v 30 29) page
    let s := ((s.wr PG_PTB_CTL.ANY_ADDR (bitsN v 28 28) page).wr PG_PTB_CTL.STEPS (bitsN v 23 16) page).wr
      PG_PTB_CTL.TARGET (bitsN v 15 0 &&& b.ptbPoints) page
    if bitsN v 31 31 = 0 then s.ptbStop page
    else
      let s := s.wr PG_PTB_CTL.ENABLE 1 page
      if s.rd PG_PTB_CTL.TRIGGER page = 0 ∧ !s.on PG_PTB_STS.ACTIVE page then s.ptbStart page else s

/-- A write of a perturbation register: nothing in a page without points, refused without a PERTURB grant (R545). A low word is held all the same
(R13) (DEDUCED, notes/assumptions/96.md). -/
def State.ptbWrite (s : State) (q : Requester) (b : Block) (i page o : Nat) (v : Word) (r : RegDesc) : State :=
  if !b.hasPtb ∨ o = 0x05C then s
  else if o = 0x050 then s.holdLow q (page * 0x1000 + o) v
  else if !s.mayPerturb then
    let s := if o = 0x054 then (s.joinHalves q (page * 0x1000 + 0x50) 0 r).2 else s
    s.conflict (page * 0x1000 + o) Err.PTB_LOCKED
  else
    match o with
    | 0x040 => s.ptbCtl b page v.toNat
    | 0x04C => s.ptbInj b page v.toNat
    | 0x054 => s.writeHigh q b i o (page * 0x1000 + o) v.toNat r
    | _ => s.writeFields r (page * 0x1000 + o) v.toNat

/-! The common header (R549, R550). -/

/-- The new message of a write that leaves the enabled pending sources nonzero (R550). -/
def State.resend (s : State) (page : Nat) : State :=
  if s.irqActive page then s.sendMsix (if 16384 ≤ page then page - 16383 else pageFn page) (s.rd PG_IRQ_VEC.VECTOR page) else s

/-- ERR_CLR clears PG_ERR_CNT and PG_ERR_FIRST; for a POR page it also ends the scope in which POR_UNBACKED was logged (R274). -/
def State.clearErrs (s : State) (b : Block) (i page : Nat) : State :=
  let s := (s.wr PG_ERR_CNT.WORD 0 page).wr64 PG_ERR_FIRST_LO.SEQ 0 page
  if b = .por then s.endScope Err.POR_UNBACKED i else s

/-- A write of a word of the common header. -/
def State.writeHeader (s : State) (q : Requester) (b : Block) (i page o : Nat) (v : Word) (r : RegDesc) : State :=
  let n := v.toNat
  match o with
  | 0x00C =>
    let s := s.wr PG_CTL.IRQ_ON (bitsN n 0 0) page
    (if bitsN n 1 1 = 1 then s.clearErrs b i page else s).resend page
  | 0x014 =>
    let w := s.rd PG_IRQ_STS.SOURCES page
    (s.wr PG_IRQ_STS.SOURCES (w - (w &&& bitsN n 15 0)) page).resend page
  | 0x018 => (s.wr PG_IRQ_EN.SOURCES (bitsN n 15 0 &&& b.irqBits) page).resend page
  | 0x01C =>
    let x := bitsN n 15 0
    if 3 ≤ x ∧ x < msixSize (if 16384 ≤ page then 1 else pageFn page) then s.wr PG_IRQ_VEC.VECTOR x page else s
  | 0x060 => if bitsN n 31 31 = 1 then s.wr PG_CONFLICT.VALID 0 page else s
  | _ => if 0x040 ≤ o ∧ o ≤ 0x05C then s.ptbWrite q b i page o v r else s

/-! A write at an offset of a requester's BAR0. -/

/-- A write of a block's own register: fields RW and W1S only where the requester may write the block (R558). -/
def State.writeOwn (s : State) (q : Requester) (b : Block) (i page o : Nat) (v : Word) (r : RegDesc) : State :=
  let off := page * 0x1000 + o
  if b = .core ∧ o = 0x104 then (if bitsN v.toNat 31 31 = 1 then s.wr CORE_FAULT.WORD 0 i else s)
  else if !mayWrite q b i ∨ !r.writable then s
  else
    match r.pairing with
    | .low => s.holdLow q off v
    | .high => s.writeHigh q b i o off v.toNat r
    | .single =>
      match s.refusal b i o v.toNat with
      | some c => s.conflict off c
      | none => s.writeBlock b i o off v.toNat r

/-- A write by a requester at an offset of its BAR0. -/
def State.writeBar (s : State) (q : Requester) (off : Nat) (v : Word) : State :=
  match msixPage q off with
  | some (fn, pba) => if s.inRecovery then s.missed q off else s.msixWrite fn pba (off % 0x1000) v
  | none =>
    if off % 4 ≠ 0 then s.logRegAccess off
    else
      match (reqPage q off).bind fun g => (pageBlock g).map fun b => (g, b) with
      | none => s.logRegAccess off
      | some (g, b, i) =>
        if !s.serves b then s.missed q off
        else
          match regAt b (off % 0x1000) with
          | none => s
          | some r => if off % 0x1000 < 0x100 then s.writeHeader q b i g (off % 0x1000) v r else s.writeOwn q b i g (off % 0x1000) v r

/-! The rows. -/

/-- A host write to a register (R10). -/
def execRegisterWrite (q : Requester) (off : BarOff) (v : Word) (s : State) : Res := s.arrives q fun s => s.writeBar q off.toNat v

/-- An access of a register page that is not a naturally aligned 32-bit access (R12). What such an access of an MSI-X page does is not stated: a read
of one returns a free value (R557; notes/assumptions/1.md) (DEDUCED, notes/assumptions/95.md). -/
def execRegMisalignedAccess (q : Requester) (off : BarOff) (isWrite : Bool) (s : State) : Res :=
  s.arrives q fun s =>
    match msixPage q off.toNat with
    | some _ =>
      if s.inRecovery then if isWrite then s.missed q off.toNat else (s.missed q off.toNat).emit (.readData q 0xFFFFFFFF)
      else if isWrite then s else s.draw.2.emit (.readData q (s.draw.1.setWidth 32))
    | none =>
      let s := s.logRegAccess off.toNat
      if isWrite then s else s.emit (.readData q 0xFFFFFFFF)

/-- An access of an unassigned page (R556). -/
def execUnassignedPageAccess (q : Requester) (off : BarOff) (isWrite : Bool) (s : State) : Res :=
  s.arrives q fun s =>
    if (msixPage q off.toNat).isSome ∨ ((reqPage q off.toNat).bind pageBlock).isSome then s
    else
      let s := s.logRegAccess off.toNat
      if isWrite then s else s.emit (.readData q 0xFFFFFFFF)

/-- A read of a register (R13, R559): that of a low word latches the high word, that of a high word returns the latch, and any other returns the word
in effect. -/
def execLowWordRead (q : Requester) (off : BarOff) (s : State) : Res :=
  s.arrives q fun s =>
    let r := s.readBar q off.toNat
    r.2.emit (.readData q (BitVec.ofNat 32 r.1))

/-- A write of the low word of a pair is held (R13). -/
def execLowWordWrite (q : Requester) (off : BarOff) (v : Word) (s : State) : Res := s.arrives q fun s => s.writeBar q off.toNat v

/-- A write of the high word of a pair (R13). -/
def execHighWordWrite (q : Requester) (off : BarOff) (v : Word) (s : State) : Res := s.arrives q fun s => s.writeBar q off.toNat v

/-- A write of PG_IRQ_STS, PG_IRQ_EN or PG_CTL (R550). -/
def execPgIrqWrite (q : Requester) (off : BarOff) (v : Word) (s : State) : Res := s.arrives q fun s => s.writeBar q off.toNat v

/-- PG_CTL.ERR_CLR of the page of `off` is written 1; `v` gives the rest of the word (R549, R552). -/
def execErrClr (q : Requester) (off : BarOff) (v : Word) (s : State) : Res :=
  s.arrives q fun s => s.writeBar q (off.toNat / 0x1000 * 0x1000 + 0x00C) (v ||| 2)

/-- A write of PG_PTB_CTL of the page of `off` (R548). -/
def execPtbCtlWrite (q : Requester) (off : BarOff) (v : Word) (s : State) : Res :=
  s.arrives q fun s => s.writeBar q (off.toNat / 0x1000 * 0x1000 + 0x040) v

/-- A write of CEL_PROBE_HI: the address is mapped (R361, R379). -/
def execCelProbeWrite (q : Requester) (v : Word) (s : State) : Res := s.arrives q fun s => s.writeBar q CEL_PROBE_HI.WORD.base v

/-- A write of MGT_LOG_SEL_HI (R482). -/
def execMgtLogSelHiWrite (q : Requester) (v : Word) (s : State) : Res := s.arrives q fun s => s.writeBar q MGT_LOG_SEL_HI.WORD.base v

end Sys2Proof.Machine
end

