-- ==== Sys2Proof/Machine/Attend.lean ====
section
/-!
DEFINITION. Attention and the loft (R182 to R199): the page walk, local-store page slots, and what completes a move to or from the loft.
-/
namespace Sys2Proof.Machine

/-- Whether a slot record names a visit's page at the visit's core. -/
def Visit.slotIn (v : Visit) (r : Nat × Nat × Nat × Nat × Nat) : Bool :=
  decide (r.1 = v.core) && decide (r.2.2.1 = v.e) && decide (r.2.2.2.1 = v.chain) && decide (r.2.2.2.2 = v.page)

/-- Second-pass order (R191): ascending sequence index, descending page; the chains of one page in ascending order (DESIGN CHOICE,
notes/assumptions/21.md). -/
def Visit.keepLt (a b : Visit) : Bool :=
  if a.e ≠ b.e then decide (a.e < b.e) else if a.page ≠ b.page then decide (b.page < a.page) else decide (a.chain < b.chain)

/-- The slot records that keep their page (HIT) and those that receive one (KEEP) (R191). -/
def State.assignSlots (s : State) (vs : List Visit) : List (Nat × Nat × Nat × Nat × Nat) × List (Nat × Nat × Nat × Nat × Nat) :=
  let hits := s.kv.slots.filter fun r => vs.any fun v => v.slotIn r
  let miss := sortBy Visit.keepLt (vs.filter fun v => !(hits.any fun r => v.slotIn r))
  (hits, miss.foldl (fun ks v =>
    match (List.range v.ch.lsSlots).find? fun n => !((hits ++ ks).any fun r => decide (r.1 = v.core) && decide (r.2.1 = n)) with
    | some n => ks ++ [(v.core, n, v.e, v.chain, v.page)]
    | none => ks) [])

/-- The payload of an ATTEND_PAGE descriptor (R184). The first row of an empty append and the slot number of a page with neither HIT nor
KEEP are free values. -/
def State.attendBody (s : State) (v : Visit) (hit keep : Option Nat) : Bytes :=
  let base := 64 * v.page
  let rows := min 64 (v.last + 1 - base)
  let af := v.first - base
  let ac := if v.first < base + 64 then rows - af else 0
  let slot := match hit, keep with
    | some n, _ => 128 + n
    | _, some n => 64 + n
    | _, _ => (Config.area 8 v.chain v.e v.page).toNat % 8
  leBytes 4 v.e ++ leBytes 2 v.chain ++ leBytes 2 0 ++ leBytes 4 v.page ++ leBytes 2 (v.page / v.ch.span) ++
    leBytes 2 (v.last / 64 / v.ch.span + 1) ++ leBytes 8 (srfAddr s.me 1 (s.pageFrame v.e v.chain v.page * frameBytes)).toNat ++
    leBytes 4 base ++ leBytes 4 v.first ++ leBytes 4 v.last ++ leBytes 1 rows ++ leBytes 1 rows ++
    leBytes 1 (if ac = 0 then (Config.area 7 v.chain v.e v.page).toNat else af) ++ leBytes 1 ac ++ leBytes 1 slot ++ leBytes 1 v.ch.h ++
    leBytes 2 (v.ch.spanOwner v.e 0) ++ List.replicate 68 0

/-- The page walk of the step (R182 to R186, R191): the ATTEND_PAGE descriptors and the new slot record. Their GROUP is 0xFFFF, their INDEX
the order of emission and their STAGE the lowest of the plan groups of their layer (DESIGN CHOICE, notes/assumptions/21.md). -/
def execPageWalk (s : State) : Res :=
  if !s.step.active ∨ !s.step.started ∨ s.step.walked then .next s
  else
    let vs := s.visits
    let (hits, keeps) := s.assignSlots vs
    let gs := planGroups (s.plan s.step.modelSlot)
    let stage (l : Nat) := ((sortBy (fun a b => decide (a < b)) ((gs.filter fun g => decide (g.layer = l)).map (·.stage))).head?).getD 0
    let ds := ((List.range vs.length).zip vs).map fun (i, v) =>
      { kind := 2, layer := v.ch.layer, half := false, stage := stage v.ch.layer, group := 0xFFFF, index := i, trip := 0, pending := false,
        wing := wingOf v.core, owner := some v.core, expert := 0,
        body := s.attendBody v ((hits.find? v.slotIn).map (·.2.1)) ((keeps.find? v.slotIn).map (·.2.1)), st := DescSt.listed }
    let s := s.updStep fun p => { p with descs := p.descs ++ ds, walked := true }
    let s := s.updKv fun k => { k with slots := hits ++ keeps }
    .next ((List.range 4).foldl State.serveWaits s)

/-! The loft. -/

/-- The units of a move are free and its pages stay in the cellar (R194). -/
def State.dropMove (s : State) (m : LoftMove) : State :=
  let s := (s.dropUnits m.units).updKv fun k => { k with moves := k.moves.filter fun x => decide (x.seq ≠ m.seq) }
  { s with movedFailed := s.movedFailed ++ [m.seq] }

/-- Step 4 of R193 ends: for the writer of a host loft `back` is the last unit as read back, and a copy that differs is a failed read-back, which abandons the
move (R194); in every other case `back` is of no account (DEDUCED, notes/assumptions/77.md). Then step 5: every page-table entry names its loft unit, with
the CRC of its page. -/
def execLoftMoveConfirm (e : SeqIdx) (back : Option Bytes) (s : State) : Res :=
  let n := e.toNat
  match s.kv.moves.find? fun m => decide (m.seq = n) && !m.rewritten with
  | none => .next s
  | some m =>
    if s.loftWriter ∧ !s.on SEQ_LOFT_CTL.TARGET ∧ back ≠ (m.frames.getLast?).map s.frameImage then .next (s.dropMove m)
    else
    let old := s.pageFrames n
    let crc (f : Nat) : Word := crc32c (s.frameImage f)
    let ents := ((s.kvOf n).pages.zip m.units).map fun (r, u) => (r.1, r.2.map fun p => { p with crc := crc p.frame, frame := u })
    let s := s.updSeqKv n fun k => { k with pages := ents }
    let s := s.updKv fun k =>
      { k with moves := mapWhere (fun x => decide (x.seq = n)) (fun x => { x with rewritten := true, frames := old }) k.moves,
               inLoft := insertNat n k.inLoft }
    .next { s with moved := s.moved ++ [n] }

/-- A failed write or read-back abandons the move (R194): its units are free and the pages stay in the cellar. -/
def execLoftMoveAbandon (e : SeqIdx) (s : State) : Res :=
  let n := e.toNat
  match s.kv.moves.find? fun m => decide (m.seq = n) && !m.rewritten with
  | none => .next s
  | some m => .next (s.dropMove m)

/-- A copy back ends in a code (R199): the frames taken for it are freed and the sequence stays PAUSED until the boundary that reports it. -/
def State.resumeFails (s : State) (e : Nat) (frames : List Nat) (code : Code) : State :=
  let s := (s.dropFrames frames).updKv fun k =>
    { k with resumes := mapWhere (fun r => decide (r.seq = e)) (fun r => { r with st := .failed code }) k.resumes }
  { s with resumeFailed := s.resumeFailed ++ [(e, code)] }

/-- Item 2 of R197, with R199: `pages` are the pages as copied back in entry order, `again` the second copies of those that fail. Item 3 follows
at the first boundary that every serving member has reached it by (DEDUCED, notes/assumptions/27.md). -/
def execResumeCopyBack (e : SeqIdx) (pages again : List Bytes) (reachable : Bool) (s : State) : Res :=
  let n := e.toNat
  let taken := s.kv.resumes.findSome? fun r => if r.seq = n ∧ !r.told.contains s.me ∧ !s.resumed.contains n then (match r.st with | .copying fs => some fs | _ => none) else none
  match taken with
  | none => .next s
  | some frames =>
    if !reachable then .next (s.resumeFails n frames Err.LOFT_UNREACHABLE)
    else
      let ents := (s.kvOf n).pages.filterMap fun r => r.2.map fun p => (r.1, p)
      let good (i : Nat) (p : PageEnt) : Option Bytes :=
        if crc32c (pages.getD i []) = p.crc then some (pages.getD i [])
        else if crc32c (again.getD i []) = p.crc then some (again.getD i [])
        else none
      let got := ((List.range ents.length).zip ents).map fun (i, r) => good i r.2
      if got.any Option.isNone then .next (s.resumeFails n frames Err.LOFT_CHECK)
      else
        let s := (frames.zip got).foldl (fun s (f, b) => s.celWrite (f * frameBytes) (b.getD [])) s
        .next { s with resumed := s.resumed ++ [n] }

end Sys2Proof.Machine
end

