-- ==== Sys2Proof/Machine/Experts.lean ====
section
/-!
DEFINITION. Experts (R209 to R230): routing records, the exchange descriptors, dispatch and combine headers, expert counts and the count messages.
-/
namespace Sys2Proof.Machine

/-- The hall's check of a half-batch's routing records (R210), and the DISPATCH descriptors when every record is valid. A record that is bad
again marks the owner of its token ERRORED and the step goes on (DEDUCED, notes/assumptions/55.md). -/
def execRouteRecordCheck (layer : Byte) (half : Bool) (s : State) : Res :=
  let ly := layer.toNat
  match s.exLayer ly with
  | none => .next s
  | some (m, l) =>
    let gs := planGroups (s.plan s.step.modelSlot)
    if !s.listsBuilt ∨ s.halfTokens half = 0 ∨ s.step.routed.contains (ly, half) ∨ !s.groupDone gs l.routeGroup half then
      .next s
    else
      let bad := (List.range (s.halfTokens half)).filter fun j => !recordOk l (s.record ly half j)
      let fresh := bad.any fun j => !s.isRepeat Err.ROUTE_RECORD none (recordAddr ly half j)
      let s := bad.foldl (fun s j =>
        s.raiseFault Err.ROUTE_RECORD nodeHall none none (recordAddr ly half j) ly []
          (seqsOfTokens (s.halfStart half + j) 1 0 s.step.items)) s
      if fresh then .next s
      else
        let s := match gs.find? fun g => decide (g.kind = 5) && decide (g.layer = ly) with
          | none => s
          | some g =>
            s.exchangeDescs g m l half 1 (List.range s.pairs) s.receivers (exDispatch m (halfNat half))
              (fun d => s.rowTokens m l half s.pairNum d)
        let s := s.updStep fun p => { p with routed := p.routed ++ [(ly, half)] }
        .next ((List.range 4).foldl State.serveWaits s)

/-! Headers (R216 to R219, R224). -/

/-- The entries of the dispatch header of a source and a destination pair. -/
def State.headerCounts (s : State) (m : Bytes) (l : ExLayer) (h : Bool) (src dst : Nat) : List (Nat × Nat) :=
  (expertsOf m l dst).map fun e => (e, (s.expertRows m l h src dst e).length)

/-- The bytes of a header (R217). -/
def headerBytes (kind layer : Nat) (half : Bool) (attempt step pair pos : Nat) (entries : List (Nat × Nat)) : Bytes :=
  let es := entries.flatMap fun e => leBytes 4 (e.2 * 2 ^ 16 + e.1)
  let h := leBytes 1 kind ++ leBytes 1 layer ++ leBytes 1 (halfNat half) ++ leBytes 1 attempt ++ leBytes 4 step ++ leBytes 1 pair ++
    leBytes 1 pos ++ leBytes 2 entries.length
  let c := crc32c (h ++ List.replicate 20 0 ++ es)
  h ++ leBytes 4 c.toNat ++ List.replicate 16 0 ++ es

/-- Send a header to some packages for every position this package serves. -/
def State.sendHeaders (s : State) (kind layer : Nat) (half : Bool) (entries : List (Nat × Nat)) (positions : List Nat)
    (dests : Nat → List PkgId) : State :=
  positions.foldl (fun s pos =>
    (dests pos).foldl (fun s p =>
      s.emit (.chimney p (headerBytes kind layer half s.step.attempt s.step.id s.pairNum pos entries))) s) s

/-- Whether every exchange descriptor of a kind for another pair is done (DEDUCED, notes/assumptions/54.md). -/
def State.exchangeDone (s : State) (kind layer : Nat) (half : Bool) (pair : Nat) : Bool :=
  s.step.descs.all fun d =>
    decide (d.kind ≠ kind) || decide (d.layer ≠ layer) || decide (d.half ≠ half) || decide (d.expert ≠ pair) || decide (d.st = .done)

/-- A dispatch header goes to pair `dest` once its DISPATCH descriptors are done, or at once when it receives no rows (R216). -/
def execDispatchHeaderSend (layer : Byte) (half : Bool) (dest : Nat) (s : State) : Res :=
  let ly := layer.toNat
  match s.exLayer ly with
  | none => .next s
  | some (m, l) =>
    if !s.listsBuilt ∨ s.pairs ≤ dest ∨ !s.step.routed.contains (ly, half) ∨ s.step.sentHeaders.contains (false, ly, half, dest) ∨
        !s.exchangeDone 5 ly half dest then .next s
    else
      let s := s.sendHeaders 1 ly half (s.headerCounts m l half s.pairNum dest) s.myPositions fun pos => (s.memberAt dest pos).toList
      .next (s.updStep fun p => { p with sentHeaders := p.sentHeaders ++ [(false, ly, half, dest)] })

/-- The entries of a received header. -/
def headerEntries (b : Bytes) : List (Nat × Nat) :=
  (List.range ((b.length - 32) / 4)).map fun i => let v := fieldAt b (32 + 4 * i) 4; (bitsN v 9 0, v / 2 ^ 16)

/-- Whether a header of a kind is well formed (R217, R218): its check, its reserved bits, its sender, its entries, and counts whose rows fit
its slot (R215, R223). -/
def State.headerOk (s : State) (kind : Nat) (frm : PkgId) (b : Bytes) : Bool :=
  let es := headerEntries b
  let src := fieldAt b 8 1
  let pos := fieldAt b 9 1
  match s.exLayer (fieldAt b 1 1) with
  | none => false
  | some (m, l) =>
    decide (32 ≤ b.length) && decide (b.length = 32 + 4 * fieldAt b 0xA 2) && decide (fieldAt b 0 1 = kind) && decide (fieldAt b 2 1 ≤ 1) &&
      decide (pos ≤ 1) && decide (crcWithout b 0xC = BitVec.ofNat 32 (fieldAt b 0xC 4)) && zeroRange b 0x10 16 &&
      ((List.range es.length).all fun i => decide (bitsN (fieldAt b (32 + 4 * i) 4) 15 10 = 0)) &&
      decide (s.memberAt src pos = some frm) &&
      decide (es.map (·.1) = expertsOf m l (if kind = 1 then s.pairNum else src)) &&
      decide ((es.foldl (fun n e => n + e.2) 0) * (if kind = 1 then 64 * l.rowPacks else 224 * l.rowPacks) ≤ (if kind = 1 then exDSlot m else exCSlot m))

/-- What a header comes to: not of this attempt, a second one, a bad one, or one to hold (R218). -/
inductive HeaderFate where
  | stale | dup | bad | good

/-- Judge a header. -/
def State.judgeHeader (s : State) (kind : Nat) (frm : PkgId) (b : Bytes) : HeaderFate :=
  if !s.step.active ∨ fieldAt b 4 4 ≠ s.step.id % 2 ^ 32 ∨ fieldAt b 3 1 ≠ s.step.attempt then .stale
  else if s.step.headers.any fun h =>
      decide (h.combine = (kind == 2)) && decide (h.layer = fieldAt b 1 1) && decide (halfNat h.half = fieldAt b 2 1) &&
        decide (h.src = fieldAt b 8 1) && decide (h.pos = fieldAt b 9 1) then .dup
  else if s.headerOk kind frm b then .good
  else .bad

/-- Hold a header. -/
def State.holdHeader (s : State) (combine : Bool) (b : Bytes) : State :=
  s.updStep fun p =>
    { p with headers := p.headers ++ [{ combine := combine, layer := fieldAt b 1 1, half := decide (fieldAt b 2 1 = 1), src := fieldAt b 8 1,
                                        pos := fieldAt b 9 1, entries := headerEntries b }] }

/-- DISPATCH_HEADER (R218): the first from a sender aborts the step. A second from the same sender hands that sender's work over: its own when
the sender is this package; otherwise the sender is told, and hands it over as R434 has it (DEDUCED, notes/assumptions/23.md). -/
def State.badHeader (s : State) (frm : PkgId) (layer : Nat) : State :=
  if s.isRepeat Err.DISPATCH_HEADER none frm.toNat then
    if frm = s.me then s.fatal (s.mkErr Err.DISPATCH_HEADER sevPackage nodeHall frm.toNat)
    else (s.logErr (s.mkErr Err.DISPATCH_HEADER sevStep nodeHall frm.toNat)).emit (.handoverOf frm Err.DISPATCH_HEADER)
  else s.raiseFault Err.DISPATCH_HEADER nodeHall none none frm.toNat layer [] s.stepSeqs

/-- DISPATCH_DUP (R218), with the header of the packet that brought it (R529): of its first one where it took two (DESIGN CHOICE, notes/assumptions/130.md). -/
def State.dupHeader (s : State) (frm : PkgId) (b : Bytes) : State :=
  s.logErr (s.mkErr Err.DISPATCH_DUP sevInfo nodeHall frm.toNat (detail := pktHeader (s.chimneyPacket frm s.me (b.take 4096))))

/-- A dispatch header arrives (R218, R219, R222). -/
def execDispatchHeaderReceive (from_ : PkgId) (bytes : Bytes) (s : State) : Res :=
  match s.judgeHeader 1 from_ bytes with
  | .stale => .next s
  | .dup => .next (s.dupHeader from_ bytes)
  | .bad => .next (s.badHeader from_ (fieldAt bytes 1 1))
  | .good => .next ((s.holdHeader false bytes).countsKnown (fieldAt bytes 1 1) (decide (fieldAt bytes 2 1 = 1)))

/-- A combine header goes to both members of source pair `src` once its COMBINE descriptors are done, or at once when it sent only zero
counts (R224). -/
def execCombineHeaderSend (layer : Byte) (half : Bool) (src : Nat) (s : State) : Res :=
  let ly := layer.toNat
  match (s.dispatchHeaders ly half).find? fun x => decide (x.src = src) with
  | none => .next s
  | some x =>
    let zero := x.entries.all fun e => decide (e.2 = 0)
    if !s.listsBuilt ∨ s.step.sentHeaders.contains (true, ly, half, src) ∨
        !(zero || (s.step.expertKnown.contains (ly, half) && s.exchangeDone 7 ly half src)) then .next s
    else
      let s := s.sendHeaders 2 ly half x.entries [s.position] fun _ => s.serving.filter fun p => decide (s.pairOf p = src)
      .next (s.updStep fun p => { p with sentHeaders := p.sentHeaders ++ [(true, ly, half, src)] })

/-- A combine header arrives (R218, R224): descriptors that depend on the combined rows may now be available. -/
def execCombineHeaderReceive (from_ : PkgId) (bytes : Bytes) (s : State) : Res :=
  match s.judgeHeader 2 from_ bytes with
  | .stale => .next s
  | .dup => .next (s.dupHeader from_ bytes)
  | .bad => .next (s.badHeader from_ (fieldAt bytes 1 1))
  | .good => .next ((List.range 4).foldl State.serveWaits (s.holdHeader true bytes))

end Sys2Proof.Machine
end

