-- ==== Sys2Proof/Machine/Message.lean ====
section
/-!
DEFINITION. The message unit (R86 to R89, R112 to R117, R123 to R125): sends, receive rings, local-store DMA and the cross-rack gateways (R409).
-/
namespace Sys2Proof.Machine

/-! Receive rings (R113 to R116). -/

/-- Receive queue `q` of a core. -/
def Core.rq (k : Core) (q : Nat) : RecvQ := SMap.get RecvQ.reset k.rqs q

/-- Change receive queue `q`. -/
def Core.updRq (k : Core) (q : Nat) (f : RecvQ → RecvQ) : Core := { k with rqs := SMap.upd RecvQ.reset k.rqs q f }

/-- The place a message of `len` bytes takes in a ring: its first line, and the lines it occupies, those skipped at the ring's end among
them; none when the ring or the header FIFO has no room (R114). -/
def RecvQ.place (r : RecvQ) (len : Nat) : Option (Nat × Nat) :=
  let n := ceilDiv len 64
  let size := r.size / 64
  let used := r.msgs.foldl (fun a m => a + m.lines) 0
  let wraps := decide (size < r.tail + n)
  let lines := if wraps then size - r.tail + n else n
  if r.configured ∧ r.msgs.length < 64 ∧ used + lines ≤ size then some (if wraps then 0 else r.tail, lines) else none

/-- The tag of a MESSAGE packet (R402). -/
def msgTag (p : Packet) : BitVec 16 := BitVec.ofNat 16 (bits64 p.address 17 2)

/-- The receive queue a MESSAGE packet names (R402). -/
def msgQueue (p : Packet) : Nat := p.arg.toNat % 4

/-- Whether a message finds room on arrival: in its ring, and no message of its channel is held before it (R89). -/
def Core.hasRoom (k : Core) (p : Packet) : Bool :=
  ((k.rq (msgQueue p)).place p.length.toNat).isSome && !(k.held.any fun h => decide (h.pkt.vc = p.vc))

/-- A message is written into its ring; the first context that waits on the queue receives it (R88, R114, R115). -/
def Core.receive (k : Core) (p : Packet) : Core :=
  let q := msgQueue p
  let r := k.rq q
  match r.place p.length.toNat with
  | none => k
  | some (first, lines) =>
    let len := p.length.toNat
    let off := r.base + 64 * first
    let waiter := k.recvOrder.find? fun x => match (k.ctx x).wait with | .recv a _ => decide (a = q) | _ => false
    let m : RecvMsg := { tag := msgTag p, srcCore := p.node.toNat, src := p.src, length := len, line := off / 64, lines := lines,
                         received := waiter.isSome }
    let k := (k.wrLs off p.payload).updRq q fun r => { r with msgs := r.msgs ++ [m], tail := (first + ceilDiv len 64) % (r.size / 64) }
    match waiter with
    | none => k
    | some x =>
      let k := { k with recvOrder := k.recvOrder.filter (· ≠ x) }
      k.updCtx x fun t =>
        let rd := match t.wait with | .recv _ rd => rd | _ => 0
        { (t.setSreg rd m.header).advance with st := .ready, wait := .none }

/-- RQCFG's checks (R113). -/
def rqOk (base size : Nat) : Bool :=
  decide (base % 64 = 0) && decide (size % 4096 = 0) && decide (4096 ≤ size) && decide (size ≤ 262144) && decide (base + size ≤ lsBytes)

/-- RQCFG (R113). -/
def execRqcfg (c : CoreId) (w : Insn) (s : State) : Res :=
  .next (s.issue c w fun x s =>
    let t := (s.core c).ctx x
    let q := immBits w 1 0
    let base := (t.sreg (fRA w)).toNat
    let size := (t.sreg (fRB w)).toNat
    if !rqOk base size ∨ ((s.core c).rq q).msgs ≠ [] then s.ctxFault c x Err.RQ_CONFIG 0 w
    else (s.updCore c fun k => k.updRq q fun _ => { configured := true, base := base, size := size, tail := 0, msgs := [] }).retire c x)

/-- RECV (R115): the oldest message not yet received, or a wait in WAIT_RECV with the pc at the instruction. -/
def execRecv (c : CoreId) (w : Insn) (s : State) : Res :=
  .next (s.issue c w fun x s =>
    let q := immBits w 1 0
    match findIdx (fun m : RecvMsg => !m.received) ((s.core c).rq q).msgs 0 with
    | some (i, m) =>
      let s := s.updCore c fun k => k.updRq q fun r => { r with msgs := r.msgs.set i { m with received := true } }
      s.finish c x fun t => t.setSreg (fRD w) m.header
    | none =>
      let s := s.updCore c fun k => { k with recvOrder := k.recvOrder.filter (· ≠ x) ++ [x] }
      (s.issued c).updCtx c x fun t => { t with st := .waitRecv, wait := .recv q (fRD w) })

/-- RELEASE (R116). -/
def execRelease (c : CoreId) (w : Insn) (s : State) : Res :=
  .next (s.issue c w fun x s =>
    let q := immBits w 1 0
    match ((s.core c).rq q).msgs with
    | m :: rest =>
      if m.received then (s.updCore c fun k => k.updRq q fun r => { r with msgs := rest }).retire c x
      else s.ctxFault c x Err.RELEASE_EMPTY 0 w
    | [] => s.ctxFault c x Err.RELEASE_EMPTY 0 w)

/-- Whether a node discards a packet because it belongs to an aborted attempt (R398). -/
def State.staleEpoch (s : State) (p : Packet) : Bool := decide (p.epoch.toNat ≠ s.pair.epoch)

/-- Count a packet discarded under R398. -/
def State.discard (s : State) (p : Packet) : State := s.bump FAB_HOLD.DISCARDS 1 p.wing.toNat

/-- Whether a message that found no room holds a packet's virtual channel before its core (R89). -/
def State.channelHeld (s : State) (p : Packet) : Bool :=
  decide (srfSpace p.address = 0) && (s.core (srfCore p.address)).held.any fun h => decide (h.pkt.vc = p.vc)

/-- Hold a packet in the network before its core (R89), with what the codes of the words it reads will show. -/
def State.holdPacket (s : State) (p : Packet) (es : Errs) : State :=
  s.updCore (srfCore p.address) fun k =>
    { k with held := k.held ++ [{ queue := if p.type.toNat = tMESSAGE then msgQueue p else 4, pkt := p, since := s.rackTime, errs := es }] }

/-- A message arrives at its core (R88, R89, R113, R398) (DEDUCED, notes/assumptions/73.md). One for a queue that a step restart has unconfigured is logged as
one for a queue never configured (DESIGN CHOICE, notes/assumptions/119.md). -/
def execMessagePacket (p : Packet) (s : State) : Res :=
  if s.staleEpoch p then .next (s.discard p)
  else
    let c := srfCore p.address
    let k := s.core c
    if k.hasRoom p then .next (s.updCore c fun k => k.receive p)
    else
      let s := s.holdPacket p []
      if (k.rq (msgQueue p)).configured ∨ k.swept then .next s
      else .next (s.logErr (s.mkErr Err.RQ_UNSET sevInfo c) (4 * c + msgQueue p))

/-- A message has waited 1 ms for room in its ring (R397): RQ_OVERRUN is logged and the step aborts; a recurrence in the same step id makes
every sequence of the step ERRORED. -/
def execRqOverrun (c : CoreId) (q : Fin 4) (s : State) : Res :=
  match (s.core c).held.find? fun h => decide (h.queue = q.val) with
  | none => .next s
  | some h =>
    if s.rackTime < h.since + 1000000 then .next s
    else
      let s := (s.bump FAB_HOLD.OVERRUNS 1 (wingOf c)).raiseIrq .fab (wingOf c) 2
      let again := s.step.faults.any fun f => decide (f.code = Err.RQ_OVERRUN) && decide (f.attempt < s.step.attempt)
      if s.step.active ∧ again then
        let s := s.logErr (s.mkErr Err.RQ_OVERRUN sevSequence c h.pkt.address.toNat)
        .next (s.markErrored Err.RQ_OVERRUN s.stepSeqs)
      else .next (s.raiseFault Err.RQ_OVERRUN c none none h.pkt.address.toNat 0xFF [] s.stepSeqs)

/-! Sends (R86, R87, R112, R126, R127). -/

/-- Descriptors in use of a send queue: its sends and its DMAs (R86, R123). -/
def Core.sqUsed (k : Core) (q : Nat) : Nat :=
  (k.sends.filter fun d => decide (d.queue = q)).length + (k.dmas.filter fun d => decide (d.queue = q)).length

/-- The largest message of a send queue (R86). -/
def sqMax (q : Nat) : Nat := if q < 2 then 256 else 4096

/-- Whether an address is a destination SEND takes: space 0, a core, a receive queue, all else zero (R112). -/
def sendDest (a : BitVec 64) : Bool :=
  decide (bits64 a 63 58 = 0) && decide (srfSpace a = 0) && decide (bits64 a 47 32 = 0) && decide (bits64 a 19 2 = 0)

/-- SEND (R112, R87, R160): a send descriptor, or a wait in issue while the queue is full. -/
def execSend (c : CoreId) (w : Insn) (es : Errs) (s : State) : Res :=
  .next (s.issue c w fun x s =>
    let t := (s.core c).ctx x
    let dest := t.sreg (fRA w)
    let off := (t.sreg (fRB w)).toNat
    let len := (t.sreg (fRC w)).toNat
    let q := immBits w 17 16
    if !sendDest dest then s.ctxFault c x Err.REMOTE_ADDR dest.toNat w
    else if sqMax q < len then s.ctxFault c x Err.MSG_SIZE 0 w
    else if len ≠ 0 ∧ lsBytes < off + len then s.ctxFault c x Err.LS_RANGE 0 w
    else if 16 ≤ (s.core c).sqUsed q ∨ (s.core c).sendWaits x then s
    else
      let s := s.updCore c fun k =>
        { k with sends := k.sends ++ [{ id := k.nextId, ctx := x, queue := q, dest := dest, off := off, len := len,
                                        tag := BitVec.ofNat 16 (immBits w 15 0), errs := es }],
                 nextId := k.nextId + 1 }
      s.retire c x)

/-- The message unit has read a send's payload, the oldest of its queue, word by word (R80): the message leaves, the descriptor is free, and a fence that waits on
it may proceed (R88, R126). -/
def execSendComplete (c : CoreId) (id : Nat) (s : State) : Res :=
  let k := s.core c
  match k.sends.find? fun d => decide (d.id = id) with
  | none => .next s
  | some d =>
    if k.sends.any fun e => decide (e.queue = d.queue) && decide (e.id < id) then .next s
    else
      let (good, s) := s.lsReads c d.off d.len d.errs
      if !good then .next s else
      let a := d.dest &&& ~~~(3 : BitVec 64) ||| BitVec.ofNat 64 (4 * d.tag.toNat)
      let p := s.request a tMESSAGE (if d.queue < 2 then 2 else 3) c 0 d.len (bits64 d.dest 1 0) (k.rdLs d.off d.len)
      let s := s.updCore c fun k => { k with sends := k.sends.filter fun e => decide (e.id ≠ id) }
      .next ((s.sendPacket p).updCore c Core.checkFences)

/-! Local-store DMA (R123 to R125) and the cross-rack gateways (R409). -/

/-- A cross-rack transfer takes one of the 64 places of its gateway and goes (R409). -/
def State.xrackSend (s : State) (g : Nat) (p : Packet) : State :=
  (s.updWing g fun w => { w with xrack := w.xrack ++ [256 * p.node.toNat + p.sink.toNat] }).sendPacket p

/-- A bulk request leaves: one to the other rack takes a place at its gateway, or waits there behind those that already wait (R389, R409). -/
def State.sendBulk (s : State) (p : Packet) : State :=
  if srfRack p.address = s.pair.rack then s.sendPacket p
  else
    let g := nodeWing p.node.toNat
    if (s.wing g).xrack.length < 64 ∧ (s.wing g).xwait = [] then s.xrackSend g p
    else s.updWing g fun w => { w with xwait := w.xwait ++ [(s.out.length, p)] }

/-- Sinks of a core's DMA transfers: those of 24 to 255 that are free (R74, R124). -/
def Core.freeSink (k : Core) : Option Nat :=
  (List.range 232).findSome? fun i =>
    if k.dmas.any fun d => d.reqs.any fun r => decide (r.1 = 24 + i) then none else some (24 + i)

/-- DMA `id` asks for its next transfer, when it has one to ask for and fewer than 16 outstanding. R124 states the limit for a pull; the model holds a
push to it too (DESIGN CHOICE, notes/assumptions/118.md). A push reads its source word by word (R80). -/
def State.dmaAsk (s : State) (c id : Nat) : State :=
  let k := s.core c
  match k.dmas.find? fun d => decide (d.id = id) with
  | none => s
  | some d =>
    if d.asked < d.len ∧ d.reqs.length < 16 ∧ !d.failed then
      match k.freeSink with
      | none => s
      | some sink =>
        let n := min 4096 (d.len - d.asked)
        let (good, s) := if d.pull then (true, s) else s.lsReads c (d.ls + d.asked) n (Errs.after d.errs (d.asked / 8))
        if !good then s else
        let a := d.remote + BitVec.ofNat 64 d.asked
        let p := if d.pull then s.request a tBULK_READ 3 c sink n 0 []
          else s.request a tBULK_WRITE 3 c sink n 0 (k.rdLs (d.ls + d.asked) n)
        let d' := { d with asked := d.asked + n, reqs := d.reqs ++ [(sink, d.asked, n, s.rackTime)] }
        (s.updCore c fun k => { k with dmas := mapWhere (fun e => decide (e.id = id)) (fun _ => d') k.dmas }).sendBulk p
    else s

/-- DMA `id` asks for every transfer it may. -/
def State.dmaPump (s : State) (c id : Nat) : State := (List.range 16).foldl (fun s _ => s.dmaAsk c id) s

/-- Every DMA of a core asks for the transfers it may, in the order of issue: a sink that has become free serves the first that wants one. -/
def State.dmaPumpAll (s : State) (c : Nat) : State := ((s.core c).dmas.map (·.id)).foldl (fun s id => s.dmaPump c id) s

/-- DMA's checks (R123, R144) (DEDUCED, notes/assumptions/61.md). -/
def State.dmaFault (s : State) (a : BitVec 64) (ls len : Nat) : Option Code :=
  let last := a + BitVec.ofNat 64 (len - 1)
  if 2 ≤ srfSpace a ∨ len % 64 ≠ 0 ∨ len < 64 ∨ 0x100000 < len ∨ ls % 64 ≠ 0 ∨ srfOff a % 64 ≠ 0 ∨ lsBytes < ls + len ∨
      (srfRack a ≠ s.pair.rack ∧ len % 4096 ≠ 0) then some Err.DMA_RANGE
  else if bits64 a 63 58 ≠ 0 ∨ !s.srfInSpace a ∨ !s.srfInSpace last ∨ srfSpace last ≠ srfSpace a then some Err.REMOTE_ADDR
  else none

/-- DMA (R123, R124, R160). -/
def execDma (c : CoreId) (w : Insn) (es : Errs) (s : State) : Res :=
  .next (s.issue c w fun x s =>
    let t := (s.core c).ctx x
    let a := t.sreg (fRA w)
    let ls := (t.sreg (fRB w)).toNat
    let len := (t.sreg (fRC w)).toNat
    let pull := decide (immBits w 31 31 = 0)
    let q := 2 + immBits w 30 30
    match s.dmaFault a ls len with
    | some code => s.ctxFault c x code a.toNat w
    | none =>
      if 16 ≤ (s.core c).sqUsed q ∨ (!pull ∧ (s.core c).sendWaits x) then s
      else
        let id := (s.core c).nextId
        let d : Dma := { id := id, ctx := x, queue := q, pull := pull, remote := a, ls := ls, len := len, compl := 8 * immBits w 16 0,
                         asked := 0, reqs := [], done := 0, failed := false, w := w, pc := t.pc, errs := es }
        let s := s.updCore c fun k => { k with dmas := k.dmas ++ [d], nextId := id + 1 }
        (s.retire c x).dmaPump c id)

/-- A fault of REMOTE_ERR: in a step id that has already been aborted for one against a package that is not lost, by this package or another, it hands the work over
(R434); otherwise it is a context fault (DEDUCED, notes/assumptions/51.md). -/
def State.remoteFault (s : State) (c x : Nat) (addr : BitVec 64) (w : Insn) (pc : BitVec 18) : State :=
  let counts := s.step.active && !s.pair.lost.contains (srfPkg addr)
  if counts ∧ 0 < s.step.remoteAborts then
    (s.enterFaulted c x Err.REMOTE_ERR).fatal
      (s.mkErr Err.REMOTE_ERR sevPackage c addr.toNat (ctx := some x) (desc := s.descId c x) (layer := s.layerOf c x)
        (detail := faultDetail w pc))
  else s.ctxFaultAt c x Err.REMOTE_ERR addr.toNat w pc

/-- Whether a context takes no fault of an earlier request any more: it is HALTED, or a STOP waits for its response (R70, R122). -/
def Ctx.stopping (t : Ctx) : Bool := decide (t.st = .halted) || t.stopPending

/-- A DMA ends (R125): its completion word, its descriptor free, fences served, and its context's fault when it ended in REMOTE_ERR. It ends
when no transfer is outstanding and every byte has moved or it has failed. -/
def execDmaComplete (c : CoreId) (id : Nat) (failed : Bool) (s : State) : Res :=
  match (s.core c).dmas.find? fun d => decide (d.id = id) with
  | none => .next s
  | some d =>
    let bad := failed || d.failed
    if d.reqs ≠ [] ∨ (!bad ∧ d.done < d.len) then .next s
    else
      let s := s.updCore c fun k =>
        let k := k.wrLs d.compl (completionWord (if bad then 3 else 0) d.done)
        Core.checkFences { k with dmas := k.dmas.filter fun e => decide (e.id ≠ id) }
      let s := s.dmaPumpAll c
      if !bad ∨ ((s.core c).ctx d.ctx).stopping then .next s
      else .next (s.remoteFault c d.ctx d.remote d.w d.pc)

/-- The transfer of a core's DMA that reserved a sink: its DMA, offset, bytes and rack time of asking. -/
def Core.dmaOf (k : Core) (sink : Nat) : Option (Dma × Nat × Nat × Nat) :=
  k.dmas.findSome? fun d => (d.reqs.find? fun r => decide (r.1 = sink)).map fun r => (d, r.2)

/-- A DMA transfer has ended: its sink is free, its bytes count or the DMA has failed, a fence that waits for a push is served (R126), and the core's
DMAs ask on (DEDUCED, notes/assumptions/61.md). -/
def State.dmaDone (s : State) (c sink : Nat) (failed : Bool) : State :=
  match (s.core c).dmaOf sink with
  | none => s
  | some (d, _, n, _) =>
    let d' := { d with reqs := d.reqs.filter fun r => decide (r.1 ≠ sink), done := if failed then d.done else d.done + n,
                       failed := d.failed || failed }
    let s := s.updCore c fun k => Core.checkFences { k with dmas := mapWhere (fun e => decide (e.id = d.id)) (fun _ => d') k.dmas }
    s.dmaPumpAll c

/-- A sink of the hall has its response (R392). -/
def State.hallSinkFree (s : State) (sink : Nat) : State :=
  { s with fab := { s.fab with sinks := s.fab.sinks.filter fun e => decide (e.1 ≠ sink) } }

/-- A cross-rack transfer ends at its gateway and is reported to its issuer; the first that waits takes its place (R409, R410). -/
def State.xrackEnd (s : State) (w id : Nat) (failed : Bool) : State :=
  if (s.wing w).xrack.contains id then
    let s := s.updWing w fun g => { g with xrack := g.xrack.erase id }
    let s := match (s.wing w).xwait with
      | [] => s
      | p :: rest => (s.updWing w fun g => { g with xwait := rest }).xrackSend w p.2
    if id / 256 < 4096 then s.dmaDone (id / 256) (id % 256) failed else s.hallSinkFree (id % 256)
  else s

/-- XRACK_TRANSFER_COMPLETE (R409, R410). -/
def execXrackTransferComplete (w : Wing) (id : Nat) (failed : Bool) (s : State) : Res := .next (s.xrackEnd w id failed)

end Sys2Proof.Machine
end

