-- ==== Sys2Proof/Machine/Larder.lean ====
section
/-!
DEFINITION. The larder (R371 to R377): its command ring, the checks of a command, keys and rows, pooling, and the completion message.
-/
namespace Sys2Proof.Machine

/-- The fields of a larder command (R373). -/
structure LarParam where
  op : Nat
  bf16 : Bool
  int4 : Bool
  out : Nat
  hashed : Bool
  owned : Bool
  pool : Nat
  layer : Nat
  rl : Nat
  keys : Nat
  bags : Nat
  own : Nat
  pairs : Nat
  tag : Nat
  table : BitVec 64
  localRows : Nat
  totalRows : Nat
  list : BitVec 64
  offsets : BitVec 64
  dest : BitVec 64
  reply : Nat
  stride : Nat
  /-- The reserved bytes and bits are zero. -/
  clean : Bool
  deriving DecidableEq, Repr

/-- Read a command. -/
def larParam (b : Bytes) : LarParam :=
  let m := fieldAt b 1 1
  let on (i : Nat) : Bool := decide (m / 2 ^ i % 2 = 1)
  { op := fieldAt b 0 1, bf16 := on 7, int4 := on 6, out := m / 16 % 4, hashed := on 3, owned := on 2, pool := m % 4, layer := fieldAt b 2 1,
    rl := fieldAt b 3 1, keys := fieldAt b 4 4, bags := fieldAt b 8 4, own := fieldAt b 0xC 1, pairs := fieldAt b 0xD 1,
    tag := fieldAt b 0xE 2, table := BitVec.ofNat 64 (fieldAt b 0x10 8), localRows := fieldAt b 0x18 8, totalRows := fieldAt b 0x20 8,
    list := BitVec.ofNat 64 (fieldAt b 0x28 8), offsets := BitVec.ofNat 64 (fieldAt b 0x30 8), dest := BitVec.ofNat 64 (fieldAt b 0x38 8),
    reply := fieldAt b 0x40 2, stride := fieldAt b 0x44 4,
    clean := zeroRange b 0x42 2 && zeroRange b 0x48 56 && decide (fieldAt b 0x40 2 / 2 ^ 12 % 4 = 0) }

/-- Elements of a row (R371). -/
def LarParam.elems (p : LarParam) : Nat := if p.bf16 then 32 * p.rl else 112 * p.rl

/-- Bytes of an output row (R375). -/
def LarParam.outBytes (p : LarParam) : Nat :=
  match p.out with
  | 0 => 4 * p.elems
  | 1 => 2 * p.elems
  | _ => 64 * p.rl

/-- Output rows: one a key with NONE, else one a bag (R373). -/
def LarParam.rows (p : LarParam) : Nat := if p.pool = 0 then p.keys else p.bags

/-- Whether an address is one a larder command may name (R374): aligned, no reserved bit, an offset of its space, this rack. -/
def State.larAddr (s : State) (a : BitVec 64) (spaces : Nat) : Bool :=
  decide (bits64 a 63 58 = 0) && decide (srfRack a = s.pair.rack) && decide (srfSpace a < 2) && (decide (spaces = 2) || decide (srfSpace a = 1)) &&
    s.srfInSpace a && decide (srfOff a % 64 = 0)

/-- Whether a command keeps the rules of R374 that its own bytes decide. OWN_PAIR is this package's pair number (R373); for a table that a pair
alone serves, whose PAIRS is 1 (R372), any number passes (DEDUCED, notes/assumptions/69.md). -/
def State.larOk (s : State) (p : LarParam) : Bool :=
  decide (p.op = 1) && p.clean && decide (p.out ≠ 3) && decide (p.layer ≠ 0xFF) && [1, 2, 4, 8, 16, 32, 64].contains p.rl &&
    decide (1 ≤ p.keys) && decide (p.keys ≤ 65536) && (decide (p.pool = 0) || (decide (1 ≤ p.bags) && decide (p.bags ≤ 4096))) &&
    decide (1 ≤ p.pairs) && decide (p.pairs ≤ 36) && (decide (p.pairs = 1) || decide (p.own = s.rd PAIR_CTL.PAIR_NUM)) && s.larAddr p.table 1 && s.larAddr p.list 2 &&
    (decide (p.pool = 0) || s.larAddr p.offsets 2) && s.larAddr p.dest 2 && decide (p.stride % 64 = 0) && decide (p.outBytes ≤ p.stride) &&
    !(decide (p.pool = 2) && p.owned) && !(decide (p.out = 2) && (p.owned || p.bf16)) &&
    !(decide (srfPkg p.dest = s.me) && decide (srfSpace p.dest = 1) &&
        s.inFootprint (srfOff p.dest) ((p.rows - 1) * p.stride + p.outBytes))

/-- Pieces of at most 4 KiB of a transfer of `n` bytes: offset and length. -/
def bulkPieces (n : Nat) : List (Nat × Nat) := (List.range (ceilDiv n 4096)).map fun i => (4096 * i, min 4096 (n - 4096 * i))

/-- What reading goes on with: the state, what other packages have still to answer, and what the codes of the words and lines to come show. -/
structure ReadSt where
  s : State
  far : Bytes
  es : Errs

/-- Node `node` reads `n` bytes at an SRF address: here through the codes of their words or lines (R80, R365), or from another package by bulk
reads of at most 4 KiB, whose answers come from `far`; an answer cut short is an error response (R401). None when the bytes may not be returned. -/
def ReadSt.read (r : ReadSt) (node : Nat) (a : BitVec 64) (n : Nat) : Option Bytes × ReadSt :=
  let es := Errs.after r.es (ceilDiv n (srfUnit a))
  if srfPkg a = r.s.me then
    if r.s.srfReadable a n then
      let q := r.s.srfCode a n r.es
      (if q.1 then some (q.2.memRead a n) else none, { s := q.2, far := r.far, es := es })
    else (none, { r with es := es })
  else
    let s := (bulkPieces n).foldl (fun s p => s.sendPacket (s.request (a + BitVec.ofNat 64 p.1) tBULK_READ 3 node (p.1 / 4096 % 128) p.2 0 [])) r.s
    let good := !s.badAddress a && !s.pair.lost.contains (srfPkg a) && decide (n ≤ r.far.length)
    (if good then some (r.far.take n) else none, { s := s, far := if good then r.far.drop n else r.far, es := es })

/-- Several regions one after the other, until one may not be returned. -/
def ReadSt.reads (r : ReadSt) (node : Nat) (gs : List (BitVec 64 × Nat)) : Option (List Bytes) × ReadSt :=
  gs.foldl (fun (r : Option (List Bytes) × ReadSt) g =>
    match r.1 with
    | none => r
    | some bs => let q := r.2.read node g.1 g.2; (q.1.map fun b => bs ++ [b], q.2)) (some [], r)

/-! Keys (R372). -/

/-- The finaliser of a hashed key. -/
def larMix (x : BitVec 64) : BitVec 64 :=
  let x := (x ^^^ (x >>> 30)) * 0xBF58476D1CE4E5B9
  let x := (x ^^^ (x >>> 27)) * 0x94D049BB133111EB
  x ^^^ (x >>> 31)

/-- The table row of a key. -/
def LarParam.row (p : LarParam) (key : Nat) : Nat := if p.hashed then (larMix (BitVec.ofNat 64 key)).toNat * p.totalRows / 2 ^ 64 else key

/-- What a key comes to: a local row, a skip, or LAR_KEY. A table whose PAIRS is 1 is this pair's own (R372) (DEDUCED, notes/assumptions/69.md). -/
inductive KeyRes where
  | row (l : Nat)
  | skip
  | bad
  deriving DecidableEq, Repr

def LarParam.key (p : LarParam) (key : Nat) : KeyRes :=
  let r := p.row key
  if p.totalRows ≤ r ∨ p.localRows ≤ r / p.pairs then .bad
  else if r % p.pairs = p.own ∨ p.pairs = 1 then .row (r / p.pairs)
  else if p.owned then .skip
  else .bad

/-- Address of a local row (R371). -/
def LarParam.rowAddr (p : LarParam) (l : Nat) : BitVec 64 :=
  let n := 64 / p.rl
  p.table + BitVec.ofNat 64 (l / n * 4160 + 16 + l % n * (64 * p.rl))

/-! Elements and pooling (R375). -/

/-- The elements of a row as FP32 words, and the number that left the FP32 range (DESIGN CHOICE, notes/assumptions/70.md). -/
def LarParam.decode (p : LarParam) (row : Bytes) : List (BitVec 32) × Nat :=
  if p.bf16 then ((List.range p.elems).map fun e => BitVec.ofNat 32 (fieldAt row (2 * e) 2 * 65536), 0)
  else
    let es := (List.range p.elems).map fun e =>
      let pk := (row.drop (64 * (e / 112))).take 64
      if packBad pk ∨ packCount pk ≠ 0 then (Config.badElem pk (e % 112), false)
      else
        let x := packElem pk (e % 112)
        let v := fpTo32 (fpOfInt x.1 x.2)
        (v, decide (v.toNat % 2 ^ 31 = 0x7F800000))
    (es.map (·.1), (es.filter (·.2)).length)

/-- Divide a number by a count, rounded once to FP32 (R375). -/
def fpDivNat (x : Fp) (n : Nat) : BitVec 32 :=
  match x with
  | .fin neg m e => let q := m * 2 ^ 64; fpTo32 (.fin neg (2 * (q / n) + (if q % n = 0 then 0 else 1)) (e - 65))
  | y => fpTo32 y

/-- The larger of two FP32 words; a NaN operand yields the other (R375). Of two zeros that differ in sign the spec does not say which (notes/assumptions/15.md). -/
def larMax (a b : BitVec 32) : BitVec 32 :=
  let x := fpOf32 a
  let y := fpOf32 b
  if x.isNan then fpTo32 y else if y.isNan then a else if fpLt x y then b else if fpLt y x then a else if Config.choice 2 then a else b

/-- Pool the rows of one bag. -/
def LarParam.poolRows (p : LarParam) (rows : List (List (BitVec 32))) : List (BitVec 32) :=
  match rows with
  | [] => List.replicate p.elems (if p.pool = 3 ∧ p.owned then 0xFF800000 else 0)
  | r :: rest =>
    match p.pool with
    | 0 => r
    | 3 => rest.foldl (fun acc v => (acc.zip v).map fun e => larMax e.1 e.2) r
    | k =>
      let sum := rest.foldl (fun acc v => (acc.zip v).map fun e => fpTo32 (fpAdd (fpOf32 e.1) (fpOf32 e.2))) r
      if k = 2 then sum.map fun v => fpDivNat (fpOf32 v) rows.length else sum

/-- An output row, with the counts of its encoding (DEDUCED, notes/assumptions/69.md). -/
def LarParam.emit (p : LarParam) (v : List (BitVec 32)) : Bytes × List (Flag × Nat) :=
  match p.out with
  | 0 => (v.flatMap fun x => leBytes 4 x.toNat, [])
  | 1 => (v.flatMap fun x => leBytes 2 (fpTo16 (fpOf32 x)), [])
  | _ =>
    let fmt := if p.int4 then 1 else 0
    let bs := (chunks 16 (7 * p.rl) v).map fun b => encBlock fmt 0 0 (b.map fun x => EncVal.num (fpOf32 x))
    let sum (f : EncBlock → Nat) := bs.foldl (fun n b => n + f b) 0
    ((chunks 7 p.rl bs).flatMap (packBytes fmt), [(.clamp, sum (·.clamp)), (.nonf, sum (·.nonf))])

/-! The command. -/

/-- Local core number of a core in its wing (R373). -/
def larLocal (c : Nat) : Nat := 32 * (c / 64 % 32) + c % 32

/-- Ring address of a wing. -/
def State.larRing (s : State) (w : Nat) : Nat := s.rd64 LAR_RING_LO.ADDRESS w

/-- The core of a wing that owns the slots of a local core number (R373). -/
def larCore (w l : Nat) : Nat := coreAt (32 * (w % 2) + l % 32) (32 * (w / 2) + l / 32 % 32)

/-- Cellar address of a core's command slot. -/
def State.larSlot (s : State) (c : Nat) (second : Bool) : Nat :=
  s.larRing (wingOf c) + 256 * larLocal c + (if second then 128 else 0)

/-- The wing whose enabled larder's ring a range of the cellar meets. -/
def State.ringWing (s : State) (a n : Nat) : Option Nat :=
  (List.range 4).find? fun w => s.on LAR_CTL.ENABLE w && decide (s.larRing w < a + n) && decide (a < s.larRing w + 262144)

/-- The sequences whose tokens are carried by the descriptors a core holds (R374). -/
def State.coreSeqs (s : State) (c : Nat) : List Nat :=
  s.step.descs.flatMap fun d => match d.st with | .taken k _ => if k = c then s.descSeqs d else [] | _ => []

/-- The completion message (R377). -/
def State.larReply (s : State) (w reply tag status used skipped : Nat) : State :=
  let a := srfAddr s.me 0 (reply % 4096 * 2 ^ 20) ||| BitVec.ofNat 64 (4 * (tag % 65536))
  let b := leBytes 2 status ++ leBytes 2 0 ++ leBytes 4 used ++ leBytes 4 skipped ++ leBytes 4 0
  s.sendPacket (s.request a tMESSAGE 2 (nodeLarder w) 0 16 (reply / 2 ^ 14) b)

/-- LAR_CMD or LAR_KEY: counted, and the step aborts (R374). -/
def State.larFault (s : State) (w c slot layer : Nat) (key : Bool) : State :=
  let s := (if key then s.bump LAR_ERR.KEY 1 w else s.bump LAR_ERR.CMD 1 w).raiseIrq .lar w (if key then 1 else 0)
  s.raiseFault (if key then Err.LAR_KEY else Err.LAR_CMD) (nodeLarder w) none none slot layer [] (s.coreSeqs c)

/-- A write at its home that meets wing `w`'s ring (R373, R374): one whole slot, stored by its owner, whose earlier command has completed, passes to the
larder with the slot's new bytes. Any other is refused and stores nothing; a refused write of the slot's owner is answered on the queue that the slot's
bytes, as the write would leave them, name (DEDUCED, notes/assumptions/69.md). `store` performs the write, `ack` answers it. -/
def State.larPut (s : State) (w : Nat) (p : Packet) (n : Nat) (store ack : State → State) : State :=
  let o := srfOff p.address
  let l := (o - s.larRing w) / 256 % 1024
  let second := decide (128 ≤ (o - s.larRing w) % 256)
  let c := larCore w l
  let owner := decide (s.larRing w ≤ o) && decide (p.src = s.me) && decide (p.node.toNat = c)
  let busy := (s.wing w).larder.any (fun q => decide (q.core = c) && decide (q.second = second)) ||
    (s.wing w).larQueue.any fun q => decide (q.core = c) && decide (q.second = second)
  if owner && decide (p.type.toNat = tSTORE) && decide (n = 128) && decide (o % 128 = 0) && !busy then
    (store s).updWing w fun g => { g with larQueue := g.larQueue ++ [{ core := c, second := second, cmd := p.payload }] }
  else
    let k := o % 128
    let old := s.celRead (o - k) 128
    let q := larParam (old.take k ++ p.payload.take n ++ old.drop (k + n))
    let s := s.larFault w c (o - k) (if owner then q.layer else 0xFF) false
    ack (if owner then s.larReply w q.reply q.tag 2 0 0 else s)

/-- How the service of a command ends. -/
structure LarRes where
  r : ReadSt
  status : Nat
  used : Nat := 0
  skipped : Nat := 0
  writes : List (BitVec 64 × Bytes) := []

/-- The RL + 1 lines of the cellar in which a local row lies (R28, R371). -/
def LarParam.rowLines (p : LarParam) (l : Nat) : BitVec 64 × Nat := (BitVec.ofNat 64 ((p.rowAddr l).toNat / 64 * 64), 64 * (p.rl + 1))

/-- The regions of a command's keys and offsets. -/
def LarParam.heads (p : LarParam) : List (BitVec 64 × Nat) :=
  (p.list, 8 * p.keys) :: if p.pool = 0 then [] else [(p.offsets, 4 * (p.bags + 1))]

/-- The local rows that keys name. -/
def usedRows (ks : List KeyRes) : List Nat := ks.filterMap fun k => match k with | .row l => some l | _ => none

/-- The keys of a list's bytes. -/
def LarParam.keysOf (p : LarParam) (list : Bytes) : List KeyRes := (List.range p.keys).map fun i => p.key (fieldAt list (8 * i) 8)

/-- Lines that a command with these keys moves (R378): those of its list and offsets, RL + 1 of each row, and those of its output. -/
def LarParam.lines (p : LarParam) (ks : List KeyRes) : Nat :=
  p.heads.foldl (fun n g => n + ceilDiv g.2 64) 0 + (usedRows ks).length * (p.rl + 1) + p.rows * ceilDiv p.outBytes 64

/-- Where output row `b` goes. -/
def LarParam.place (p : LarParam) (b : Nat) : BitVec 64 := p.dest + BitVec.ofNat 64 (b * p.stride)

/-- Serve a command whose offsets are good (R375): keys judged, rows read, pooled and written; rows for another package are left as writes to be sent.
A row that does not lie in its space is not written, and ends the command with CELLAR_ERR (R401) (DEDUCED, notes/assumptions/69.md). -/
def ReadSt.larServe (r : ReadSt) (w : Nat) (p : LarParam) (offs : List Nat) (ks : List KeyRes) : LarRes :=
  if ks.any fun k => decide (k = .bad) then { r := r, status := 1 }
  else
    let used := usedRows ks
    match r.reads (nodeLarder w) (used.map p.rowLines) with
    | (none, r) => { r := r, status := 3 }
    | (some blocks, r) =>
      let bytes := (used.zip blocks).map fun (l, b) => (b.drop ((p.rowAddr l).toNat % 64)).take (64 * p.rl)
      let rows := (ks.foldl (fun (acc : List (Option (List (BitVec 32) × Nat)) × List Bytes) k =>
        match k with
        | .row _ => (acc.1 ++ [some (p.decode (acc.2.headD []))], acc.2.tail)
        | _ => (acc.1 ++ [none], acc.2)) ([], bytes)).1
      let s := r.s.bump64 LAR_ROWS_LO.ROWS used.length w
      let s := s.count .nonf (rows.foldl (fun n x => n + (x.map (·.2)).getD 0) 0) p.layer
      let outs := (List.range p.rows).map fun b =>
        let lo := if p.pool = 0 then b else offs.getD b 0
        let hi := if p.pool = 0 then b + 1 else offs.getD (b + 1) 0
        p.emit (p.poolRows (((rows.drop lo).take (hi - lo)).filterMap fun x => x.map (·.1)))
      let s := (outs.flatMap (·.2)).foldl (fun s f => s.count f.1 f.2 p.layer) s
      let placed := ((List.range outs.length).zip outs).map fun (b, o) => (p.place b, o.1)
      let here := placed.filter fun e => decide (srfPkg e.1 = s.me)
      let fits (e : BitVec 64 × Bytes) : Bool := s.srfInSpace e.1 && s.srfInSpace (e.1 + BitVec.ofNat 64 (p.outBytes - 1))
      let there := (placed.filter fun e => decide (srfPkg e.1 ≠ s.me)).flatMap fun e =>
        (bulkPieces e.2.length).map fun q => (e.1 + BitVec.ofNat 64 q.1, (e.2.drop q.1).take q.2)
      let s := (here.filter fits).foldl (fun s e => s.memWrite e.1 e.2) s
      { r := { r with s := s }, status := if here.all fits then 0 else 3, used := used.length,
        skipped := (ks.filter fun k => decide (k = .skip)).length, writes := there }

/-- A sink of wing `w`'s larder for a write: one of 128 to 255 that is free (R392). -/
def LarCmd.freeSink (q : LarCmd) : Option Nat := ((List.range 128).map (128 + ·)).find? fun k => !(q.reqs.any fun e => decide (e.1 = k))

/-- The command in service sends its writes, each once it has reserved the sink of its acknowledgement (R74, R392). -/
def State.larPump : Nat → State → Nat → State
  | 0, s, _ => s
  | fuel + 1, s, w =>
    match (s.wing w).larder with
    | [] => s
    | q :: rest =>
      match q.writes, q.freeSink with
      | e :: es, some k =>
        let s := s.updWing w fun g => { g with larder := { q with writes := es, reqs := q.reqs ++ [(k, s.rackTime)] } :: rest }
        State.larPump fuel (s.sendPacket (s.request e.1 tBULK_WRITE 3 (nodeLarder w) k e.2.length 0 e.2)) w
      | _, _ => s

/-- Serve the command of slot `q` of wing `w` (R374, R375): a refused one is answered at once, an accepted one awaits its completion message. -/
def State.larTake (s : State) (w : Nat) (q : LarWait) (far : Bytes) (es : Errs) : State :=
  let p := larParam q.cmd
  let slot := s.larSlot q.core q.second
  let refuse (s : State) : State := (s.larFault w q.core slot p.layer false).larReply w p.reply p.tag 2 0 0
  let done (s : State) (r : LarRes) : State :=
    (s.updWing w fun g =>
      { g with larder := g.larder ++ [{ core := q.core, second := q.second, queue := p.reply / 2 ^ 14, reply := p.reply % 4096,
                                        tag := BitVec.ofNat 16 p.tag, status := r.status, used := r.used, skipped := r.skipped, writes := r.writes }] }).larPump
      128 w
  let broken (s : State) : State := s.logErr (s.mkErr Err.CELLAR_ERR sevInfo (nodeLarder w) slot (layer := p.layer))
  if !s.larOk p then refuse s
  else
    match ({ s := s, far := far, es := es } : ReadSt).reads (nodeLarder w) p.heads with
    | (none, r) => done (broken r.s) { r := r, status := 3 }
    | (some bs, r) =>
      let offs := if p.pool = 0 then [] else (List.range (p.bags + 1)).map fun i => fieldAt (bs.getD 1 []) (4 * i) 4
      let offsOk := decide (p.pool = 0) ||
        (decide (offs.head? = some 0) && decide (offs.getLast? = some p.keys) && (offs.zip (offs.drop 1)).all fun o => decide (o.1 ≤ o.2))
      if !offsOk then refuse r.s
      else
        let r := r.larServe w p offs (p.keysOf (bs.headD []))
        done (if r.status = 1 then r.r.s.larFault w q.core slot p.layer true else if r.status = 3 then broken r.r.s else r.r.s) r

/-- The keys of a command as its list stands, in this package or in what another answers first. -/
def State.larKeys (s : State) (p : LarParam) (far : Bytes) : List KeyRes :=
  p.keysOf (if srfPkg p.list = s.me then s.memRead p.list (8 * p.keys) else far)

/-- GATHER (R373 to R375, R377): the larder serves the oldest command in its ring, once the one before it has completed. Each of its line moves takes a
token before it starts (R453): a command that its wing's tokens do not carry to the end takes those there are, and goes on when there are more. `far` is what
other packages answer to its reads, in order, and `es` what the codes of the words and lines of its list, its offsets and its rows show, counted through.
The result is computed with the last token; the completion message follows when every output byte is written (DEDUCED, notes/assumptions/69.md). -/
def execGather (w : Wing) (far : Bytes) (es : Errs) (s : State) : Res :=
  match (s.wing w).larder, (s.wing w).larQueue with
  | [], q :: rest =>
    let p := larParam q.cmd
    let need := if s.larOk p then p.lines (s.larKeys p far) - q.moved else 0
    let n := min need (SMap.get 0 s.power.budget w.val)
    let s := s.phaseCause 2
    let s := if need = 0 then s else s.updPower fun p =>
      { p with asked := p.asked + need, granted := p.granted + n, idleSince := s.rackTime, budget := SMap.upd 0 p.budget w.val (· - n) }
    if n < need then .next (s.updWing w fun g => { g with larQueue := { q with moved := q.moved + n } :: rest })
    else .next ((s.updWing w fun g => { g with larQueue := rest }).larTake w q far es)
  | _, _ => .next s

/-- The command in service completes once its writes to other packages are acknowledged, and its message goes out (R377). -/
def execLarderComplete (w : Wing) (s : State) : Res :=
  match (s.wing w).larder with
  | [] => .next s
  | q :: rest =>
    if q.writes ≠ [] ∨ q.reqs ≠ [] then .next s
    else .next (((s.updWing w fun g => { g with larder := rest }).gatedEnd.phaseCause 2).larReply w (q.reply + 2 ^ 14 * q.queue) q.tag.toNat q.status q.used q.skipped)

/-- Whether the larder of a wing waits for an answer on a sink, and since when. -/
def State.larWaits (s : State) (w sink : Nat) : Option Nat :=
  ((s.wing w).larder.head?.bind fun q => q.reqs.find? fun e => decide (e.1 = sink)).map (·.2)

/-- A write of a larder's output is answered (R377), its sink is free, and the next is sent; an error response ends the command with CELLAR_ERR (DEDUCED,
notes/assumptions/69.md). -/
def State.larAck (s : State) (w sink : Nat) (failed : Bool) : State :=
  (s.updWing w fun g =>
    match g.larder with
    | [] => g
    | q :: rest =>
      { g with larder := { q with reqs := q.reqs.filter fun e => decide (e.1 ≠ sink), status := if failed then 3 else q.status } :: rest }).larPump 128 w

/-- The wing whose larder a node is. -/
def larderWing (n : Nat) : Option Nat := (List.range 4).find? fun w => decide (nodeLarder w = n)

end Sys2Proof.Machine
end

