-- ==== Sys2Proof/Machine/Local.lean ====
section
/-!
DEFINITION. The local class: loads and stores of a core's local store (R77, R80, R108, R160).
-/
namespace Sys2Proof.Machine

/-- A local access of `n` bytes: its checks of range and alignment, then `f x off`; `waits` says whether it waits in issue (R77, R108,
R160). -/
def State.localAccess (s : State) (c : CoreId) (w : Insn) (n : Nat) (waits : Core → Nat → Nat → Bool)
    (f : Nat → Nat → State → State) : State :=
  s.issue c w fun x s =>
    let off := localOff ((s.core c).ctx x) w
    if lsBytes ≤ off then s.ctxFault c x Err.LS_RANGE 0 w
    else if off % n ≠ 0 then s.ctxFault c x Err.LS_ALIGN (srfAddr s.me 0 (c * 2 ^ 20 + off)).toNat w
    else if waits (s.core c) off n then s
    else f x off s

/-- The 64-bit value of `n` loaded bytes; whether a load shorter than 8 bytes is sign-extended the spec does not say
(notes/assumptions/15.md). -/
def loaded (n : Nat) (b : Bytes) : BitVec 64 :=
  if n < 8 ∧ Config.choice 3 then BitVec.ofInt 64 (signN (8 * n) (leNat b)) else BitVec.ofNat 64 (leNat b)

/-- A scalar load of `n` bytes (R108). -/
def State.localLoad (s : State) (c : CoreId) (w : Insn) (n : Nat) (e : Ecc) : State :=
  s.localAccess c w n Core.loadWaits fun x off s =>
    let (good, s) := s.lsRead c off e
    if good then s.finish c x fun t => t.setSreg (fRD w) (loaded n ((s.core c).rdLs off n)) else s

/-- A scalar store of the low `n` bytes of RB (R108) (DEDUCED, notes/assumptions/50.md). -/
def State.localStore (s : State) (c : CoreId) (w : Insn) (n : Nat) : State :=
  s.localAccess c w n Core.storeWaits fun x off s =>
    let v := (((s.core c).ctx x).sreg (fRB w)).toNat
    (s.updCore c fun k => k.wrLs off (leBytes n v)).retire c x

def execLd1 (c : CoreId) (w : Insn) (e : Ecc) (s : State) : Res := .next (s.localLoad c w 1 e)
def execLd2 (c : CoreId) (w : Insn) (e : Ecc) (s : State) : Res := .next (s.localLoad c w 2 e)
def execLd4 (c : CoreId) (w : Insn) (e : Ecc) (s : State) : Res := .next (s.localLoad c w 4 e)
def execLd8 (c : CoreId) (w : Insn) (e : Ecc) (s : State) : Res := .next (s.localLoad c w 8 e)
def execSt1 (c : CoreId) (w : Insn) (s : State) : Res := .next (s.localStore c w 1)
def execSt2 (c : CoreId) (w : Insn) (s : State) : Res := .next (s.localStore c w 2)
def execSt4 (c : CoreId) (w : Insn) (s : State) : Res := .next (s.localStore c w 4)
def execSt8 (c : CoreId) (w : Insn) (s : State) : Res := .next (s.localStore c w 8)

/-- VLD: 128 bytes into vector register RD (R108). -/
def execVld (c : CoreId) (w : Insn) (es : Errs) (s : State) : Res :=
  .next (s.localAccess c w 128 Core.loadWaits fun x off s =>
    let (good, s) := s.lsReads c off 128 es
    if good then s.finish c x fun t => t.setVreg (fRD w) (vOfBytes ((s.core c).rdLs off 128)) else s)

/-- VST: vector register RB to 128 bytes (R108) (DEDUCED, notes/assumptions/50.md). -/
def execVst (c : CoreId) (w : Insn) (s : State) : Res :=
  .next (s.localAccess c w 128 Core.storeWaits fun x off s =>
    let b := vBytes (((s.core c).ctx x).vreg (fRB w))
    (s.updCore c fun k => k.wrLs off b).retire c x)

end Sys2Proof.Machine
end

