-- ==== Sys2Proof/Machine/Remote.lean ====
section
/-!
DEFINITION. Remote access (R118 to R122, R138, R401, R403): the remote instructions, requests at their home, responses at their requester, and the
fabric's error answers.
-/
namespace Sys2Proof.Machine

/-! The instructions. -/

/-- Whether a context has an incomplete store to an 8-byte word of a range (R121). -/
def Core.storeTo (k : Core) (x : Nat) (a : BitVec 64) (n : Nat) : Bool :=
  k.stores.any fun o => decide (o.ctx = x) && decide (8 * o.word < a.toNat + n) && decide (a.toNat / 8 < o.word + ceilDiv o.bytes 8)

/-- A remote load, atomic or TAKE (R74, R118): the checks of its address, then the request, with the context in WAIT_REMOTE. `target` is where
the request goes, when that is not the address in RA. -/
def State.remoteAsk (s : State) (c : CoreId) (w : Insn) (size type length arg : Nat) (payload : Ctx → Bytes)
    (target : Option (BitVec 64)) : State :=
  s.issue c w fun x s =>
    let t := (s.core c).ctx x
    let a := t.sreg (fRA w)
    match s.remoteCheck a size with
    | some code => s.ctxFault c x code a.toNat w
    | none =>
      if target.isNone ∧ (s.core c).storeTo x a size then s
      else
        let p := s.request (target.getD a) type 2 c x length arg (payload t)
        let s := (s.issued c).updCtx c x fun t =>
          { t with st := .waitRemote, wait := .remote, sink := some { w := w, addr := (target.getD a).toNat, size := size, since := s.rackTime } }
        s.sendPacket p

def execRld4 (c : CoreId) (w : Insn) (s : State) : Res := .next (s.remoteAsk c w 4 tLOAD 4 0 (fun _ => []) none)
def execRld8 (c : CoreId) (w : Insn) (s : State) : Res := .next (s.remoteAsk c w 8 tLOAD 8 0 (fun _ => []) none)
def execRldV (c : CoreId) (w : Insn) (s : State) : Res := .next (s.remoteAsk c w 128 tLOAD 128 0 (fun _ => []) none)

/-- TAKE (R118, R138): its request goes to a steward of the core's wing (DEDUCED, notes/assumptions/62.md), once the context's earlier remote stores, DMAs and
sends have completed, as a barrier arrival waits for them (R206, R134). -/
def execTake (c : CoreId) (w : Insn) (s : State) : Res :=
  .next (s.issue c w fun x s' =>
    if !(s'.core c).fenced x then s'.updCtx c x fun t => { t with st := .waitSync, wait := .fence }
    else s'.remoteAsk c w 128 tTAKE 0 0 (fun _ => []) (some (srfAddr s.me 2 (2 * wingOf c * 2 ^ 32))))

/-- RAMO (R119): operand RB, compare value RC. -/
def execRamo (c : CoreId) (w : Insn) (s : State) : Res :=
  if 6 ≤ immBits w 3 0 then .next (s.issue c w fun x s => s.ctxFault c x Err.ILLEGAL_OP 0 w)
  else
    .next (s.remoteAsk c w (if immBits w 4 4 = 1 then 8 else 4) tATOMIC 16 (immBits w 4 0)
      (fun t => leBytes 8 (t.sreg (fRB w)).toNat ++ leBytes 8 (t.sreg (fRC w)).toNat) none)

/-- A free acknowledgement slot: one of 16 (R74). -/
def Core.freeStore (k : Core) : Option Nat :=
  ((List.range 16).map (8 + ·)).find? fun n => !(k.stores.any fun o => decide (o.sink = n))

/-- A remote store (R74, R118): the context continues; with 16 outstanding it waits in WAIT_SYNC (DEDUCED, notes/assumptions/50.md). -/
def State.remoteStore (s : State) (c : CoreId) (w : Insn) (size : Nat) (data : Ctx → Bytes) : State :=
  s.issue c w fun x s =>
    let t := (s.core c).ctx x
    let a := t.sreg (fRA w)
    match s.remoteCheck a size with
    | some code => s.ctxFault c x code a.toNat w
    | none =>
      match (s.core c).freeStore with
      | none => s.updCtx c x fun t => { t with st := .waitSync, wait := .storeBuf }
      | some n =>
        let p := s.request a tSTORE 2 c n size 0 (data t)
        let s := s.updCore c fun k =>
          { k with stores := k.stores ++ [{ sink := n, ctx := x, word := a.toNat / 8, bytes := size, w := w, pc := t.pc, since := s.rackTime }] }
        (s.retire c x).sendPacket p

def execRst4 (c : CoreId) (w : Insn) (s : State) : Res := .next (s.remoteStore c w 4 fun t => leBytes 4 (t.sreg (fRB w)).toNat)
def execRst8 (c : CoreId) (w : Insn) (s : State) : Res := .next (s.remoteStore c w 8 fun t => leBytes 8 (t.sreg (fRB w)).toNat)
def execRstV (c : CoreId) (w : Insn) (s : State) : Res := .next (s.remoteStore c w 128 fun t => vBytes (t.vreg (fRB w)))

/-! Requests at their home. -/

/-- A request that its home takes: discarded when it belongs to an aborted attempt (R398), answered with FAB_ADDR for a bad address (R401), else served. -/
def State.taken (s : State) (p : Packet) (f : State → State) : State :=
  if s.staleEpoch p then s.discard p
  else if s.badAddress p.address then (s.logPacket Err.FAB_ADDR sevInfo (nodeGateway p.wing.toNat) p).answerError p Err.FAB_ADDR
  else f s

/-- A request that has come to its home, whose words show `es`: held behind a message that holds its virtual channel (R89), else taken. -/
def State.atHome (s : State) (p : Packet) (es : Errs) (f : State → State) : State :=
  s.taken p fun s => if s.channelHeld p then s.holdPacket p es else f s

/-- Read `n` bytes at a home whose words or lines show `es`: the bytes, or the code of the error response (R80, R365). -/
def State.homeRead (s : State) (a : BitVec 64) (n : Nat) (es : Errs) : (Bytes ⊕ Code) × State :=
  match srfSpace a with
  | 0 =>
    let r := s.spanReads (srfOff a) n es
    (if r.1 then .inl (r.2.memRead a n) else .inr Err.LS_UNCORRECTABLE, r.2)
  | 1 =>
    let r := s.cellarReads (srfOff a) n es
    (if r.1 then .inl (r.2.memRead a n) else .inr Err.CEL_UNCORRECTABLE, r.2)
  | _ => (.inl (s.memRead a n), s)

/-- Bytes that a request accesses: the width of an atomic (R119), else LENGTH. -/
def pktAccess (p : Packet) : Nat :=
  if p.type.toNat = tATOMIC then (if p.arg.toNat / 16 % 2 = 1 then 8 else 4) else p.length.toNat

/-- A write at its home: a core's write into a READY or DRAINING footprint receives an error response (R324), whose code the spec does not
give; a write that meets an enabled larder's ring is judged by the larder (R373, R374): `store` performs and
answers it, `ack` only answers it (DESIGN CHOICE, notes/assumptions/49.md). -/
def State.homeWrite (s : State) (p : Packet) (store ack : State → State) : State :=
  let o := srfOff p.address
  if srfSpace p.address = 1 ∧ p.node.toNat < 4096 ∧ s.inFootprint o (pktAccess p) then
    let (v, s) := s.draw
    s.answerError p (v.setWidth 16)
  else
    match if srfSpace p.address = 1 then s.ringWing o (pktAccess p) else none with
    | some w => s.larPut w p (pktAccess p) store ack
    | none => store s

/-- Bytes that a read asks for: LENGTH goes to 4,096 (R402). -/
def pktAsked (p : Packet) : Nat := min 4096 p.length.toNat

/-- A read performed at its home: the bytes in a response of type `t`, or an error response. -/
def State.serveRead (s : State) (p : Packet) (es : Errs) (t : Nat) : State :=
  match s.homeRead p.address (pktAsked p) es with
  | (.inl b, s) => s.answer p t b
  | (.inr code, s) => s.answerError p code

/-- A write performed at its home and acknowledged (R121, R366). -/
def State.serveWrite (s : State) (p : Packet) : State :=
  s.homeWrite p (fun s => (s.memWrite p.address p.payload).answer p tACK []) fun s => s.answer p tACK []

/-- LOAD (R120, R403) (DEDUCED, notes/assumptions/64.md). -/
def execLoadPacket (p : Packet) (es : Errs) (s : State) : Res := .next (s.atHome p es fun s => s.serveRead p es tDATA)

/-- STORE (R120, R121, R366) (DEDUCED, notes/assumptions/64.md). -/
def execStorePacket (p : Packet) (s : State) : Res := .next (s.atHome p [] fun s => s.serveWrite p)

/-- The new value of an atomic (R119): `n` bytes wide. -/
def amoNew (op n old b c : Nat) : Nat :=
  let m := 2 ^ (8 * n)
  match op with
  | 0 => (old + b) % m
  | 1 => if old = c % m then b % m else old
  | 2 => if signN (8 * n) b < signN (8 * n) old then b % m else old
  | 3 => if signN (8 * n) old < signN (8 * n) b then b % m else old
  | 4 => if b % m < old then b % m else old
  | 5 => if old < b % m then b % m else old
  | _ => old

/-- An atomic performed at its home, the old value returned (R119, R120, R406). -/
def State.serveAtomic (s : State) (p : Packet) (es : Errs) : State :=
  let n := if p.arg.toNat / 16 % 2 = 1 then 8 else 4
  match s.homeRead p.address n es with
  | (.inl b, s) =>
    let new := amoNew (p.arg.toNat % 16) n (leNat b) (fieldAt p.payload 0 8) (fieldAt p.payload 8 8)
    s.homeWrite p (fun s => (s.memWrite p.address (leBytes n new)).answer p tDATA b) fun s => s.answer p tDATA b
  | (.inr code, s) => s.answerError p code

/-- ATOMIC (R119, R120, R406). -/
def execAtomicPacket (p : Packet) (es : Errs) (s : State) : Res := .next (s.atHome p es fun s => s.serveAtomic p es)

/-- TAKE reaches its wing steward (R204 to R206). -/
def execTakePacket (p : Packet) (s : State) : Res :=
  .next (s.atHome p [] fun s => s.takeArrives p.node.toNat (p.sink.toNat % 8))

/-- Descriptors of a wing have become available: its waiting TAKEs are served (R205). -/
def execDescriptorAvailable (w : Wing) (s : State) : Res := .next (s.serveWaits w)

/-- BULK_WRITE (R403). -/
def execBulkWritePacket (p : Packet) (s : State) : Res := .next (s.atHome p [] fun s => s.serveWrite p)

/-- BULK_READ (R393, R403). -/
def execBulkReadPacket (p : Packet) (es : Errs) (s : State) : Res := .next (s.atHome p es fun s => s.serveRead p es tBULK_DATA)

/-- A request that was held before its core is taken and performed, by its TYPE (R89, R403). -/
def State.serveHeld (s : State) (p : Packet) (es : Errs) : State :=
  s.taken p fun s =>
    if p.type.toNat = tLOAD then s.serveRead p es tDATA
    else if p.type.toNat = tATOMIC then s.serveAtomic p es
    else if p.type.toNat = tBULK_READ then s.serveRead p es tBULK_DATA
    else s.serveWrite p

/-! Responses at their requester. -/

/-- A response that names a context, slot or sink that does not wait for it is discarded and logged (R71). -/
def State.orphan (s : State) (p : Packet) : State := s.logErr (s.mkErr Err.RESP_ORPHAN sevInfo p.node.toNat)

/-- A response from another package that comes after the 2 ms of its request is discarded (R401): the state without it, for a response that is one. Of two
responses of one package to one sink the first is the late one, since they come in order (R389) (DEDUCED, notes/assumptions/146.md). -/
def State.takeLate (s : State) (p : Packet) : Option State :=
  let e := (p.node.toNat, p.sink.toNat, p.src)
  if p.src ≠ s.me ∧ s.fab.late.contains e then some { s with fab := { s.fab with late := s.fab.late.erase e } } else none

/-- The context of a core that waits for a response with this sink, if it does (R68). -/
def State.waiter (s : State) (p : Packet) : Option Ctx :=
  let t := (s.core p.node.toNat).ctx p.sink.toNat
  if p.node.toNat < 4096 ∧ p.sink.toNat < 8 ∧ t.st = .waitRemote ∧ t.sink.isSome then some t else none

/-- DATA (R68, R70): the result goes to its register and the context becomes READY, or HALTED when a STOP waits. The old value of a 32-bit RAMO fills
RD with zeros above, as that of a 32-bit RLD does (DESIGN CHOICE, notes/assumptions/117.md). -/
def execDataPacket (p : Packet) (s : State) : Res :=
  let c := p.node.toNat
  let x := p.sink.toNat
  match s.takeLate p with
  | some s => .next s
  | none =>
  if 4096 ≤ c then .next s
  else
    match s.waiter p with
    | none => .next (s.orphan p)
    | some t =>
      if t.stopPending then .next (s.updCore c fun k => k.haltCtx x)
      else
        .next (s.updCtx c x fun t =>
          match t.sink with
          | some k =>
            let t := if k.size = 128 then t.setVreg (fRD k.w) (vOfBytes p.payload)
              else t.setSreg (fRD k.w) (BitVec.ofNat 64 (leNat (p.payload.take k.size)))
            { t.advance with st := .ready, wait := .none, sink := none }
          | none => t)

/-- The packet that heads its virtual channel before a core is performed, a message received, and the next of that channel in turn, until a message is
met that finds no room (R89) (DEDUCED, notes/assumptions/73.md). -/
def State.drainHeld : Nat → State → Nat → BitVec 2 → State
  | 0, s, _, _ => s
  | fuel + 1, s, c, vc =>
    match findIdx (fun h : HeldMsg => decide (h.pkt.vc = vc)) (s.core c).held 0 with
    | none => s
    | some (i, h) =>
      let t := s.updCore c fun k => { k with held := k.held.eraseIdx i }
      if h.queue < 4 then
        if s.staleEpoch h.pkt then State.drainHeld fuel (t.discard h.pkt) c vc
        else if (((s.core c).rq h.queue).place h.pkt.length.toNat).isSome then State.drainHeld fuel (t.updCore c fun k => k.receive h.pkt) c vc
        else s
      else State.drainHeld fuel (t.serveHeld h.pkt h.errs) c vc

/-- A held message finds room: the first of its channel held for the queue, and with it the packets it has kept back (R89)
(DEDUCED, notes/assumptions/73.md). -/
def execHeldMessageDeliver (c : CoreId) (q : Fin 4) (s : State) : Res :=
  let k := s.core c
  match k.held.find? fun h : HeldMsg => decide (h.queue = q.val) with
  | none => .next s
  | some h => .next (s.drainHeld k.held.length c h.pkt.vc)

/-- A remote store is complete (R121): its slot is free, contexts that wait for one and fences are served. -/
def State.storeDone (s : State) (c sink : Nat) : State :=
  s.updCore c fun k =>
    (({ k with stores := k.stores.filter fun o => decide (o.sink ≠ sink) } : Core).wake fun w => decide (w = Wait.storeBuf)).checkFences

/-- A response to the hall transfer engines has come (R392): its sink is free, or its cross-rack transfer ends, by the gateway's own report unless it has
failed (R409, R410). -/
def State.hallAnswer (s : State) (p : Packet) (failed : Bool) : State :=
  if p.node.toNat ≠ nodeEngines then s
  else
    match s.fab.sinks.find? fun e => decide (e.1 = p.sink.toNat) with
    | none => s
    | some e =>
      if srfRack (srfAddr e.2 0 0) = s.pair.rack then s.hallSinkFree e.1
      else if failed then s.xrackEnd (nodeWing nodeEngines) (256 * nodeEngines + e.1) true
      else s

/-- ACK (R121, R124). A cross-rack transfer is the gateway's until it reports it (R409). -/
def execAckPacket (p : Packet) (s : State) : Res :=
  let c := p.node.toNat
  let k := s.core c
  let sink := p.sink.toNat
  match s.takeLate p with
  | some s => .next s
  | none =>
  if 4096 ≤ c then .next (match larderWing c with | some w => s.larAck w sink false | none => s.hallAnswer p false)
  else if k.stores.any fun o => decide (o.sink = sink) then .next (s.storeDone c sink)
  else
    match k.dmaOf sink with
    | some (d, _) => if srfRack d.remote = s.pair.rack then .next (s.dmaDone c sink false) else .next s
    | none => .next (s.orphan p)

/-- BULK_DATA (R124): into the sink the DMA reserved. -/
def execBulkDataPacket (p : Packet) (s : State) : Res :=
  let c := p.node.toNat
  match s.takeLate p with
  | some s => .next s
  | none =>
  if 4096 ≤ c then .next (s.hallAnswer p false)
  else
    match (s.core c).dmaOf p.sink.toNat with
    | some (d, off, n, _) =>
      let s := s.updCore c fun k => k.wrLs (d.ls + off) (p.payload.take n)
      if srfRack d.remote = s.pair.rack then .next (s.dmaDone c p.sink.toNat false) else .next s
    | none => .next (s.orphan p)

/-- ERROR (R122, R410): the request is complete and its context faults with REMOTE_ERR, unless a STOP waits. A cross-rack transfer gives its gateway's
place back (R409). -/
def execErrorPacket (p : Packet) (s : State) : Res :=
  let c := p.node.toNat
  let k := s.core c
  let sink := p.sink.toNat
  match s.takeLate p with
  | some s => .next s
  | none =>
  if 4096 ≤ c then .next (match larderWing c with | some w => s.larAck w sink true | none => s.hallAnswer p true)
  else if sink < 8 then
    match s.waiter p with
    | none => .next (s.orphan p)
    | some t =>
      if t.stopPending then .next (s.updCore c fun k => k.haltCtx sink)
      else
        match t.sink with
        | some q => .next (s.remoteFault c sink (BitVec.ofNat 64 q.addr) q.w t.pc)
        | none => .next s
  else
    match k.stores.find? fun o => decide (o.sink = sink) with
    | some o =>
      let s := s.storeDone c sink
      if (k.ctx o.ctx).stopping then .next s else .next (s.remoteFault c o.ctx (BitVec.ofNat 64 (8 * o.word)) o.w o.pc)
    | none =>
      match k.dmaOf sink with
      | some (d, _) => .next (if srfRack d.remote = s.pair.rack then s.dmaDone c sink true else s.xrackEnd (wingOf c) (256 * c + sink) true)
      | none => .next (s.orphan p)

/-! The fabric's own answers. -/

/-- A packet of a reserved TYPE is discarded and logged (R403) (DESIGN CHOICE, notes/assumptions/49.md). -/
def execFabType (p : Packet) (s : State) : Res :=
  if p.type.toNat ≤ tERROR then .next s else .next (s.logPacket Err.FAB_TYPE sevInfo nodeNone p)

/-- Since when the sender of a request waits for its response, when it does: a core's context, store slot or DMA sink, or a larder's sink (R74, R401). -/
def State.askedAt (s : State) (p : Packet) : Option Nat :=
  let c := p.node.toNat
  let sink := p.sink.toNat
  let k := s.core c
  if 4096 ≤ c then (larderWing c).bind fun w => s.larWaits w sink
  else if sink < 8 then (s.waiter p).bind fun t => t.sink.map (·.since)
  else if (s.wing (wingOf c)).xwait.any fun e => decide (e.2.node = p.node) && decide (e.2.sink = p.sink) then none
  else
    match k.stores.find? fun o => decide (o.sink = sink) with
    | some o => some o.since
    | none => (k.dmaOf sink).map fun d => d.2.2.2

/-- A request of this package without a response after 2 ms is answered with an error response, and a response from the package asked that comes
later for its sink is discarded (R401). -/
def execFabTimeout (p : Packet) (s : State) : Res :=
  match if pktAsks p ∧ p.src = s.me then s.askedAt p else none with
  | none => .next s
  | some t =>
    if s.rackTime < t + 2000000 then .next s
    else
      let w := nodeWing p.node.toNat
      let d := srfPkg p.address
      let s : State := if d = s.me then s else { s with fab := { s.fab with late := s.fab.late ++ [(p.node.toNat, p.sink.toNat, d)] } }
      let s := (s.bump FAB_XRACK.TIMEOUTS 1 w).raiseIrq .fab w 1
      .next ((s.logPacket Err.FAB_TIMEOUT sevInfo (nodeGateway w) p).answerError p Err.FAB_TIMEOUT)

end Sys2Proof.Machine
end

