-- ==== Sys2Proof/Machine/Scalar.lean ====
section
/-!
DEFINITION. The scalar and control classes (R105 to R111).
-/
namespace Sys2Proof.Machine

/-- A two-source scalar instruction. -/
def State.alu (s : State) (c : CoreId) (w : Insn) (f : BitVec 64 → BitVec 64 → BitVec 64) : State :=
  s.issue c w fun x s => s.finish c x fun t => t.setSreg (fRD w) (f (t.sreg (fRA w)) (t.sreg (fRB w)))

def execAdd (c : CoreId) (w : Insn) (s : State) : Res := .next (s.alu c w fun a b => a + b)
def execSub (c : CoreId) (w : Insn) (s : State) : Res := .next (s.alu c w fun a b => a - b)
def execAndI (c : CoreId) (w : Insn) (s : State) : Res := .next (s.alu c w fun a b => a &&& b)
def execOrI (c : CoreId) (w : Insn) (s : State) : Res := .next (s.alu c w fun a b => a ||| b)
def execXorI (c : CoreId) (w : Insn) (s : State) : Res := .next (s.alu c w fun a b => a ^^^ b)

/-- A shift by RB; the spec states no result for 64 or more (a free value, notes/assumptions/15.md). -/
def shiftBy (op : Nat) (f : BitVec 64 → Nat → BitVec 64) (a b : BitVec 64) : BitVec 64 :=
  if b.toNat < 64 then f a b.toNat else Config.scalar op a b

def execShl (c : CoreId) (w : Insn) (s : State) : Res := .next (s.alu c w (shiftBy 1 fun a n => a <<< n))
def execShr (c : CoreId) (w : Insn) (s : State) : Res := .next (s.alu c w (shiftBy 2 fun a n => a >>> n))
def execSar (c : CoreId) (w : Insn) (s : State) : Res := .next (s.alu c w (shiftBy 3 fun a n => a.sshiftRight n))
def execMul (c : CoreId) (w : Insn) (s : State) : Res := .next (s.alu c w fun a b => a * b)

/-- The high half of the product; whether it is signed the spec does not say (notes/assumptions/15.md). -/
def mulHigh (a b : BitVec 64) : BitVec 64 :=
  if Config.choice 1 then BitVec.ofInt 64 (a.toInt * b.toInt / 2 ^ 64) else BitVec.ofNat 64 (a.toNat * b.toNat / 2 ^ 64)

def execMulh (c : CoreId) (w : Insn) (s : State) : Res := .next (s.alu c w mulHigh)

/-- Order for MIN and MAX; whether it is signed the spec does not say (notes/assumptions/15.md). -/
def scalarLe (a b : BitVec 64) : Bool := if Config.choice 0 then decide (a.toInt ≤ b.toInt) else decide (a.toNat ≤ b.toNat)

def execMinI (c : CoreId) (w : Insn) (s : State) : Res := .next (s.alu c w fun a b => if scalarLe a b then a else b)
def execMaxI (c : CoreId) (w : Insn) (s : State) : Res := .next (s.alu c w fun a b => if scalarLe a b then b else a)

/-- CMP writes a comparison of RA and RB; the spec does not state its encoding (a free value of the operands,
notes/assumptions/15.md). -/
def execCmp (c : CoreId) (w : Insn) (s : State) : Res := .next (s.alu c w fun a b => Config.scalar 0 a b)

/-- LI: the sign-extended immediate (R107). -/
def execLi (c : CoreId) (w : Insn) (s : State) : Res :=
  .next (s.issue c w fun x s => s.finish c x fun t => t.setSreg (fRD w) (immS w))

/-- LIH: the immediate into the high half (R107). -/
def execLih (c : CoreId) (w : Insn) (s : State) : Res :=
  .next (s.issue c w fun x s => s.finish c x fun t =>
    t.setSreg (fRD w) (w.extractLsb' 0 32 ++ (t.sreg (fRD w)).extractLsb' 0 32))

/-! Control (R110, R111). -/

/-- The instruction number IMM instructions from the branch. -/
def branchTarget (t : Ctx) (w : Insn) : Nat := (((pcIdx t.pc : Int) + (w.extractLsb' 0 32).toInt) % 32768).toNat

/-- A relative branch taken when `p` holds of RA and RB. -/
def State.branch (s : State) (c : CoreId) (w : Insn) (p : BitVec 64 → BitVec 64 → Bool) : State :=
  s.issue c w fun x s =>
    (s.issued c).updCtx c x fun t => if p (t.sreg (fRA w)) (t.sreg (fRB w)) then t.jumpTo (branchTarget t w) else t.advance

def execBr (c : CoreId) (w : Insn) (s : State) : Res := .next (s.branch c w fun _ _ => true)
def execBeq (c : CoreId) (w : Insn) (s : State) : Res := .next (s.branch c w fun a b => decide (a = b))
def execBne (c : CoreId) (w : Insn) (s : State) : Res := .next (s.branch c w fun a b => decide (a ≠ b))
def execBlt (c : CoreId) (w : Insn) (s : State) : Res := .next (s.branch c w fun a b => decide (a.toInt < b.toInt))
def execBge (c : CoreId) (w : Insn) (s : State) : Res := .next (s.branch c w fun a b => decide (b.toInt ≤ a.toInt))

/-- JMP: to the byte address in RA, a multiple of 8 below 0x4_0000 (R110). -/
def execJmp (c : CoreId) (w : Insn) (s : State) : Res :=
  .next (s.issue c w fun x s =>
    let a := (((s.core c).ctx x).sreg (fRA w)).toNat
    if a % 8 ≠ 0 ∨ imemBytes ≤ a then s.ctxFault c x Err.ILLEGAL_OP 0 w
    else (s.issued c).updCtx c x fun t => t.jumpTo (a / 8))

/-- REP's change of its context: an empty loop is skipped as if its last instruction had been passed; otherwise the loop is entered
(R111). -/
def Ctx.rep (t : Ctx) (n body : Nat) : Ctx :=
  let i := pcIdx t.pc
  if n = 0 then { t with pc := idxPc (i + body) }.advance
  else { t with pc := idxPc (i + 1), loops := { first := i + 1, last := i + body, left := min n 0xFFFFFFFF } :: t.loops }

/-- REP (R111). A body of no instruction is a reserved field and faults (DEDUCED, R106; notes/assumptions/16.md). -/
def execRep (c : CoreId) (w : Insn) (s : State) : Res :=
  .next (s.issue c w fun x s =>
    let t := (s.core c).ctx x
    if 2 ≤ t.loops.length then s.ctxFault c x Err.LOOP_DEPTH 0 w
    else if immBits w 15 0 = 0 then s.ctxFault c x Err.ILLEGAL_OP 0 w
    else (s.issued c).updCtx c x fun t => t.rep (t.sreg (fRA w)).toNat (immBits w 15 0))

end Sys2Proof.Machine
end

