-- ==== Sys2Proof/Machine/Sync.lean ====
section
/-!
DEFINITION. Fences and barriers (R126, R131 to R134).
-/
namespace Sys2Proof.Machine

/-- FENCE (R126). -/
def execFence (c : CoreId) (w : Insn) (s : State) : Res :=
  .next (s.issue c w fun x s =>
    if (s.core c).fenced x then s.retire c x
    else (s.retire c x).updCtx c x fun t => { t with st := .waitSync, wait := .fence })

/-- The phase of a context's last arrival at a barrier, if it has one (R133) (DEDUCED, notes/assumptions/72.md). -/
def Ctx.lastArrival (t : Ctx) (b : Nat) : Option Nat := let p := SMap.get 0 t.arrivals b; if p = 0 then none else some (p - 1)

/-- An arrival at a barrier: the member-count-th completes the phase and releases its waiters (R132). -/
def State.arrive (s : State) (c x b : Nat) : State :=
  let k := s.barrier b
  let s := s.updCtx c x fun t => { t with arrivals := SMap.set 0 t.arrivals b (k.phase + 1) }
  if k.arrived + 1 < k.count then s.updBarrier b fun k => { k with arrived := k.arrived + 1 }
  else
    let s := s.updBarrier b fun k => { k with phase := k.phase + 1, arrived := 0 }
    s.mapCores fun _ q => q.wake fun w => decide (w = Wait.barrier b k.phase) || decide (w = Wait.arrive b k.phase)

/-- BAR.A's conditions (R131, R133, R134), then `f`: an unset barrier faults; earlier stores, DMAs and sends are waited for as by a fence; a
context whose last arrival belongs to the open phase waits for it. -/
def State.atBarrier (s : State) (c x : Nat) (w : Insn) (f : State → State) : State :=
  let b := immBits w 7 0
  let k := s.barrier b
  if k.count = 0 then s.ctxFault c x Err.BAR_UNSET 0 w
  else if !(s.core c).fenced x then s.updCtx c x fun t => { t with st := .waitSync, wait := .fence }
  else if ((s.core c).ctx x).lastArrival b = some k.phase then s.updCtx c x fun t => { t with st := .waitSync, wait := .arrive b k.phase }
  else f s

/-- BAR.W (R132): waits while the phase of the context's last arrival is open; a context that has not arrived does not wait (DEDUCED, notes/assumptions/72.md). -/
def State.waitPhase (s : State) (c x b : Nat) : State :=
  match ((s.core c).ctx x).lastArrival b with
  | some p => if p = (s.barrier b).phase then s.updCtx c x fun t => { t with st := .waitSync, wait := .barrier b p } else s
  | none => s

/-- BAR.A. -/
def execBarA (c : CoreId) (w : Insn) (s : State) : Res :=
  .next (s.issue c w fun x s => s.atBarrier c x w fun s => (s.arrive c x (immBits w 7 0)).retire c x)

/-- BAR.W (DEDUCED, notes/assumptions/72.md). -/
def execBarW (c : CoreId) (w : Insn) (s : State) : Res :=
  .next (s.issue c w fun x s => (s.retire c x).waitPhase c x (immBits w 7 0))

/-- BAR: BAR.A, then BAR.W. -/
def execBar (c : CoreId) (w : Insn) (s : State) : Res :=
  .next (s.issue c w fun x s => s.atBarrier c x w fun s => ((s.arrive c x (immBits w 7 0)).retire c x).waitPhase c x (immBits w 7 0))

end Sys2Proof.Machine
end

