-- ==== Sys2Proof/Machine/System.lean ====
section
/-!
DEFINITION. The system class (R72, R102, R109), the scheduler, START and STOP (R68 to R72), and uncorrectable instruction words (R82).
-/
namespace Sys2Proof.Machine

/-- YIELD (R68, R72). -/
def execYield (c : CoreId) (w : Insn) (s : State) : Res :=
  .next (s.issue c w fun x s => (s.retire c x).updCtx c x fun t => { t with st := .ready })

/-- HALT (R68, R151). -/
def execHalt (c : CoreId) (w : Insn) (s : State) : Res :=
  .next (s.issue c w fun x s => (s.retire c x).updCore c fun k => k.haltCtx x)

/-- TIME (R102): rack time within 20 ns, a free value within that bound (DESIGN CHOICE, notes/assumptions/56.md). -/
def execTime (c : CoreId) (w : Insn) (s : State) : Res :=
  .next (s.issue c w fun x s =>
    let (v, s) := s.draw
    s.finish c x fun t => t.setSreg (fRD w) (BitVec.ofNat 64 (s.rackTime + v.toNat % 41 - 20)))

/-- The core values RDCSR reads (R109); none for another selector. -/
def State.csr (s : State) (c x sel : Nat) : Option (BitVec 64) :=
  match sel with
  | 0 => some (BitVec.ofNat 64 c)
  | 1 => some (BitVec.ofNat 64 x)
  | 2 => some (s.me.setWidth 64)
  | 3 => some (BitVec.ofNat 64 s.step.id)
  | 4 => some (s.core c).hsCnt
  | _ => none

/-- RDCSR (R109). -/
def execRdcsr (c : CoreId) (w : Insn) (s : State) : Res :=
  .next (s.issue c w fun x s =>
    match s.csr c x (immBits w 7 0) with
    | some v => s.finish c x fun t => t.setSreg (fRD w) v
    | none => s.ctxFault c x Err.ILLEGAL_OP 0 w)

/-- The scheduler gives the free issue slot to the next READY context (R72). -/
def execSchedulerSelect (c : CoreId) (s : State) : Res := .next (s.updCore c Core.select)

/-- START (R68, R71). -/
def execCtxStart (c : CoreId) (x : CtxId) (start : BitVec 18) (s : State) : Res :=
  if ((s.core c).ctx x).st = .halted then .next (s.updCore c fun k => k.startCtx x start.toNat)
  else .next (s.logErr (s.mkErr Err.CTX_BUSY sevInfo c (ctx := some x)))

/-- STOP (R68, R70). -/
def execCtxStop (c : CoreId) (x : CtxId) (s : State) : Res := .next (s.updCore c fun k => k.stopCtx x)

/-- The RUNNING context fetches an instruction word whose code shows `e` (R82), an injected error included (R545, R547). A corrected word counts; an
uncorrectable one makes the context wait for the rewrite, and the second time in a step it is logged and the work handed over. A word whose rewrite is
under way is waited for. -/
def execImemUncorrectableFetch (c : CoreId) (e : Ecc) (s : State) : Res :=
  let k := s.core c
  match k.running with
  | none => .next s
  | some x =>
    let line := pcIdx (k.ctx x).pc
    let waiting := (List.range 8).any fun y => decide ((k.ctx y).wait = .imem line)
    let (e, injected, s) := s.eccWith (Block.core.page c) 0 (8 * line) e
    match e with
    | .clean => .next s
    | .uncorrectable =>
      if k.imemBad.contains line && !waiting then
        .next (s.fatal (s.mkErr Err.IMEM_UNCORRECTABLE sevPackage c (8 * line) (ctx := some x) (injected := injected)))
      else
        let s := s.updCore c fun k => { k with imemBad := insertNat line k.imemBad }
        .next (s.updCtx c x fun t => { t with st := .waitImem, wait := .imem line })
    | _ => .next (s.bump CORE_IMEM_FIX.FIX_COUNT 1 c)

/-- The bytes the seated image holds for an instruction word of a core (R82, R139). -/
def State.imageWord (s : State) (c line : Nat) : Option Bytes :=
  s.seatedImage.bind fun b =>
    ((imgSegs b).find? fun g => g.covers c && decide (g.imem ≤ 8 * line) && decide (8 * line < g.imem + g.len)).map fun g =>
      (b.drop (g.src + (8 * line - g.imem))).take 8

/-- The steward has rewritten the word (R82): the contexts that wait for it refetch it. -/
def execImemWordRewrite (c : CoreId) (line : BitVec 15) (s : State) : Res :=
  let s := match s.imageWord c line.toNat with
    | some b => s.updCore c fun k => { k with imem := Memory.write k.imem (8 * line.toNat) b }
    | none => s
  .next ((s.bump CORE_IMEM_FIX.REWRITES 1 c).updCore c fun k => k.wake fun w => decide (w = Wait.imem line.toNat))

end Sys2Proof.Machine
end

