-- ==== Sys2Proof/Machine/Dispatch.lean ====
section
/-!
DEFINITION. The one dispatch from a command to its meaning: one arm per row of the table.
-/
namespace Sys2Proof.Machine

/-- The effect of a command on everything but the queue. -/
def exec (i : Instr) (s : State) : Host.Outcome State Fault Refusal :=
  match i with
  | .registerWrite q off v => Sys2Proof.Machine.execRegisterWrite q off v s
  | .regMisalignedAccess q off isWrite => Sys2Proof.Machine.execRegMisalignedAccess q off isWrite s
  | .unassignedPageAccess q off isWrite => Sys2Proof.Machine.execUnassignedPageAccess q off isWrite s
  | .lowWordRead q off => Sys2Proof.Machine.execLowWordRead q off s
  | .lowWordWrite q off v => Sys2Proof.Machine.execLowWordWrite q off v s
  | .highWordWrite q off v => Sys2Proof.Machine.execHighWordWrite q off v s
  | .pgIrqWrite q off v => Sys2Proof.Machine.execPgIrqWrite q off v s
  | .errClr q off v => Sys2Proof.Machine.execErrClr q off v s
  | .ptbCtlWrite q off v => Sys2Proof.Machine.execPtbCtlWrite q off v s
  | .dbgTrigEdge => Sys2Proof.Machine.execDbgTrigEdge s
  | .add c w => Sys2Proof.Machine.execAdd c w s
  | .sub c w => Sys2Proof.Machine.execSub c w s
  | .andI c w => Sys2Proof.Machine.execAndI c w s
  | .orI c w => Sys2Proof.Machine.execOrI c w s
  | .xorI c w => Sys2Proof.Machine.execXorI c w s
  | .shl c w => Sys2Proof.Machine.execShl c w s
  | .shr c w => Sys2Proof.Machine.execShr c w s
  | .sar c w => Sys2Proof.Machine.execSar c w s
  | .mul c w => Sys2Proof.Machine.execMul c w s
  | .mulh c w => Sys2Proof.Machine.execMulh c w s
  | .minI c w => Sys2Proof.Machine.execMinI c w s
  | .maxI c w => Sys2Proof.Machine.execMaxI c w s
  | .cmp c w => Sys2Proof.Machine.execCmp c w s
  | .li c w => Sys2Proof.Machine.execLi c w s
  | .lih c w => Sys2Proof.Machine.execLih c w s
  | .br c w => Sys2Proof.Machine.execBr c w s
  | .beq c w => Sys2Proof.Machine.execBeq c w s
  | .bne c w => Sys2Proof.Machine.execBne c w s
  | .blt c w => Sys2Proof.Machine.execBlt c w s
  | .bge c w => Sys2Proof.Machine.execBge c w s
  | .jmp c w => Sys2Proof.Machine.execJmp c w s
  | .rep c w => Sys2Proof.Machine.execRep c w s
  | .ld1 c w e => Sys2Proof.Machine.execLd1 c w e s
  | .ld2 c w e => Sys2Proof.Machine.execLd2 c w e s
  | .ld4 c w e => Sys2Proof.Machine.execLd4 c w e s
  | .ld8 c w e => Sys2Proof.Machine.execLd8 c w e s
  | .st1 c w => Sys2Proof.Machine.execSt1 c w s
  | .st2 c w => Sys2Proof.Machine.execSt2 c w s
  | .st4 c w => Sys2Proof.Machine.execSt4 c w s
  | .st8 c w => Sys2Proof.Machine.execSt8 c w s
  | .vld c w es => Sys2Proof.Machine.execVld c w es s
  | .vst c w => Sys2Proof.Machine.execVst c w s
  | .vadd c w => Sys2Proof.Machine.execVadd c w s
  | .vsub c w => Sys2Proof.Machine.execVsub c w s
  | .vmul c w => Sys2Proof.Machine.execVmul c w s
  | .vfma c w => Sys2Proof.Machine.execVfma c w s
  | .vmin c w => Sys2Proof.Machine.execVmin c w s
  | .vmax c w => Sys2Proof.Machine.execVmax c w s
  | .vcmp c w => Sys2Proof.Machine.execVcmp c w s
  | .vsel c w => Sys2Proof.Machine.execVsel c w s
  | .vcvt c w => Sys2Proof.Machine.execVcvt c w s
  | .vexp2 c w => Sys2Proof.Machine.execVexp2 c w s
  | .vlog2 c w => Sys2Proof.Machine.execVlog2 c w s
  | .vrsqrt c w => Sys2Proof.Machine.execVrsqrt c w s
  | .vrcp c w => Sys2Proof.Machine.execVrcp c w s
  | .vsum c w => Sys2Proof.Machine.execVsum c w s
  | .vmaxr c w => Sys2Proof.Machine.execVmaxr c w s
  | .vbcast c w => Sys2Proof.Machine.execVbcast c w s
  | .vlane c w => Sys2Proof.Machine.execVlane c w s
  | .vtopk c w => Sys2Proof.Machine.execVtopk c w s
  | .accClr c w => Sys2Proof.Machine.execAccClr c w s
  | .mma4 c w es => Sys2Proof.Machine.execMma4 c w es s
  | .mmab c w es => Sys2Proof.Machine.execMmab c w es s
  | .wout c w => Sys2Proof.Machine.execWout c w s
  | .accSave c w => Sys2Proof.Machine.execAccSave c w s
  | .accLoad c w es => Sys2Proof.Machine.execAccLoad c w es s
  | .pack c w es => Sys2Proof.Machine.execPack c w es s
  | .dec c w far farAgain es => Sys2Proof.Machine.execDec c w far farAgain es s
  | .streamShardRehash c x es => Sys2Proof.Machine.execStreamShardRehash c x es s
  | .enc c w es => Sys2Proof.Machine.execEnc c w es s
  | .syncS c w => Sys2Proof.Machine.execSyncS c w s
  | .streamComplete c x => Sys2Proof.Machine.execStreamComplete c x s
  | .send c w es => Sys2Proof.Machine.execSend c w es s
  | .rqcfg c w => Sys2Proof.Machine.execRqcfg c w s
  | .recv c w => Sys2Proof.Machine.execRecv c w s
  | .release c w => Sys2Proof.Machine.execRelease c w s
  | .dma c w es => Sys2Proof.Machine.execDma c w es s
  | .dmaComplete c id failed => Sys2Proof.Machine.execDmaComplete c id failed s
  | .rld4 c w => Sys2Proof.Machine.execRld4 c w s
  | .rld8 c w => Sys2Proof.Machine.execRld8 c w s
  | .rldV c w => Sys2Proof.Machine.execRldV c w s
  | .rst4 c w => Sys2Proof.Machine.execRst4 c w s
  | .rst8 c w => Sys2Proof.Machine.execRst8 c w s
  | .rstV c w => Sys2Proof.Machine.execRstV c w s
  | .ramo c w => Sys2Proof.Machine.execRamo c w s
  | .take c w => Sys2Proof.Machine.execTake c w s
  | .fence c w => Sys2Proof.Machine.execFence c w s
  | .barA c w => Sys2Proof.Machine.execBarA c w s
  | .barW c w => Sys2Proof.Machine.execBarW c w s
  | .bar c w => Sys2Proof.Machine.execBar c w s
  | .yield c w => Sys2Proof.Machine.execYield c w s
  | .halt c w => Sys2Proof.Machine.execHalt c w s
  | .time c w => Sys2Proof.Machine.execTime c w s
  | .rdcsr c w => Sys2Proof.Machine.execRdcsr c w s
  | .schedulerSelect c => Sys2Proof.Machine.execSchedulerSelect c s
  | .ctxStart c x start => Sys2Proof.Machine.execCtxStart c x start s
  | .ctxStop c x => Sys2Proof.Machine.execCtxStop c x s
  | .imemUncorrectableFetch c e => Sys2Proof.Machine.execImemUncorrectableFetch c e s
  | .imemWordRewrite c line => Sys2Proof.Machine.execImemWordRewrite c line s
  | .loadPacket p es => Sys2Proof.Machine.execLoadPacket p es s
  | .storePacket p => Sys2Proof.Machine.execStorePacket p s
  | .atomicPacket p es => Sys2Proof.Machine.execAtomicPacket p es s
  | .messagePacket p => Sys2Proof.Machine.execMessagePacket p s
  | .heldMessageDeliver c q => Sys2Proof.Machine.execHeldMessageDeliver c q s
  | .takePacket p => Sys2Proof.Machine.execTakePacket p s
  | .descriptorAvailable w => Sys2Proof.Machine.execDescriptorAvailable w s
  | .bulkWritePacket p => Sys2Proof.Machine.execBulkWritePacket p s
  | .bulkReadPacket p es => Sys2Proof.Machine.execBulkReadPacket p es s
  | .dataPacket p => Sys2Proof.Machine.execDataPacket p s
  | .ackPacket p => Sys2Proof.Machine.execAckPacket p s
  | .bulkDataPacket p => Sys2Proof.Machine.execBulkDataPacket p s
  | .errorPacket p => Sys2Proof.Machine.execErrorPacket p s
  | .fabType p => Sys2Proof.Machine.execFabType p s
  | .fabTimeout p => Sys2Proof.Machine.execFabTimeout p s
  | .rqOverrun c q => Sys2Proof.Machine.execRqOverrun c q s
  | .xrackTransferComplete w id failed => Sys2Proof.Machine.execXrackTransferComplete w id failed s
  | .codewordReceive l cw => Sys2Proof.Machine.execCodewordReceive l cw s
  | .spareLaneRetrain w spare => Sys2Proof.Machine.execSpareLaneRetrain w spare s
  | .meshUncorrectable k w header e => Sys2Proof.Machine.execMeshUncorrectable k w header e s
  | .laneTrained l identity => Sys2Proof.Machine.execLaneTrained l identity s
  | .laneIdentityTimeout l => Sys2Proof.Machine.execLaneIdentityTimeout l s
  | .stepBoundary cons => Sys2Proof.Machine.execStepBoundary cons s
  | .idleBoundary cons reported => Sys2Proof.Machine.execIdleBoundary cons reported s
  | .expiryCheck => Sys2Proof.Machine.execExpiryCheck s
  | .packagePartComplete samples => Sys2Proof.Machine.execPackagePartComplete samples s
  | .mirrorReceive m => Sys2Proof.Machine.execMirrorReceive m s
  | .mirrorAckReceive step => Sys2Proof.Machine.execMirrorAckReceive step s
  | .boundaryContributionReceive k => Sys2Proof.Machine.execBoundaryContributionReceive k s
  | .workListReceive h otherPairs => Sys2Proof.Machine.execWorkListReceive h otherPairs s
  | .mantelSlotStart n => Sys2Proof.Machine.execMantelSlotStart n s
  | .pageWalk => Sys2Proof.Machine.execPageWalk s
  | .loftMoveConfirm e back => Sys2Proof.Machine.execLoftMoveConfirm e back s
  | .loftMoveAbandon e => Sys2Proof.Machine.execLoftMoveAbandon e s
  | .resumeCopyBack e pages again reachable => Sys2Proof.Machine.execResumeCopyBack e pages again reachable s
  | .routeRecordCheck layer half => Sys2Proof.Machine.execRouteRecordCheck layer half s
  | .dispatchHeaderSend layer half dest => Sys2Proof.Machine.execDispatchHeaderSend layer half dest s
  | .dispatchHeaderReceive from_ bytes => Sys2Proof.Machine.execDispatchHeaderReceive from_ bytes s
  | .combineHeaderSend layer half src => Sys2Proof.Machine.execCombineHeaderSend layer half src s
  | .combineHeaderReceive from_ bytes => Sys2Proof.Machine.execCombineHeaderReceive from_ bytes s
  | .nop p rec => Sys2Proof.Machine.execNop p rec s
  | .admitSeq p rec => Sys2Proof.Machine.execAdmitSeq p rec s
  | .cancel p rec => Sys2Proof.Machine.execCancel p rec s
  | .pause p rec => Sys2Proof.Machine.execPause p rec s
  | .resume p rec => Sys2Proof.Machine.execResume p rec s
  | .setPriority p rec => Sys2Proof.Machine.execSetPriority p rec s
  | .budget p rec => Sys2Proof.Machine.execBudget p rec s
  | .query p rec => Sys2Proof.Machine.execQuery p rec s
  | .programLoad p rec => Sys2Proof.Machine.execProgramLoad p rec s
  | .programLoadHaltTimeout => Sys2Proof.Machine.execProgramLoadHaltTimeout s
  | .load p rec => Sys2Proof.Machine.execLoad p rec s
  | .drain p rec => Sys2Proof.Machine.execDrain p rec s
  | .evict p rec => Sys2Proof.Machine.execEvict p rec s
  | .slotQuery p rec => Sys2Proof.Machine.execSlotQuery p rec s
  | .recheck p rec => Sys2Proof.Machine.execRecheck p rec s
  | .badOpcode p rec => Sys2Proof.Machine.execBadOpcode p rec s
  | .torn p => Sys2Proof.Machine.execTorn p s
  | .promptFetchComplete e ids => Sys2Proof.Machine.execPromptFetchComplete e ids s
  | .porchUnbackedAccess q p off w => Sys2Proof.Machine.execPorchUnbackedAccess q p off w s
  | .resultBatchWrite => Sys2Proof.Machine.execResultBatchWrite s
  | .irqModerationTimeout p => Sys2Proof.Machine.execIrqModerationTimeout p s
  | .batchConfirm p step peer => Sys2Proof.Machine.execBatchConfirm p step peer s
  | .ringReset q p v => Sys2Proof.Machine.execRingReset q p v s
  | .porchReset q p v => Sys2Proof.Machine.execPorchReset q p v s
  | .manifestReadComplete m bytes fields => Sys2Proof.Machine.execManifestReadComplete m bytes fields s
  | .manifestReceive m bytes => Sys2Proof.Machine.execManifestReceive m bytes s
  | .shardArrival m k data => Sys2Proof.Machine.execShardArrival m k data s
  | .objectVerifyComplete m => Sys2Proof.Machine.execObjectVerifyComplete m s
  | .tableSlotLoad w n => Sys2Proof.Machine.execTableSlotLoad w n s
  | .shardRecheck m k es => Sys2Proof.Machine.execShardRecheck m k es s
  | .shardRepair m k copy => Sys2Proof.Machine.execShardRepair m k copy s
  | .hbmLaneRemap st ch dq => Sys2Proof.Machine.execHbmLaneRemap st ch dq s
  | .rowPpr st bank row => Sys2Proof.Machine.execRowPpr st bank row s
  | .scrubRead line e => Sys2Proof.Machine.execScrubRead line e s
  | .scrubLate => Sys2Proof.Machine.execScrubLate s
  | .celProbeWrite q v => Sys2Proof.Machine.execCelProbeWrite q v s
  | .gather w far es => Sys2Proof.Machine.execGather w far es s
  | .larderComplete w => Sys2Proof.Machine.execLarderComplete w s
  | .heartbeatSend => Sys2Proof.Machine.execHeartbeatSend s
  | .heartbeatReceive => Sys2Proof.Machine.execHeartbeatReceive s
  | .pairAliveToggle => Sys2Proof.Machine.execPairAliveToggle s
  | .pairAliveEdge => Sys2Proof.Machine.execPairAliveEdge s
  | .pairLinkSilent => Sys2Proof.Machine.execPairLinkSilent s
  | .pairAliveSilent => Sys2Proof.Machine.execPairAliveSilent s
  | .pairLinkDown => Sys2Proof.Machine.execPairLinkDown s
  | .claim from_ pair attempt => Sys2Proof.Machine.execClaim from_ pair attempt s
  | .claimGrant => Sys2Proof.Machine.execClaimGrant s
  | .claimDeny => Sys2Proof.Machine.execClaimDeny s
  | .claimTimeout => Sys2Proof.Machine.execClaimTimeout s
  | .handover code => Sys2Proof.Machine.execHandover code s
  | .handoverReceive => Sys2Proof.Machine.execHandoverReceive s
  | .takeover bytes => Sys2Proof.Machine.execTakeover bytes s
  | .stepAbort bytes => Sys2Proof.Machine.execStepAbort bytes s
  | .stepAbortResend dest => Sys2Proof.Machine.execStepAbortResend dest s
  | .rejoin q => Sys2Proof.Machine.execRejoin q s
  | .rejoinCopyComplete digest => Sys2Proof.Machine.execRejoinCopyComplete digest s
  | .leave q => Sys2Proof.Machine.execLeave q s
  | .releaseLane q lane => Sys2Proof.Machine.execReleaseLane q lane s
  | .force q => Sys2Proof.Machine.execForce q s
  | .arm q => Sys2Proof.Machine.execArm q s
  | .frameSyncEdge => Sys2Proof.Machine.execFrameSyncEdge s
  | .frameSyncLost => Sys2Proof.Machine.execFrameSyncLost s
  | .refclkLost => Sys2Proof.Machine.execRefclkLost s
  | .phaseClassExpire => Sys2Proof.Machine.execPhaseClassExpire s
  | .railMoveComplete => Sys2Proof.Machine.execRailMoveComplete s
  | .damperTokenGrant => Sys2Proof.Machine.execDamperTokenGrant s
  | .damperCorrection draw core mv => Sys2Proof.Machine.execDamperCorrection draw core mv s
  | .capCeilingUpdate => Sys2Proof.Machine.execCapCeilingUpdate s
  | .pwrCapWrite q v => Sys2Proof.Machine.execPwrCapWrite q v s
  | .kick q => Sys2Proof.Machine.execKick q s
  | .hbLost => Sys2Proof.Machine.execHbLost s
  | .brakeAssert => Sys2Proof.Machine.execBrakeAssert s
  | .brakeRelease => Sys2Proof.Machine.execBrakeRelease s
  | .pwrWarnAssert => Sys2Proof.Machine.execPwrWarnAssert s
  | .pwrWarnRelease => Sys2Proof.Machine.execPwrWarnRelease s
  | .pwrPaceWrite q v => Sys2Proof.Machine.execPwrPaceWrite q v s
  | .railUndervolt r mv => Sys2Proof.Machine.execRailUndervolt r mv s
  | .inputUv mv => Sys2Proof.Machine.execInputUv mv s
  | .inputUvRelease => Sys2Proof.Machine.execInputUvRelease s
  | .inputCut mv => Sys2Proof.Machine.execInputCut mv s
  | .sensorRead n reading => Sys2Proof.Machine.execSensorRead n reading s
  | .throttleStep => Sys2Proof.Machine.execThrottleStep s
  | .tripRecover => Sys2Proof.Machine.execTripRecover s
  | .glowEntry => Sys2Proof.Machine.execGlowEntry s
  | .workDueWake => Sys2Proof.Machine.execWorkDueWake s
  | .emberIdleEntry => Sys2Proof.Machine.execEmberIdleEntry s
  | .bankedIdleEntry => Sys2Proof.Machine.execBankedIdleEntry s
  | .idleReport from_ floor idle => Sys2Proof.Machine.execIdleReport from_ floor idle s
  | .rest entry banked => Sys2Proof.Machine.execRest entry banked s
  | .restEmberEntry => Sys2Proof.Machine.execRestEmberEntry s
  | .restBankedEntry => Sys2Proof.Machine.execRestBankedEntry s
  | .scheduledWake => Sys2Proof.Machine.execScheduledWake s
  | .wakeNFall => Sys2Proof.Machine.execWakeNFall s
  | .porchWatch => Sys2Proof.Machine.execPorchWatch s
  | .pwrWake q => Sys2Proof.Machine.execPwrWake q s
  | .smoor q => Sys2Proof.Machine.execSmoor q s
  | .wearLedgerAccrue => Sys2Proof.Machine.execWearLedgerAccrue s
  | .ledgerSave => Sys2Proof.Machine.execLedgerSave s
  | .kindlingRoleReassign => Sys2Proof.Machine.execKindlingRoleReassign s
  | .inServiceRemap c => Sys2Proof.Machine.execInServiceRemap c s
  | .logFlashAppend => Sys2Proof.Machine.execLogFlashAppend s
  | .mgtLogSelHiWrite q v => Sys2Proof.Machine.execMgtLogSelHiWrite q v s
  | .setEndpointId b eid => Sys2Proof.Machine.execSetEndpointId b eid s
  | .getEndpointId b => Sys2Proof.Machine.execGetEndpointId b s
  | .getEndpointUuid b => Sys2Proof.Machine.execGetEndpointUuid b s
  | .getMctpVersionSupport b => Sys2Proof.Machine.execGetMctpVersionSupport b s
  | .getMessageTypeSupport b => Sys2Proof.Machine.execGetMessageTypeSupport b s
  | .mctpUnsupportedType b kind => Sys2Proof.Machine.execMctpUnsupportedType b kind s
  | .getTid b => Sys2Proof.Machine.execGetTid b s
  | .setTid b tid => Sys2Proof.Machine.execSetTid b tid s
  | .getPldmVersion b => Sys2Proof.Machine.execGetPldmVersion b s
  | .getPldmTypes b => Sys2Proof.Machine.execGetPldmTypes b s
  | .getPldmCommands b => Sys2Proof.Machine.execGetPldmCommands b s
  | .getPdrRepositoryInfo b => Sys2Proof.Machine.execGetPdrRepositoryInfo b s
  | .getPdr b record => Sys2Proof.Machine.execGetPdr b record s
  | .getSensorReading b sensor => Sys2Proof.Machine.execGetSensorReading b sensor s
  | .getStateSensorReadings b sensor => Sys2Proof.Machine.execGetStateSensorReadings b sensor s
  | .setEventReceiver b eid => Sys2Proof.Machine.execSetEventReceiver b eid s
  | .pollForPlatformEventMessage b => Sys2Proof.Machine.execPollForPlatformEventMessage b s
  | .pldmSensorRefresh temps => Sys2Proof.Machine.execPldmSensorRefresh temps s
  | .platformEventResend n => Sys2Proof.Machine.execPlatformEventResend n s
  | .queryDeviceIdentifiers b => Sys2Proof.Machine.execQueryDeviceIdentifiers b s
  | .getFirmwareParameters b => Sys2Proof.Machine.execGetFirmwareParameters b s
  | .requestUpdate b maxTransfer => Sys2Proof.Machine.execRequestUpdate b maxTransfer s
  | .passComponentTable b => Sys2Proof.Machine.execPassComponentTable b s
  | .updateComponent b size => Sys2Proof.Machine.execUpdateComponent b size s
  | .requestFirmwareDataResponse b data => Sys2Proof.Machine.execRequestFirmwareDataResponse b data s
  | .applyComplete good => Sys2Proof.Machine.execApplyComplete good s
  | .activateFirmware b => Sys2Proof.Machine.execActivateFirmware b s
  | .getStatus b => Sys2Proof.Machine.execGetStatus b s
  | .cancelUpdateComponent b => Sys2Proof.Machine.execCancelUpdateComponent b s
  | .cancelUpdate b => Sys2Proof.Machine.execCancelUpdate b s
  | .fwUpdateTimeout => Sys2Proof.Machine.execFwUpdateTimeout s
  | .getVersion b => Sys2Proof.Machine.execGetVersion b s
  | .getCapabilities b => Sys2Proof.Machine.execGetCapabilities b s
  | .negotiateAlgorithms b => Sys2Proof.Machine.execNegotiateAlgorithms b s
  | .getDigests b => Sys2Proof.Machine.execGetDigests b s
  | .getCertificate b offset length => Sys2Proof.Machine.execGetCertificate b offset length s
  | .challenge b nonce => Sys2Proof.Machine.execChallenge b nonce s
  | .getMeasurements b index nonce => Sys2Proof.Machine.execGetMeasurements b index nonce s
  | .spdmUnsupportedRequest b kind => Sys2Proof.Machine.execSpdmUnsupportedRequest b kind s
  | .recoveryRequest => Sys2Proof.Machine.execRecoveryRequest s
  | .recoveryImageReceive image readBackGood => Sys2Proof.Machine.execRecoveryImageReceive image readBackGood s
  | .recoveryPartnerTimeout => Sys2Proof.Machine.execRecoveryPartnerTimeout s
  | .recoveryGo q readBackGood => Sys2Proof.Machine.execRecoveryGo q readBackGood s
  | .ownerRecord q => Sys2Proof.Machine.execOwnerRecord q s
  | .modelKeyRecord q => Sys2Proof.Machine.execModelKeyRecord q s
  | .debugAuthRecord q => Sys2Proof.Machine.execDebugAuthRecord q s
  | .recordCheckComplete => Sys2Proof.Machine.execRecordCheckComplete s
  | .gen q => Sys2Proof.Machine.execGen q s
  | .revoke q => Sys2Proof.Machine.execRevoke q s
  | .debugGrantExpire => Sys2Proof.Machine.execDebugGrantExpire s
  | .commit q => Sys2Proof.Machine.execCommit q s
  | .mgtHandover q => Sys2Proof.Machine.execMgtHandover q s
  | .retire q v => Sys2Proof.Machine.execRetire q v s
  | .powerUp b => Sys2Proof.Machine.execPowerUp b s
  | .pairLinkTrainStart => Sys2Proof.Machine.execPairLinkTrainStart s
  | .fabEnableWrite q w v => Sys2Proof.Machine.execFabEnableWrite q w v s
  | .perstAssert => Sys2Proof.Machine.execPerstAssert s
  | .perstDeassert => Sys2Proof.Machine.execPerstDeassert s
  | .pfFlr => Sys2Proof.Machine.execPfFlr s
  | .vfFlr p => Sys2Proof.Machine.execVfFlr p s
  | .go q => Sys2Proof.Machine.execGo q s
  | .form r => Sys2Proof.Machine.execForm r s
  | .formTimeout => Sys2Proof.Machine.execFormTimeout s
  | .package q => Sys2Proof.Machine.execPackage q s
  | .wing q w => Sys2Proof.Machine.execWing q w s
  | .wingResetComplete w => Sys2Proof.Machine.execWingResetComplete w s
  | .coreReset c => Sys2Proof.Machine.execCoreReset c s
  | .coreChunk c good => Sys2Proof.Machine.execCoreChunk c good s
  | .laneBerTest l uncorrectable corrected => Sys2Proof.Machine.execLaneBerTest l uncorrectable corrected s
  | .sweepLate c => Sys2Proof.Machine.execSweepLate c s
  | .mateDetBreak => Sys2Proof.Machine.execMateDetBreak s
  | .jtagExtest => Sys2Proof.Machine.execJtagExtest s
  | .jtagExtestPulse => Sys2Proof.Machine.execJtagExtestPulse s
  | .jtagExtestTrain => Sys2Proof.Machine.execJtagExtestTrain s
  | .jtagIdcode => Sys2Proof.Machine.execJtagIdcode s
  | .jtagPrivateInstruction => Sys2Proof.Machine.execJtagPrivateInstruction s
  | .hearthInstructionComplete c => Sys2Proof.Machine.execHearthInstructionComplete c s
  | .sendComplete c id => Sys2Proof.Machine.execSendComplete c id s
  | .refclkRestored => Sys2Proof.Machine.execRefclkRestored s
  | .pcieLinkTraining gtps width bme => Sys2Proof.Machine.execPcieLinkTraining gtps width bme s
  | .entdaa address => Sys2Proof.Machine.execEntdaa address s

end Sys2Proof.Machine
end

