-- ==== Sys2Proof/Machine/Fabric.lean ====
section
/-!
DEFINITION. The fabric of the package (R382 to R396, R400, R405): where its nodes stand, the route of a packet, the grants of its outputs, and the
chimney's credits. A packet enters with its record in `out`; in every step without a command each output grants one flit (DESIGN CHOICE,
notes/assumptions/130.md).
-/
namespace Sys2Proof.Machine

/-! Positions and routes (R383 to R387). -/

/-- The corner of a wing's gateway, and the end of its row of stewards, larder and hasher. -/
def gatewayPos (w : Nat) : Nat × Nat := (63 * (w % 2), 63 * (w / 2))
def stewardPos (w : Nat) : Nat × Nat := (63 * (w % 2), 16 + 32 * (w / 2))

/-- Where a wing's hall link attaches. -/
def hallPos (w : Nat) : Nat × Nat := (31 + w % 2, 31 + w / 2)

/-- The router to which a node attaches, in logical coordinates (R382, R383); a hall node attaches to none. Stack s is at position s ÷ 4 of wing
s mod 4 (DEDUCED, notes/assumptions/133.md). -/
def nodePos (n : Nat) : Option (Nat × Nat) :=
  let w := nodeWing n
  if n < 0x1000 then some (n % 64, n / 64)
  else if n < 0x1008 then some (stewardPos w)
  else if n < 0x1010 then none
  else if n < 0x1014 then some (stewardPos w)
  else if n < 0x1018 then some (gatewayPos w)
  else if n < 0x1024 then some (8 + 8 * ((n - 0x1018) / 4) + 32 * (w % 2), 63 * (w / 2))
  else if n < 0x1028 then some (stewardPos w)
  else none

/-- The physical column of a logical position, of 66 in its row (R90). -/
def State.physCol (s : State) (x y : Nat) : Nat :=
  let f := match SMap.get none s.kept.remaps (32 * wingOf (coreAt x y) + y % 32) with
    | some r => r.1
    | none => 32
  33 * (x / 32) + (if x % 32 < f then x % 32 else x % 32 + 1)

/-- The steps from `a` to `b` along a line: the places left behind, in order. -/
def legFrom (a b : Nat) : List Nat :=
  if a ≤ b then (List.range (b - a)).map fun i => a + i else (List.range (a - b)).map fun i => a - i

/-- The route between two positions (R384): along x to the destination column, every physical position of the row forwarding (R91), then along y. -/
def State.meshRoute (s : State) (a b : Nat × Nat) : List Link :=
  let east := decide (s.physCol a.1 a.2 ≤ s.physCol b.1 a.2)
  let south := decide (a.2 ≤ b.2)
  (legFrom (s.physCol a.1 a.2) (s.physCol b.1 a.2)).map (fun c => Link.x a.2 c east) ++ (legFrom a.2 b.2).map fun r => Link.y b.1 r south

/-- The path of a packet inside this package, from node `n` to node `d` of the package `dest`, with the plane and lane `pl` of R405 (R386, R387,
R400). -/
def State.path (s : State) (n d : Nat) (dest : PkgId) (pl : Nat) : List Link :=
  let w := nodeWing n
  if dest = s.me then
    match nodePos n, nodePos d with
    | some a, some b => s.meshRoute a b
    | some a, none => s.meshRoute a (hallPos w) ++ [.hallUp w]
    | none, some b => .hallDown (nodeWing d) :: s.meshRoute (hallPos (nodeWing d)) b
    | none, none => []
  else if dest = s.partner then
    match nodePos n with
    | some a => s.meshRoute a (hallPos w) ++ [.hallUp w, .pair]
    | none => [.pair]
  else
    match nodePos n with
    | some a => s.meshRoute a (gatewayPos w) ++ [.gateway (18 * w + pl)]
    | none => .hallDown w :: s.meshRoute (hallPos w) (gatewayPos w) ++ [.gateway (18 * w + pl)]

/-- The path of a packet that another package sent, from where it enters: the hall for the partner's, the gateway of its WING for another's (R387,
R402, R404). -/
def State.pathIn (s : State) (p : Packet) (d : Nat) : List Link :=
  if p.src = s.partner then s.path nodeEngines d s.me 0 else s.path (nodeGateway p.wing.toNat) d s.me 0

/-- The node to which a packet goes: the requester of a response, else the target's (R402). -/
def packetNode (p : Packet) : Nat := if 8 ≤ p.type.toNat then p.node.toNat else targetNode p.address

/-- The path of a packet of this package or of another one. -/
def State.packetPath (s : State) (p : Packet) (dest : PkgId) : List Link :=
  if p.src ≠ s.me then s.pathIn p (packetNode p)
  else
    let from_ := p.sender.getD (p.node.toNat, planeLane p.node.toNat p.address)
    s.path from_.1 (packetNode p) dest from_.2

/-! Outputs and their grants (R385, R388, R391). -/

/-- Whether a link leaves the package. -/
def Link.leaves : Link → Bool
  | .gateway _ => true
  | .pair => true
  | _ => false

/-- The lintel direction of a link that crosses one: along rows or columns, which of the two lintels of that kind, and which way (R385). -/
def Link.lintel : Link → Option (Bool × Nat × Bool)
  | .x row col east => if col = (if east then 32 else 33) then some (true, row / 32, east) else none
  | .y col row south => if row = (if south then 31 else 32) then some (false, col / 32, south) else none
  | _ => none

/-- Lanes of a lintel direction that carry at once; the spare stands in for a failed one (R385, R415). -/
def lintelLanes : Nat := 25

/-- The place of a link in a packet's route. -/
def Transit.place (t : Transit) (l : Link) : Option Nat := t.route.findIdx? fun m => decide (m = l)

/-- Flits of a packet that wait to pass the link at place `k` of its route. -/
def Transit.ready (t : Transit) (k : Nat) : Nat := (if k = 0 then t.flits else t.sent.getD (k - 1) 0) - t.sent.getD k 0

/-- Whether a packet has a flit waiting at a link. -/
def Transit.waits (t : Transit) (l : Link) : Bool :=
  match t.place l with
  | some k => decide (0 < t.ready k)
  | none => false

/-- Flits in the buffer beyond a link, in the partition of a channel and class (R388). -/
def FabricSt.held (f : FabricSt) (l : Link) (vc : Nat) (arrived : Bool) : Nat :=
  f.transits.foldl (fun n t =>
    match t.place l with
    | some k => if t.vc = vc ∧ t.arrived = arrived ∧ k + 1 < t.route.length then n + t.ready (k + 1) else n
    | none => n) 0

/-- Whether the next buffer holds a free credit for a packet's flit (R391): of the 8 flits of a partition, or what the far side of a lane has returned.
`exits` says it of a link that leaves the package. -/
def FabricSt.credit (f : FabricSt) (exits : Link → Transit → Bool) (l : Link) (t : Transit) : Bool :=
  if l.leaves then exits l t else decide (f.held l t.vc t.arrived < 8)

/-- The oldest packet of a channel with a flit waiting at a link and a credit for it. -/
def FabricSt.first (f : FabricSt) (exits : Link → Transit → Bool) (l : Link) (vc : Nat) : Option Transit :=
  f.transits.find? fun t => decide (t.vc = vc) && t.waits l && f.credit exits l t

/-- Grants in a row that passed each channel over at a link. -/
def FabricSt.passedAt (f : FabricSt) (l : Link) : List Nat := ((f.passed.find? fun e => decide (e.1 = l)).map (·.2)).getD [0, 0, 0, 0]

/-- The channel that a link grants (R391): one that has been passed over 16 times, else the first in the order VC0, VC1, VC2, VC3. -/
def FabricSt.channel (f : FabricSt) (exits : Link → Transit → Bool) (l : Link) : Option Nat :=
  let able := (List.range 4).filter fun v => (f.first exits l v).isSome
  match able.find? fun v => decide (16 ≤ (f.passedAt l).getD v 0) with
  | some v => some v
  | none => able.head?

/-- A grant: the packet whose flit passes a link. -/
abbrev Grant := Link × Transit

/-- The links at which flits wait, those of the oldest packet first. -/
def FabricSt.busy (f : FabricSt) : List Link :=
  (f.transits.flatMap fun t => t.route.filter t.waits).foldl (fun ls l => if ls.contains l then ls else ls ++ [l]) []

/-- One grant at every link that can move a flit, and at most as many at the ports of a lintel direction as it has lanes (R385, R391). -/
def FabricSt.grants (f : FabricSt) (exits : Link → Transit → Bool) : List Grant :=
  f.busy.foldl (fun gs l =>
    match f.channel exits l with
    | none => gs
    | some v =>
      match f.first exits l v with
      | none => gs
      | some t =>
        if l.lintel.isSome ∧ lintelLanes ≤ (gs.filter fun g => decide (g.1.lintel = l.lintel)).length then gs else gs ++ [(l, t)]) []

/-- A packet after the grants of a turn. -/
def Transit.advance (t : Transit) (gs : List Grant) : Transit :=
  gs.foldl (fun t g =>
    if g.2.n = t.n ∧ g.2.piece = t.piece then
      match t.place g.1 with
      | some k => { t with sent := t.sent.set k (t.sent.getD k 0 + 1) }
      | none => t
    else t) t

/-- The counts of a link that has granted channel `v` (R391). -/
def FabricSt.count (f : FabricSt) (exits : Link → Transit → Bool) (l : Link) (v : Nat) : List Nat :=
  (List.range 4).map fun u => if u = v ∨ !(f.first exits l u).isSome then 0 else (f.passedAt l).getD u 0 + 1

/-- A turn of the fabric: what its outputs grant, and the fabric after it. -/
def FabricSt.turn (f : FabricSt) (exits : Link → Transit → Bool) : List Grant × FabricSt :=
  let gs := f.grants exits
  (gs, { f with transits := f.transits.map fun t => t.advance gs,
                passed := f.busy.map fun l => (l, match gs.find? fun g => decide (g.1 = l) with
                  | some g => f.count exits l g.2.vc
                  | none => f.passedAt l) })

/-- Whether every flit of a packet has passed every link of its route. -/
def Transit.done (t : Transit) : Bool := (List.range t.route.length).all fun k => decide (t.flits ≤ t.sent.getD k 0)

/-- Flits still to be granted, over all links. -/
def FabricSt.left (f : FabricSt) : Nat :=
  f.transits.foldl (fun n t => n + ((List.range t.route.length).map fun k => t.flits - t.sent.getD k 0).foldl (· + ·) 0) 0

/-! Outputs that leave the package. -/

/-- Whether an output that leaves the package may grant a flit of a packet (R391, R412, R416). Where two flows share a lane (R414), the second leaves the
first a credit. A cross-rack transfer that waits for a place holds its VC3 buffer at the gateway, and what was sent after it on VC3 waits behind it (R409). -/
def State.exitOpen (s : State) (l : Link) (t : Transit) : Bool :=
  match l with
  | .gateway n =>
    let a := s.lane (s.physLane n)
    let keep := if n % 2 = 1 ∧ s.physLane (n - 1) = s.physLane n then 1 else 0
    s.on FAB_CTL.ENABLE (n / 18) && a.carrying && decide (keep < a.credits.getD t.vc 0) &&
      !(decide (t.vc = 3) && (s.wing (n / 18)).xwait.any fun e => decide (e.1 ≤ t.n))
  | .pair =>
    match s.pairLane with
    | some m => decide (0 < (s.lane m).credits.getD t.vc 0)
    | none => false
  | _ => true

/-- A flit leaves on its lane. -/
def State.putFlit (s : State) (g : Grant) : State :=
  let last := match g.2.place g.1 with
    | some k => decide (g.2.sent.getD k 0 + 1 = g.2.flits)
    | none => true
  match g.1 with
  | .gateway n => s.onLane (s.physLane n) fun a => a.put g.2.vc last
  | .pair =>
    match s.pairLane with
    | none => s
    | some l =>
      let s := s.onLane l fun a => a.put g.2.vc last
      if (s.lane l).slots = 0 then s.updPair fun q => { q with stripe := (l - 72 + 1) % 16 } else s
  | _ => s

/-! What the fabric takes of an output (R390, R400, R408). -/

/-- Packets of up to 4 KiB that carry `n` bytes, by the offset and length of each; an empty payload takes one (R390, R408). -/
def pieces (n : Nat) : List (Nat × Nat) := (List.range (max 1 (ceilDiv n 4096))).map fun i => (4096 * i, min 4096 (n - 4096 * i))

/-- Chimney packets of `b` to a member, from hall steward 0 (R390). -/
def State.chimneyPackets (s : State) (d : PkgId) (b : Bytes) : List (Packet × PkgId) :=
  if d = s.me then []
  else (pieces b.length).map fun e => (s.chimneyPacket s.me d ((b.drop e.1).take e.2), d)

/-- Bulk packets of the hall transfer engines for `b`, or for a read of `n` bytes, at an address of another package's cellar (R400, R408). The sink is reserved
when a packet goes (R392). -/
def State.bulkPackets (s : State) (d : PkgId) (a : Nat) (read : Bool) (n : Nat) (b : Bytes) : List (Packet × PkgId) :=
  (pieces n).map fun e =>
    (s.request (srfAddr d 1 (a + e.1)) (if read then tBULK_READ else tBULK_WRITE) 3 nodeEngines 0 e.2 0 (if read then [] else (b.drop e.1).take e.2), d)

/-- The packets of an output, as chimney packets or as bulk packets of the hall; a packet stands for itself, on the chimney when its channel is VC0. A message
that this model holds as fields counts as one of 4 KiB, or as one with no payload where its fields are few;
a read of a peer's shard goes to the place that its entry's SOURCE names (DESIGN CHOICE, notes/assumptions/130.md). -/
def State.asPackets (s : State) (o : Out) : List (Packet × PkgId) :=
  let whole : Bytes := List.replicate 4096 0
  let cel (n k : Nat) : Nat := match s.shardPlace n k with | some (_, a) => a | none => s.slotBase n
  let len (n k : Nat) : Nat := (manShard (s.slot n).manifest k).len
  match o with
  | .packet d p => [(p, d)]
  | .chimney d b => s.chimneyPackets d b
  | .contribution d _ => s.chimneyPackets d whole
  | .workList d _ => s.chimneyPackets d whole
  | .form d _ => s.chimneyPackets d whole
  | .mirror _ => s.chimneyPackets s.partner whole
  | .mirrorRecord r => s.chimneyPackets s.partner r.bytes
  | .mirrorAck _ => s.chimneyPackets s.partner []
  | .confirmed _ _ => s.chimneyPackets s.partner []
  | .rejoinStart => s.chimneyPackets s.partner []
  | .rejoinCopy k =>
    let b := k.cells.map (·.2) ++ k.shards.flatMap fun x => x.2.2
    s.bulkPackets s.partner 0 false b.length b
  | .heartbeat => s.chimneyPackets s.partner []
  | .handover => s.chimneyPackets s.partner []
  | .askShard d _ _ => s.chimneyPackets d []
  | .claim d _ _ => s.chimneyPackets d []
  | .claimAnswer d _ => s.chimneyPackets d []
  | .abortAck d => s.chimneyPackets d []
  | .handoverOf d _ => s.chimneyPackets d []
  | .idle d _ _ => s.chimneyPackets d []
  | .workReport d => s.chimneyPackets d []
  | .restMsg d _ _ => s.chimneyPackets d []
  | .sendManifest d n => s.bulkPackets d (s.slotBase n) false (s.slot n).manifest.length (s.slot n).manifest
  | .sendShard d n k => s.bulkPackets d (cel n k) false (len n k) (s.celRead (cel n k) (len n k))
  | .askPeer d _ _ _ e => s.bulkPackets d (fieldAt e 0x40 8) true (fieldAt e 0x48 4) []
  | .loftWrite (some d) a page => s.bulkPackets d (srfOff (BitVec.ofNat 64 a)) false page.length page
  | .loftRead (some d) a => s.bulkPackets d (srfOff (BitVec.ofNat 64 a)) true frameBytes []
  | _ => []

/-! The fabric of a state. -/

/-- A packet enters the fabric. -/
def State.transit (s : State) (q : Queued) : Transit :=
  let r := s.packetPath q.pkt q.dest
  { n := q.n, piece := q.piece, vc := q.pkt.vc.toNat, arrived := decide (q.pkt.src ≠ s.me), flits := packetFlits q.pkt, route := r, sent := r.map fun _ => 0,
    header := pktHeader q.pkt }

/-- Take what has been sent since the last turn: packets enter, chimney packets are queued in the package's own memory (R394), and so are the bulk packets of
the hall (R392). -/
def State.takeSent (s : State) : State :=
  let new := ((s.out.drop s.fab.seen).mapIdx fun i o => (s.asPackets o).mapIdx fun j e =>
    ({ n := s.fab.seen + i, piece := j, pkt := e.1, dest := e.2 } : Queued)).flatten
  let chimney (q : Queued) : Bool := decide (q.pkt.vc = 0)
  let hall (q : Queued) : Bool := decide (q.pkt.vc = 3) && decide (q.pkt.node.toNat = nodeEngines)
  { s with fab := { s.fab with transits := s.fab.transits ++ (new.filter fun q => !chimney q && !hall q).map s.transit,
                               chimney := s.fab.chimney ++ new.filter chimney, bulk := s.fab.bulk ++ new.filter hall, seen := s.out.length } }

/-- Whether two queued packets are the same. -/
def Queued.same (a b : Queued) : Bool := decide (a.n = b.n) && decide (a.piece = b.piece)

/-- A queued chimney packet goes when its sender holds a place of its receive area (R394). -/
def State.sendChimney (s : State) : State :=
  s.fab.chimney.foldl (fun (s : State) e =>
    let used : Nat := SMap.get 0 s.fab.chimneyUsed e.dest.toNat
    let first := (s.fab.chimney.find? fun x => decide (x.dest = e.dest)).any e.same
    if used < Config.chimneyArea e.dest.toNat + 1 ∧ first then
      { s with fab := { s.fab with transits := s.fab.transits ++ [{ s.transit e with area := some e.dest.toNat }],
                                   chimney := s.fab.chimney.filter fun x => !e.same x,
                                   chimneyUsed := SMap.set 0 s.fab.chimneyUsed e.dest.toNat (used + 1) } }
    else s) s

/-- The first bulk packet of the hall goes once one of the 256 sinks of its node is free (R392), and to the other rack once its gateway has a place (R409). -/
def State.sendHall (s : State) : State :=
  s.fab.bulk.foldl (fun (s : State) e =>
    let g := nodeWing nodeEngines
    let far := decide (srfRack e.pkt.address ≠ s.pair.rack)
    let room := decide ((s.wing g).xrack.length < 64) && decide ((s.wing g).xwait = [])
    match (List.range 256).find? fun k => !(s.fab.sinks.any fun u => decide (u.1 = k)) with
    | none => s
    | some k =>
      if s.fab.bulk.head?.any e.same ∧ (!far ∨ room) then
        let s : State := if far then s.updWing g fun w => { w with xrack := w.xrack ++ [256 * nodeEngines + k] } else s
        { s with fab := { s.fab with
            transits := s.fab.transits ++ [s.transit { e with pkt := { e.pkt with sink := BitVec.ofNat 8 k } }], bulk := s.fab.bulk.drop 1,
            sinks := s.fab.sinks ++ [(k, e.dest)] } }
      else s) s

/-- Packets whose last flit has passed are done; the place of a chimney packet comes back as credit: its home copies it out at once (R394) (DESIGN CHOICE,
notes/assumptions/130.md). -/
def State.fabricDone (s : State) : State :=
  (s.fab.transits.filter Transit.done).foldl (fun (s : State) t =>
    let s : State := { s with fab := s.fab.drop fun u => decide (u.n = t.n) && decide (u.piece = t.piece) }
    let more := (s.fab.transits.any fun u => decide (u.n = t.n)) || (s.fab.chimney ++ s.fab.bulk).any fun u => decide (u.n = t.n)
    if more then s else s.emit (.delivered t.n)) s

/-- A turn of the fabric in a state. -/
def State.fabricTurn (s : State) : State :=
  let s := s.takeSent.sendChimney.sendHall.linkIdle
  if s.fab.transits = [] then s
  else
    let r := s.fab.turn s.exitOpen
    let s := r.1.foldl State.putFlit s
    { s with fab := { s.fab with transits := r.2.transits, passed := r.2.passed } }.fabricDone

end Sys2Proof.Machine
end

