-- ==== Sys2Proof/Machine/Step.lean ====
section
/-!
DEFINITION. One step: the command at the front of the queue is executed with the queue's rest. On an empty queue 10 ns of rack time pass
(DESIGN CHOICE, notes/assumptions/6.md).
-/
namespace Sys2Proof.Machine

/-- The state after 10 ns with nothing commanded: rack time advances by one REFCLK_RACK cycle (R439), unless a backward correction
holds the count (R440), switches of the kindling column settle (R98), the core rails move (R448), pace tokens are issued anew (R461), the PCIe link of a
package in Banked is in L1 again (R475; DESIGN CHOICE, notes/assumptions/148.md), and the fabric takes its turn (R391). -/
def State.tick (s : State) : State :=
  let s := { s with rackTime := s.rackTime + (10 - min 10 s.heldBack), heldBack := s.heldBack - min 10 s.heldBack }.settle.moveRail
  let s : State := { s with
    power := { s.power with paced := if s.on PWR_PACE.ENABLE then s.cores.map fun e => (e.1, e.2.hsCnt) else [] }
    pcie := { s.pcie with l1 := s.pcie.l1 || decide (s.power.fire = .banked) } }
  s.fabricTurn

/-- One step. -/
def step (s : State) : Host.Outcome State Fault Refusal :=
  match s.pending with
  | [] => .next s.tick
  | c :: rest => exec c { s with pending := rest }

/-- `s` with the command a table word spells in front of its queue: the table gives no row bits, so `s`. -/
def State.withFetchWord (s : State) (nbits w : Nat) : State :=
  match decodeTableWord nbits w with
  | some c => { s with pending := c :: s.pending }
  | none => s

end Sys2Proof.Machine
end

