-- ==== Sys2Proof/Safety.lean ====
section
/-!
DEFINITION. What counts as a safe run, and the relations between two states in which the claims say what a command changes and what it leaves.
-/
namespace Sys2Proof.Machine

/-- A step that goes on: neither a fault nor a refusal. -/
def State.steps (s : State) : Prop := ∃ t, Machine.step s = .next t

/-- Every key of the package's byte memories rises and no zero byte is listed. -/
def State.memOk (s : State) : Bool :=
  Memory.wf s.cellar && s.cores.all (fun e => Memory.wf e.2.ls && Memory.wf e.2.imem) && s.porches.all (fun e => Memory.wf e.2.mem) &&
    s.stewards.all fun e => Memory.wf e.2

/-- Command `i` on `s` answers a next state of which `P` holds. -/
def Does (i : Instr) (s : State) (P : State → Prop) : Prop := ∃ t, exec i s = .next t ∧ P t

/-! Instructions of a core. -/

/-- Context `x` of core `c` is RUNNING, issue is not held, and `w` is of a class the part defines: the instruction executes (R67, R72, R106, R461, R464,
R465, R469). -/
def State.executes (s : State) (c x : Nat) (w : Insn) : Prop :=
  s.issueHeld c = false ∧ (s.core c).running = some x ∧ fCLASS w < 10

/-- Context `x` of core `c`. -/
def State.ctxOf (s : State) (c x : Nat) : Ctx := (s.core c).ctx x

/-- Every core but `c` is as before. -/
def State.otherCores (s t : State) (c : Nat) : Prop := ∀ d, d ≠ c → t.core d = s.core d

/-- The package differs in core `c` alone. -/
def State.onlyCore (s t : State) (c : Nat) : Prop := t = { s with cores := t.cores } ∧ s.otherCores t c

/-- A core that differs in context `x` alone, one issue handshake later. -/
def Core.onlyCtx (k l : Core) (x : Nat) : Prop := l = { k with ctxs := l.ctxs, hsCnt := k.hsCnt + 1 } ∧ ∀ y, y ≠ x → l.ctx y = k.ctx y

/-- A context that has moved on to its next instruction, with the scalar registers that `g` gives and its vector registers as before. -/
def Ctx.nextS (v u : Ctx) (g : Nat → BitVec 64) : Prop :=
  u = { v with sregs := u.sregs, pc := v.advance.pc, loops := v.advance.loops } ∧ ∀ r, u.sreg r = g r

/-- A context that has moved on to its next instruction, with the vector registers that `g` gives and its scalar registers as before. -/
def Ctx.nextV (v u : Ctx) (g : Nat → VReg) : Prop :=
  u = { v with vregs := u.vregs, pc := v.advance.pc, loops := v.advance.loops } ∧ ∀ r, u.vreg r = g r

/-- The scalar registers with `v` in register `rd`; s0 stays zero (R107). -/
def Ctx.withS (t : Ctx) (rd : Nat) (v : BitVec 64) (r : Nat) : BitVec 64 := if r = rd ∧ r ≠ 0 then v else t.sreg r

/-- The vector registers with `v` in register `rd`. -/
def Ctx.withV (t : Ctx) (rd : Nat) (v : VReg) (r : Nat) : VReg := if r = rd then v else t.vreg r

/-- The instruction wrote scalar register RD and nothing else of the package. -/
def State.wroteS (s t : State) (c x rd : Nat) (v : BitVec 64) : Prop :=
  s.onlyCore t c ∧ (s.core c).onlyCtx (t.core c) x ∧ (s.ctxOf c x).nextS (t.ctxOf c x) ((s.ctxOf c x).withS rd v)

/-- A core that differs in its memory and in the advance of context `x`. -/
def Core.onlyStore (k l : Core) (x : Nat) : Prop :=
  l = { k with ls := l.ls, ctxs := l.ctxs, hsCnt := k.hsCnt + 1 } ∧ (∀ y, y ≠ x → l.ctx y = k.ctx y) ∧ l.ctx x = (k.ctx x).advance

/-- A local store that differs in the `n` bytes from `a` up, which are `b 0`, `b 1` and so on. -/
def memoryHas (m m' : Memory) (a n : Nat) (b : Nat → Byte) : Prop :=
  ∀ o, Memory.byte m' o = if a ≤ o ∧ o < a + n then b (o - a) else Memory.byte m o

/-- An issue token of the core's wing was asked for and granted (R453). -/
def State.tookToken (s t : State) (c : Nat) : Prop :=
  t.power = { s.power with asked := s.power.asked + 1, granted := s.power.granted + 1, idleSince := s.rackTime, budget := t.power.budget } ∧
    ∀ w, SMap.get 0 t.power.budget w = if w = wingOf c then SMap.get 0 s.power.budget w - 1 else SMap.get 0 s.power.budget w

end Sys2Proof.Machine
end

