-- ==== Sys2Proof/Certificates/Slice0/Obligations.lean ====
section
/-!
DEFINITION. The statements for the provers, family by family. What several of them share stands in the namespace `Claims`.
-/
open Sys2Proof Sys2Proof.Machine

/-! The scalar class (R105 to R111). -/

/-- Two-source scalar instructions with the result the spec gives for RA and RB. Where it states none (a shift by 64 or more, the encoding of
CMP) or leaves the signedness open (MULH, MIN, MAX) the relation allows every choice (notes/assumptions/15.md). -/
def Sys2Proof.Claims.twoSource : List ((CoreId → Insn → Instr) × (BitVec 64 → BitVec 64 → BitVec 64 → Prop)) :=
  [(.add, fun a b v => v = a + b), (.sub, fun a b v => v = a - b), (.andI, fun a b v => v = a &&& b), (.orI, fun a b v => v = a ||| b),
   (.xorI, fun a b v => v = a ^^^ b), (.shl, fun a b v => b.toNat < 64 → v = a <<< b.toNat), (.shr, fun a b v => b.toNat < 64 → v = a >>> b.toNat),
   (.sar, fun a b v => b.toNat < 64 → v = a.sshiftRight b.toNat), (.mul, fun a b v => v = a * b),
   (.mulh, fun a b v => v.toNat = a.toNat * b.toNat / 2 ^ 64 ∨ v = BitVec.ofInt 64 (a.toInt * b.toInt / 2 ^ 64)),
   (.minI, fun a b v => (v = a ∨ v = b) ∧ ((v.toInt ≤ a.toInt ∧ v.toInt ≤ b.toInt) ∨ (v ≤ a ∧ v ≤ b))),
   (.maxI, fun a b v => (v = a ∨ v = b) ∧ ((a.toInt ≤ v.toInt ∧ b.toInt ≤ v.toInt) ∨ (a ≤ v ∧ b ≤ v))), (.cmp, fun _ _ _ => True)]

/-- ADD, SUB, AND, OR, XOR, SHL, SHR, SAR, MUL, MULH, MIN, MAX and CMP: register RD takes the result of RA and RB, s0 keeps zero, the context
moves on, and nothing else of the package changes. -/
def Sys2Proof.Claims.scalarTwoSource : Prop :=
  ∀ p ∈ Claims.twoSource, ∀ (c : CoreId) (w : Insn) (x : Nat) (s : State), s.executes c x w →
    Does (p.1 c w) s fun t => ∃ v, p.2 ((s.ctxOf c x).sreg (fRA w)) ((s.ctxOf c x).sreg (fRB w)) v ∧ s.wroteS t c x (fRD w) v

/-- LI writes the sign-extended immediate to RD; LIH writes the immediate to the high half of RD and keeps its low half (R107). -/
def Sys2Proof.Claims.scalarImmediate : Prop :=
  ∀ (c : CoreId) (w : Insn) (x : Nat) (s : State), s.executes c x w →
    Does (.li c w) s (fun t => s.wroteS t c x (fRD w) ((w.extractLsb' 0 32).signExtend 64)) ∧
    Does (.lih c w) s (fun t => s.wroteS t c x (fRD w) (w.extractLsb' 0 32 ++ ((s.ctxOf c x).sreg (fRD w)).extractLsb' 0 32))

/-- The scalar instructions that write one register: two sources, and the immediates LI and LIH (R105 to R107).
What no rule states in it is the model's choice or reading: notes/assumptions/15.md. -/
def Obligations.ScalarInstructions : Prop := Claims.scalarTwoSource ∧ Claims.scalarImmediate

/-- The relative branches and the condition on RA and RB under which each is taken (R110). -/
def Sys2Proof.Claims.branches : List ((CoreId → Insn → Instr) × (BitVec 64 → BitVec 64 → Bool)) :=
  [(.br, fun _ _ => true), (.beq, fun a b => decide (a = b)), (.bne, fun a b => decide (a ≠ b)), (.blt, fun a b => decide (a.toInt < b.toInt)),
   (.bge, fun a b => decide (b.toInt ≤ a.toInt))]

/-- The next state of an instruction that only moves its context to `pc` under the loops `ls`. -/
def Sys2Proof.Claims.movedTo (s t : State) (c x : Nat) (pc : BitVec 18) (ls : List Loop) : Prop :=
  s.onlyCore t c ∧ (s.core c).onlyCtx (t.core c) x ∧ t.ctxOf c x = { s.ctxOf c x with pc := pc, loops := ls }

/-- Context `x` is FAULTED at the instruction that did not execute, its registers and every memory of its core as they were, and the fault
register of the core shows the code where it showed none (R73, R561). -/
def Sys2Proof.Claims.faulted (s t : State) (c x : Nat) (code : Code) : Prop :=
  s.otherCores t c ∧ t.core c = { s.core c with ctxs := (t.core c).ctxs } ∧ (∀ y, y ≠ x → t.ctxOf c y = s.ctxOf c y) ∧
    t.ctxOf c x = { s.ctxOf c x with st := .faulted, wait := .none, sink := none } ∧
    (s.on CORE_FAULT.VALID c = false → t.on CORE_FAULT.VALID c = true ∧ t.rd CORE_FAULT.CTX c = x ∧ t.rd CORE_FAULT.CODE c = code.toNat)

/-- BR, BEQ, BNE, BLT, BGE and JMP: a taken branch goes to its target and abandons every loop whose body does not hold it, one not taken
falls to the next instruction; no register, flag or memory changes; a JMP to any other target faults with ILLEGAL_OP (R110, R111). -/
def Sys2Proof.Claims.branchesAndJumps : Prop :=
  (∀ p ∈ Claims.branches, ∀ (c : CoreId) (w : Insn) (x : Nat) (s : State), s.executes c x w →
    Does (p.1 c w) s fun t =>
      let u := s.ctxOf c x
      let i := (((pcIdx u.pc : Int) + (w.extractLsb' 0 32).toInt) % 32768).toNat
      if p.2 (u.sreg (fRA w)) (u.sreg (fRB w)) = true then
        Claims.movedTo s t c x (BitVec.ofNat 18 (8 * i)) (u.loops.dropWhile fun l => decide (i < l.first) || decide (l.last < i))
      else Claims.movedTo s t c x u.advance.pc u.advance.loops) ∧
  ∀ (c : CoreId) (w : Insn) (x : Nat) (s : State), s.executes c x w →
    let a := ((s.ctxOf c x).sreg (fRA w)).toNat
    (a % 8 = 0 → a < 0x40000 →
      Does (.jmp c w) s fun t =>
        Claims.movedTo s t c x (BitVec.ofNat 18 a) ((s.ctxOf c x).loops.dropWhile fun l => decide (a / 8 < l.first) || decide (l.last < a / 8))) ∧
    (a % 8 ≠ 0 ∨ 0x40000 ≤ a → Does (.jmp c w) s fun t => Claims.faulted s t c x Err.ILLEGAL_OP)

/-- REP with room on the loop stack and a body: with RA = 0 the body is passed over, else the body is entered with its passes counted from RA,
at most 2^32 − 1; with both entries in use it faults with LOOP_DEPTH (R111). -/
def Sys2Proof.Claims.repEntersOrSkips : Prop :=
  ∀ (c : CoreId) (w : Insn) (x : Nat) (s : State), s.executes c x w →
    let u := s.ctxOf c x
    let i := pcIdx u.pc
    let n := immBits w 15 0
    let k := (u.sreg (fRA w)).toNat
    (2 ≤ u.loops.length → Does (.rep c w) s fun t => Claims.faulted s t c x Err.LOOP_DEPTH) ∧
    (u.loops.length < 2 → n ≠ 0 →
      Does (.rep c w) s fun t =>
        if k = 0 then
          Claims.movedTo s t c x (Ctx.advance { u with pc := idxPc (i + n) }).pc (Ctx.advance { u with pc := idxPc (i + n) }).loops
        else Claims.movedTo s t c x (idxPc (i + 1)) ({ first := i + 1, last := i + n, left := min k 0xFFFFFFFF } :: u.loops))

/-- The control flow of a context: branches, JMP with its fault, and REP (R110, R111).
What no rule states in it is the model's choice or reading: notes/assumptions/10.md. -/
def Obligations.ControlFlow : Prop := Claims.branchesAndJumps ∧ Claims.repEntersOrSkips

/-! The local class (R77, R108). -/

/-- The scalar loads and stores by their size. -/
def Sys2Proof.Claims.loads : List ((CoreId → Insn → Ecc → Instr) × Nat) := [(.ld1, 1), (.ld2, 2), (.ld4, 4), (.ld8, 8)]
def Sys2Proof.Claims.stores : List ((CoreId → Insn → Instr) × Nat) := [(.st1, 1), (.st2, 2), (.st4, 4), (.st8, 8)]

/-- A local access of `n` bytes that its checks and the hearth's queue let through (R77, R108, R160). -/
def Sys2Proof.Claims.localGoes (s : State) (c x : Nat) (w : Insn) (n : Nat) (waits : Core → Nat → Nat → Bool) : Prop :=
  s.executes c x w ∧ localOff (s.ctxOf c x) w < 0x100000 ∧ localOff (s.ctxOf c x) w % n = 0 ∧
    waits (s.core c) (localOff (s.ctxOf c x) w) n = false

/-- What a load may change of the package beside its own core: nothing where every word reads clean; where one reads corrected, its count and the
interrupt (R80). -/
def Sys2Proof.Claims.readOf (s t : State) (c : Nat) (clean : Prop) : Prop :=
  s.otherCores t c ∧ t = { s with cores := t.cores, regs := t.regs, pcie := t.pcie, out := t.out } ∧ (clean → s.onlyCore t c)

/-- A local access of `n` bytes outside local store, and one at an offset that is no multiple of `n`, do not execute: LS_RANGE and LS_ALIGN (R77,
R108). -/
def Sys2Proof.Claims.localFaults (i : Instr) (s : State) (c x : Nat) (w : Insn) (n : Nat) : Prop :=
  s.executes c x w →
    (0x100000 ≤ localOff (s.ctxOf c x) w → Does i s fun t => Claims.faulted s t c x Err.LS_RANGE) ∧
    (localOff (s.ctxOf c x) w < 0x100000 → localOff (s.ctxOf c x) w % n ≠ 0 → Does i s fun t => Claims.faulted s t c x Err.LS_ALIGN)

/-- LD1, LD2, LD4, LD8 and VLD with no injection armed: words that read clean or corrected go to RD, and no byte of memory changes; the two faults of an
offset. The spec does not say whether a short load is sign-extended (notes/assumptions/15.md).
What no rule states in it is the model's choice or reading: notes/assumptions/57.md and notes/assumptions/122.md. -/
def Obligations.LocalLoads : Prop :=
  ∀ (c : CoreId) (w : Insn) (x : Nat) (e : Ecc) (es : Errs) (s : State),
    (∀ p ∈ Claims.loads, Claims.localFaults (p.1 c w e) s c x w p.2) ∧ Claims.localFaults (.vld c w es) s c x w 128 ∧
    (s.on PG_PTB_STS.ACTIVE (Block.core.page c) = false → e ≠ .uncorrectable → ∀ p ∈ Claims.loads, Claims.localGoes s c x w p.2 Core.loadWaits →
      Does (p.1 c w e) s fun t =>
        let b := (s.core c).rdLs (localOff (s.ctxOf c x) w) p.2
        Claims.readOf s t c (e = .clean) ∧ (s.core c).onlyCtx (t.core c) x ∧
          ∃ v, (v = BitVec.ofNat 64 (leNat b) ∨ p.2 < 8 ∧ v = BitVec.ofInt 64 (signN (8 * p.2) (leNat b))) ∧
            (s.ctxOf c x).nextS (t.ctxOf c x) ((s.ctxOf c x).withS (fRD w) v)) ∧
    (s.on PG_PTB_STS.ACTIVE (Block.core.page c) = false → (∀ k < 16, es.at k ≠ .uncorrectable) → Claims.localGoes s c x w 128 Core.loadWaits →
      Does (.vld c w es) s fun t =>
        Claims.readOf s t c (∀ k < 16, es.at k = .clean) ∧ (s.core c).onlyCtx (t.core c) x ∧
          (s.ctxOf c x).nextV (t.ctxOf c x) ((s.ctxOf c x).withV (fRD w) (vOfBytes ((s.core c).rdLs (localOff (s.ctxOf c x) w) 128))))

/-- ST1, ST2, ST4, ST8 and VST: the bytes of RB, lowest first, at RA + IMM and no other byte of any memory, no register; the two faults of an offset
(R77, R108).
What no rule states in it is the model's choice or reading: notes/assumptions/50.md. -/
def Obligations.LocalStores : Prop :=
  ∀ (c : CoreId) (w : Insn) (x : Nat) (s : State),
    (∀ p ∈ Claims.stores, Claims.localFaults (p.1 c w) s c x w p.2) ∧ Claims.localFaults (.vst c w) s c x w 128 ∧
    (∀ p ∈ Claims.stores, Claims.localGoes s c x w p.2 Core.storeWaits →
      Does (p.1 c w) s fun t =>
        s.onlyCore t c ∧ (s.core c).onlyStore (t.core c) x ∧
          memoryHas (s.core c).ls (t.core c).ls (localOff (s.ctxOf c x) w) p.2
            fun i => BitVec.ofNat 8 (((s.ctxOf c x).sreg (fRB w)).toNat / 256 ^ i)) ∧
    (Claims.localGoes s c x w 128 Core.storeWaits →
      Does (.vst c w) s fun t =>
        let b := vBytes ((s.ctxOf c x).vreg (fRB w))
        s.onlyCore t c ∧ (s.core c).onlyStore (t.core c) x ∧
          memoryHas (s.core c).ls (t.core c).ls (localOff (s.ctxOf c x) w) b.length fun i => b.getD i 0)

/-! The vector unit (R162 to R165). -/

/-- Lane-wise vector instructions: their OP, the largest TYPE they accept, the IMM bits from which all are reserved, and the lane of RD from the
lanes of RA, RB and RC (R162 to R164). -/
def Sys2Proof.Claims.laneRows : List ((CoreId → Insn → Instr) × Nat × Nat × Nat × (Insn → BitVec 32 → BitVec 32 → BitVec 32 → BitVec 32)) :=
  [(.vadd, 0x00, 2, 2, fun w a b _ => if vTYPE w = 2 then a + b else laneOf (vTYPE w) (fpAdd (laneVal (vTYPE w) a) (laneVal (vTYPE w) b))),
   (.vsub, 0x01, 2, 2, fun w a b _ => if vTYPE w = 2 then a - b else laneOf (vTYPE w) (fpAdd (laneVal (vTYPE w) a) (fpNeg (laneVal (vTYPE w) b)))),
   (.vmul, 0x02, 2, 2, fun w a b _ => if vTYPE w = 2 then a * b else laneOf (vTYPE w) (fpMul (laneVal (vTYPE w) a) (laneVal (vTYPE w) b))),
   (.vfma, 0x03, 2, 2, fun w a b d => if vTYPE w = 2 then a * b + d
      else laneOf (vTYPE w) (fpAdd (fpMul (laneVal (vTYPE w) a) (laneVal (vTYPE w) b)) (laneVal (vTYPE w) d))),
   (.vmin, 0x04, 2, 2, fun w a b _ => lanePick (vTYPE w) false a b), (.vmax, 0x05, 2, 2, fun w a b _ => lanePick (vTYPE w) true a b),
   (.vcmp, 0x06, 2, 5, fun w a b _ => laneCmp (vTYPE w) (immBits w 4 2) a b),
   (.vsel, 0x07, 2, 2, fun w a b d => laneTrim (vTYPE w) (if d ≠ 0 then a else b)), (.vcvt, 0x08, 0, 6, fun w a _ _ => laneCvt (immBits w 5 2) a),
   (.vexp2, 0x10, 0, 2, fun _ a _ _ => laneExp2 a), (.vlog2, 0x11, 0, 2, fun _ a _ _ => laneLog2 a),
   (.vrsqrt, 0x12, 0, 2, fun _ a _ _ => laneRsqrt a), (.vrcp, 0x13, 0, 2, fun _ a _ _ => laneRcp a)]

/-- A vector instruction that wrote `g` to register RD: one issue token, one context, and, from Glow, the rise to Burning (R470). -/
def Sys2Proof.Claims.vectorWrote (s t : State) (c x : Nat) (g : Nat → VReg) : Prop :=
  t = { s.burn with cores := t.cores, power := t.power } ∧ s.burn.tookToken t c ∧ s.otherCores t c ∧ (s.core c).onlyCtx (t.core c) x ∧
    (s.ctxOf c x).nextV (t.ctxOf c x) g

/-- A legal vector word: its OP, its TYPE and its reserved IMM bits (R162). -/
def Sys2Proof.Claims.vectorWord (w : Insn) (op ty used : Nat) : Prop := fOP w = op ∧ vTYPE w ≤ ty ∧ immBits w 31 used = 0

/-- VADD, VSUB, VMUL, VFMA, VMIN, VMAX, VCMP, VSEL, VCVT, VEXP2, VLOG2, VRSQRT and VRCP: with an issue token each of RD's 32 lanes is its function
of the same lane of RA, RB and RC; scalar registers, other vector registers and all memory stay.
What no rule states in it is the model's choice or reading: notes/assumptions/15.md, notes/assumptions/17.md and notes/assumptions/101.md. -/
def Obligations.VectorLanes : Prop :=
  ∀ p ∈ Claims.laneRows, ∀ (c : CoreId) (w : Insn) (x : Nat) (s : State), s.executes c x w → s.hasToken c = true →
    Claims.vectorWord w p.2.1 p.2.2.1 p.2.2.2.1 → (p.2.1 = 0x06 → immBits w 4 2 ≤ 3) → (p.2.1 = 0x08 → immBits w 5 2 ≤ 5) →
      Does (p.1 c w) s fun t =>
        let u := s.ctxOf c x
        Claims.vectorWrote s t c x (u.withV (fRD w) ((List.range 32).map fun i =>
          p.2.2.2.2 w ((u.vreg (fRA w)).getD i 0) ((u.vreg (fRB w)).getD i 0) ((u.vreg (fRC w)).getD i 0)))

/-- VSUM, VMAXR, VBCAST and VLANE write one value to every lane of RD, or the lane's own number; VTOPK writes the 32 best pairs of its running list
and of RA and RB, in order, to the register pair RD and RD + 1 (R164, R165).
What no rule states in it is the model's choice or reading: notes/assumptions/15.md and notes/assumptions/101.md. -/
def Obligations.VectorAcrossLanes : Prop :=
  ∀ (c : CoreId) (w : Insn) (x : Nat) (s : State), s.executes c x w → s.hasToken c = true →
    let u := s.ctxOf c x
    let a := u.vreg (fRA w)
    let best := topMerge ((u.vreg (fRD w)).zip (u.vreg (fRD w + 1))) (a.zip (u.vreg (fRB w)))
    (Claims.vectorWord w 0x18 2 2 → vTYPE w ≠ 1 →
      Does (.vsum c w) s fun t => Claims.vectorWrote s t c x (u.withV (fRD w)
        (List.replicate 32 (laneTree (laneOp (vTYPE w) (· + ·) fpAdd) a)))) ∧
    (Claims.vectorWord w 0x19 2 2 →
      Does (.vmaxr c w) s fun t => Claims.vectorWrote s t c x (u.withV (fRD w) (List.replicate 32 (laneMaxAll (vTYPE w) a)))) ∧
    (Claims.vectorWord w 0x1A 2 7 →
      Does (.vbcast c w) s fun t => Claims.vectorWrote s t c x (u.withV (fRD w)
        (List.replicate 32 (laneTrim (vTYPE w) (a.getD (immBits w 6 2) 0))))) ∧
    (Claims.vectorWord w 0x1B 2 2 → vTYPE w = 2 →
      Does (.vlane c w) s fun t => Claims.vectorWrote s t c x (u.withV (fRD w) ((List.range 32).map (BitVec.ofNat 32)))) ∧
    (Claims.vectorWord w 0x20 0 2 → fRD w % 2 = 0 →
      Does (.vtopk c w) s fun t => Claims.vectorWrote s t c x fun r =>
        if r = fRD w + 1 then best.map (·.2) else u.withV (fRD w) (best.map fun p => fpTo32 (fpOf32 p.1)) r)

/-! The hearth (R145 to R160). -/

/-- The region checks of R156. -/
def Sys2Proof.Claims.tileAt (a c : Nat) : Prop := a % 64 = 0 ∧ a + (4096 + (c + 15) / 16 * 64) ≤ 0x100000
def Sys2Proof.Claims.regionAt (a n : Nat) : Prop := a % 64 = 0 ∧ a + n ≤ 0x100000

/-- A legal hearth instruction with the offsets its registers give (R155, R156). -/
def Sys2Proof.Claims.hearthLegal (w : Insn) (ra rb : Nat) : Instr → Prop
  | .accClr _ _ => hLegal w 0x00 false false = true ∧ fIMM w = 0
  | .mma4 _ _ _ => hLegal w 0x01 true true = true ∧ hCA w ≤ 64 ∧ hCB w ≤ 64 ∧ hLayer w ≠ 0xFF ∧ Claims.tileAt ra (hCA w) ∧ Claims.tileAt rb (hCB w)
  | .mmab _ _ _ => hLegal w 0x02 true true = true ∧ immBits w 31 8 = 0 ∧ hLayer w ≠ 0xFF ∧ Claims.regionAt ra 4096 ∧ Claims.regionAt rb 4096
  | .wout _ _ => hLegal w 0x08 true true = true ∧ hFMT w ≤ 1 ∧ immBits w 28 8 = 0 ∧ hLayer w ≠ 0xFF ∧ ra % 64 = 0 ∧ rb % 64 = 0 ∧ rb ≠ 0 ∧
      ra + 31 * rb + (if hFMT w = 0 then 64 else 32) ≤ 0x100000
  | .accSave _ _ => hLegal w 0x09 true false = true ∧ immBits w 31 30 = 0 ∧ immBits w 28 0 = 0 ∧ Claims.regionAt ra 16384
  | .accLoad _ _ _ => hLegal w 0x0A true false = true ∧ fIMM w = 0 ∧ Claims.regionAt ra 16384
  | .pack _ _ _ => hLegal w 0x0C true true = true ∧ hCA w ≤ 64 ∧ immBits w 20 19 ≤ 1 ∧ immBits w 18 8 = 0 ∧ hLayer w ≠ 0xFF ∧
      Claims.regionAt ra 114688 ∧ Claims.tileAt rb (hCA w)
  | _ => False

/-- A hearth instruction `i` that issues: legal, the hearth free or held by its own context, a place in the queue, an issue token (R75, R159,
R453). -/
def Sys2Proof.Claims.hearthIssues (s : State) (c x : Nat) (w : Insn) (i : Instr) : Prop :=
  s.executes c x w ∧ Claims.hearthLegal w ((s.ctxOf c x).sreg (fRA w)).toNat ((s.ctxOf c x).sreg (fRB w)).toNat i ∧
    ((s.core c).holder = none ∨ (s.core c).holder = some x) ∧ (s.core c).hearthQ.length < 4 ∧ s.hasToken c = true

/-- The queue entry of a hearth instruction, with what the codes of its operands will show (R80). -/
def Sys2Proof.Claims.hearthEntry (s : State) (c x : Nat) (w : Insn) (es : Errs) : HearthEntry :=
  { ctx := x, w := w, pc := (s.ctxOf c x).pc, ra := ((s.ctxOf c x).sreg (fRA w)).toNat, rb := ((s.ctxOf c x).sreg (fRB w)).toNat, errs := es }

/-- The hearth's instructions, and whether each reads local store. -/
def Sys2Proof.Claims.hearthRows : List ((CoreId → Insn → Errs → Instr) × Bool) :=
  [(fun c w _ => .accClr c w, false), (.mma4, true), (.mmab, true), (fun c w _ => .wout c w, false), (fun c w _ => .accSave c w, false), (.accLoad, true),
   (.pack, true)]

/-- ACC_CLR, MMA4, MMAB, WOUT, ACC_SAVE, ACC_LOAD and PACK behind another instruction: the word joins the queue of four with the offsets its
registers hold now, all but PACK take the hearth for their context, and the context moves on; from Glow the package is Burning (R75, R150, R159, R470). -/
def Sys2Proof.Claims.hearthQueues : Prop :=
  ∀ p ∈ Claims.hearthRows, ∀ (c : CoreId) (w : Insn) (x : Nat) (es : Errs) (s : State),
    Claims.hearthIssues s c x w (p.1 c w es) → (s.core c).hearthQ ≠ [] →
      Does (p.1 c w es) s fun t =>
        t = { s.burn with cores := t.cores, power := t.power } ∧ s.burn.tookToken t c ∧ s.otherCores t c ∧
        t.core c = { s.core c with ctxs := (t.core c).ctxs, hsCnt := (s.core c).hsCnt + 1,
                                   hearthQ := (s.core c).hearthQ ++ [Claims.hearthEntry s c x w (if p.2 = true then es else [])],
                                   holder := if fOP w = 0x0C then (s.core c).holder else some x } ∧
        (∀ y, y ≠ x → t.ctxOf c y = s.ctxOf c y) ∧ t.ctxOf c x = (s.ctxOf c x).advance

/-- What a hearth instruction leaves when it starts at issue: its core's context moved on, its entry at the head of the queue, counts of the step's
arithmetic record, and, where a word of its operands reads corrected, its count and the interrupt (R80). -/
def Sys2Proof.Claims.hearthStarted (s t : State) (c x : Nat) (w : Insn) (es : Errs) (hold : Option Nat) : Prop :=
  t = { s with cores := t.cores, power := t.power, step := t.step, regs := t.regs, pcie := t.pcie, out := t.out } ∧
    ((∀ k, es.at k = .clean) → t.regs = s.burn.regs ∧ t.pcie = s.burn.pcie ∧ t.out = s.burn.out) ∧ t.step = { s.step with arith := t.step.arith } ∧
    s.burn.tookToken t c ∧ s.otherCores t c ∧
    t.core c = { s.core c with ctxs := (t.core c).ctxs, hsCnt := (s.core c).hsCnt + 1, hearthQ := [Claims.hearthEntry s c x w es], holder := hold,
                               file := (t.core c).file, ls := (t.core c).ls } ∧
    (∀ y, y ≠ x → t.ctxOf c y = s.ctxOf c y) ∧ t.ctxOf c x = (s.ctxOf c x).advance

/-- The words that a hearth instruction reads show clean or corrected, and no injection is armed (R80, R547). -/
def Sys2Proof.Claims.hearthReads (s : State) (c : Nat) (es : Errs) : Prop := s.on PG_PTB_STS.ACTIVE (Block.core.page c) = false ∧ ∀ k, es.at k ≠ .uncorrectable

/-- ACC_CLR, MMA4, MMAB and ACC_LOAD on an idle hearth, with operands that read: the accumulator file becomes CLEAR, takes the 14 block contributions of each entry, takes
the BF16 products, or takes the image at RA; the context holds the hearth and no byte of memory changes (R147 to R150, R153).
What no rule states in it is the model's choice or reading: notes/assumptions/52.md and notes/assumptions/122.md. -/
def Obligations.HearthFileInstructions : Prop :=
  ∀ (c : CoreId) (w : Insn) (x : Nat) (es : Errs) (s : State), (s.core c).hearthQ = [] →
    let k := s.core c
    let ra := ((s.ctxOf c x).sreg (fRA w)).toNat
    let rb := ((s.ctxOf c x).sreg (fRB w)).toNat
    (Claims.hearthIssues s c x w (.accClr c w) →
      Does (.accClr c w) s fun t => Claims.hearthStarted s t c x w [] (some x) ∧ (t.core c).ls = k.ls ∧ (t.core c).file = AccFile.cleared) ∧
    (Claims.hearthIssues s c x w (.mma4 c w es) → Claims.hearthReads s c es → k.file.mode ≠ .bf16 → (k.file.mode = .exact → k.file.w = signN 10 (immBits w 17 8)) →
      ∀ a b : Tile, readTile (hCA w) (k.rdLs ra (tileBytes (hCA w))) = .inl a → readTile (hCB w) (k.rdLs rb (tileBytes (hCB w))) = .inl b →
        Does (.mma4 c w es) s fun t => Claims.hearthStarted s t c x w es (some x) ∧ (t.core c).ls = k.ls ∧ (t.core c).file.mode = .exact ∧
          (t.core c).file.w = signN 10 (immBits w 17 8) ∧
          ∀ i j, i < 32 → j < 32 →
            (t.core c).file.ent (32 * i + j) = (mma4Entry (signN 10 (immBits w 17 8)) a b i j (k.file.ent (32 * i + j))).1) ∧
    (Claims.hearthIssues s c x w (.mmab c w es) → Claims.hearthReads s c es → k.file.mode ≠ .exact →
      Does (.mmab c w es) s fun t => Claims.hearthStarted s t c x w es (some x) ∧ (t.core c).ls = k.ls ∧ (t.core c).file.mode = .bf16 ∧
        ∀ i j, i < 32 → j < 32 →
          (t.core c).file.ent (32 * i + j) =
            { val := (mmabEntry (bf16Row (k.rdLs ra 4096) i) (bf16Row (k.rdLs rb 4096) j) ((k.file.ent (32 * i + j)).val.setWidth 32)).setWidth 96,
              sat := false }) ∧
    (Claims.hearthIssues s c x w (.accLoad c w es) → Claims.hearthReads s c es → ∀ f, imageFile (k.rdLs ra 16384) = some f →
      Does (.accLoad c w es) s fun t => Claims.hearthStarted s t c x w es (some x) ∧ (t.core c).ls = k.ls ∧ (t.core c).file = f)

/-- WOUT, ACC_SAVE and PACK on an idle hearth: they write their region of local store and no other byte, and leave the accumulator file; WOUT
and ACC_SAVE hold the hearth, PACK does not (R150, R152, R157, R158).
What no rule states in it is the model's choice or reading: notes/assumptions/50.md and notes/assumptions/52.md. -/
def Obligations.HearthMemoryInstructions : Prop :=
  ∀ (c : CoreId) (w : Insn) (x : Nat) (es : Errs) (s : State), (s.core c).hearthQ = [] →
    let k := s.core c
    let ra := ((s.ctxOf c x).sreg (fRA w)).toNat
    let rb := ((s.ctxOf c x).sreg (fRB w)).toNat
    let n := if hFMT w = 0 then 2 else 1
    (Claims.hearthIssues s c x w (.wout c w) →
      Does (.wout c w) s fun t => Claims.hearthStarted s t c x w [] (some x) ∧ (t.core c).file = k.file ∧
        (∀ i j b, i < 32 → j < 32 → b < n →
          Memory.byte (t.core c).ls (ra + i * rb + n * j + b) =
            BitVec.ofNat 8 ((woutVal (hFMT w) (entryVal k.file.mode k.file.w (k.file.ent (32 * i + j)))).1 / 256 ^ b)) ∧
        ∀ a, (∀ i, i < 32 → a < ra + i * rb ∨ ra + i * rb + 32 * n ≤ a) → Memory.byte (t.core c).ls a = Memory.byte k.ls a) ∧
    (Claims.hearthIssues s c x w (.accSave c w) →
      Does (.accSave c w) s fun t => Claims.hearthStarted s t c x w [] (some x) ∧ (t.core c).file = k.file ∧
        memoryHas k.ls (t.core c).ls ra 16384 fun i => k.file.image.getD i 0) ∧
    (Claims.hearthIssues s c x w (.pack c w es) → Claims.hearthReads s c es →
      ∀ fs : List AccFile, ((List.range 7).map fun i => imageFile (k.rdLs (ra + 0x4000 * i) 0x4000)) = fs.map some →
        Does (.pack c w es) s fun t =>
          let vals := (List.range 7168).map fun e =>
            entryVal (fs.getD (e % 224 / 32) AccFile.cleared).mode (fs.getD (e % 224 / 32) AccFile.cleared).w
              ((fs.getD (e % 224 / 32) AccFile.cleared).ent (32 * (e / 224) + e % 32))
          let b := (encTile (immBits w 20 19) (hCA w) (immBits w 24 21) vals).1
          Claims.hearthStarted s t c x w es (s.core c).holder ∧ (t.core c).file = k.file ∧
            memoryHas k.ls (t.core c).ls rb b.length fun i => b.getD i 0)

/-! The stream unit (R83, R333 to R353). -/

/-- A stream command may start: its context has none, its table slot has no table waiting, an issue token is there (R83, R344, R453). -/
def Sys2Proof.Claims.streamFree (s : State) (c x : Nat) (slot : Option Nat) : Prop :=
  (∀ q ∈ (s.core c).streams, q.ctx ≠ x) ∧ (∀ n, slot = some n → (s.tableSlot (wingOf c) n).pend = none) ∧ s.hasToken c = true

/-- The command of a stream instruction as it is issued (R83, R347). -/
def Sys2Proof.Claims.streamEntry (s : State) (c x : Nat) (w : Insn) (dec : Bool) (slot : Option Nat) (far again : Bytes) (es : Errs) : StreamCmd :=
  { ctx := x, dec := dec, ra := (s.ctxOf c x).sreg (fRA w), rb := (s.ctxOf c x).sreg (fRB w), rc := (s.ctxOf c x).sreg (fRC w), far := far, again := again,
    errs := es, table := slot, compl := 8 * immBits w 16 0, w := w, pc := (s.ctxOf c x).pc }

/-- The references on the wing's table slots after a command that uses slot `slot` has started (R343). -/
def Sys2Proof.Claims.refAdded (s t : State) (w : Nat) (slot : Option Nat) : Prop :=
  (∀ v n, t.tableSlot v n =
    if v = w ∧ slot = some n then { s.tableSlot w n with inflight := (s.tableSlot w n).inflight + 1 } else s.tableSlot v n)

/-- Command `q` stands in its context's slot and holds its reference; its context has moved on, an issue token is spent, from Glow the package is Burning,
and beside local store nothing else of any core differs (R83, R343, R453, R470). -/
def Sys2Proof.Claims.streamStands (s t : State) (c x : Nat) (q : StreamCmd) : Prop :=
  s.otherCores t c ∧ s.burn.tookToken t c ∧ Claims.refAdded s t (wingOf c) q.table ∧
    t.core c = { s.core c with ctxs := (t.core c).ctxs, hsCnt := (s.core c).hsCnt + 1, streams := (s.core c).streams ++ [q], ls := (t.core c).ls } ∧
    (∀ y, y ≠ x → t.ctxOf c y = s.ctxOf c y) ∧ t.ctxOf c x = (s.ctxOf c x).advance

/-- No injection is armed, no line of the cellar is bad, and every word or line of the source shows clean (R80, R365, R547). -/
def Sys2Proof.Claims.readsAllClean (s : State) (es : Errs) : Prop := (∀ g, s.on PG_PTB_STS.ACTIVE g = false) ∧ s.cel.badLines = [] ∧ ∀ k, es.at k = .clean

/-- Blocks with the data `ds` follow each other from byte `pos` of a source, each good for its ordinal (R333, R350). -/
def Sys2Proof.Claims.goodBlocks (src : Nat → Bytes) (sub : Nat) (slot : Option (Nat × TableSlot)) : Nat → Nat → List Bytes → Prop
  | _, _, [] => True
  | pos, ord, d :: ds => ∃ n, decodeBlock (src pos) sub ord slot = .good d n ∧ Claims.goodBlocks src sub slot (pos + n) (ord + 1) ds

/-- DEC: with a good command it stands in its context's slot, and the context goes on; behind another decode it waits for the decoder; else the decoder
writes BLOCKS × 4,096 bytes of good blocks at RB and no other byte; the faults of its word and operands (R83, R343, R344, R347, R348, R350). -/
def Sys2Proof.Claims.decStarts : Prop :=
  ∀ (c : CoreId) (w : Insn) (x : Nat) (far again : Bytes) (es : Errs) (s : State), s.executes c x w →
    let u := s.ctxOf c x
    let rc := u.sreg (fRC w)
    let slot := if immBits w 27 27 = 1 then some (immBits w 31 28) else none
    let q := Claims.streamEntry s c x w true slot far again es
    ((fOP w ≠ 0x00 ∨ immBits w 26 17 ≠ 0) → Does (.dec c w far again es) s fun t => Claims.faulted s t c x Err.ILLEGAL_OP) ∧
    (fOP w = 0x00 → immBits w 26 17 = 0 →
      (∀ code, s.decFault w u = some code → Does (.dec c w far again es) s fun t => Claims.faulted s t c x code) ∧
      (s.decFault w u = none → Claims.streamFree s c x slot →
        (∀ p, (s.core c).streams.find? (fun p => p.dec) = some p → p.started = true →
          Does (.dec c w far again es) s fun t => Claims.streamStands s t c x q ∧ (t.core c).ls = (s.core c).ls) ∧
        ((∀ p ∈ (s.core c).streams, p.dec = false) → Claims.readsAllClean s es →
          ∀ ds : List Bytes, ds.length = bits64 rc 15 0 → (srfPkg (u.sreg (fRA w)) ≠ s.me ∨ srfSpace (u.sreg (fRA w)) = 1 ∨ ds.length = 1) →
            Claims.goodBlocks (s.blockSource (u.sreg (fRA w)) far) (bits64 rc 31 16) (slot.map fun m => (m, s.tableSlot (wingOf c) m)) 0 (bits64 rc 63 32) ds →
            Does (.dec c w far again es) s fun t =>
              Claims.streamStands s t c x { q with started := true, bytes := 4096 * ds.length } ∧
              memoryHas (s.core c).ls (t.core c).ls (u.sreg (fRB w)).toNat (4096 * ds.length) fun i => ds.flatten.getD i 0)))

/-- ENC: with a good command it stands in its context's slot, and the context goes on; behind another encode it waits for the encoder; else the encoder
writes its blocks, or in PACK mode its tiles, at RB and no other byte; the faults of its word and operands (R83, R343, R344, R347, R348, R353). -/
def Sys2Proof.Claims.encStarts : Prop :=
  ∀ (c : CoreId) (w : Insn) (x : Nat) (es : Errs) (s : State), s.executes c x w →
    let u := s.ctxOf c x
    let rc := u.sreg (fRC w)
    let ra := (u.sreg (fRA w)).toNat
    let block := immBits w 31 31 = 0
    let slot := if block ∧ immBits w 26 26 = 1 then some (immBits w 30 27) else none
    let q := Claims.streamEntry s c x w false slot [] [] es
    let n := bits64 rc 15 8
    let size := if immBits w 30 30 = 0 then 4 else 2
    let blocks := encBlocksRun (bits64 rc 31 16) (bits64 rc 63 32) (slot.map fun m => (m, s.tableSlot (wingOf c) m))
      ((s.core c).rdLs ra (4096 * bits64 rc 15 0)) (bits64 rc 15 0)
    let tiles := (List.range n).flatMap fun i => (encTileRun w ((s.core c).rdLs (ra + 7168 * size * i) (7168 * size))).1
    let out := if block then blocks else tiles
    ((fOP w ≠ 0x01 ∨ (block ∧ immBits w 25 17 ≠ 0)) → Does (.enc c w es) s fun t => Claims.faulted s t c x Err.ILLEGAL_OP) ∧
    (fOP w = 0x01 → (block → immBits w 25 17 = 0) →
      (∀ code, encFault w u = some code → Does (.enc c w es) s fun t => Claims.faulted s t c x code) ∧
      (encFault w u = none → Claims.streamFree s c x slot →
        (∀ p, (s.core c).streams.find? (fun p => decide (p.dec = false)) = some p → p.started = true →
          Does (.enc c w es) s fun t => Claims.streamStands s t c x q ∧ (t.core c).ls = (s.core c).ls) ∧
        ((∀ p ∈ (s.core c).streams, p.dec = true) → Claims.readsAllClean s es →
          Does (.enc c w es) s fun t =>
            Claims.streamStands s t c x { q with started := true, bytes := out.length } ∧
            memoryHas (s.core c).ls (t.core c).ls (u.sreg (fRB w)).toNat out.length fun i => out.getD i 0)))

/-- A block that ENC writes without a table decodes to the same 4,096 bytes (R333 to R338, R350, R353). -/
def Obligations.BlockRoundTrip : Prop :=
  ∀ (sub ord : Nat) (data : Bytes), data.length = 4096 → sub < 2 ^ 16 → ord < 2 ^ 32 →
    decodeBlock (encodeBlock sub ord none data) sub ord none = .good data (encodeBlock sub ord none data).length

/-- SYNC.S passes when its context has no stream command and waits otherwise (R349). -/
def Sys2Proof.Claims.syncSPasses : Prop :=
  ∀ (c : CoreId) (w : Insn) (x : Nat) (s : State), s.executes c x w →
    (fOP w = 0x02 → fIMM w = 0 →
      Does (.syncS c w) s fun t =>
        s.onlyCore t c ∧ (s.core c).onlyCtx (t.core c) x ∧
          t.ctxOf c x = if (∃ q ∈ (s.core c).streams, q.ctx = x) then { (s.ctxOf c x).advance with st := .waitSync, wait := .stream }
            else (s.ctxOf c x).advance) ∧
    ((fOP w ≠ 0x02 ∨ fIMM w ≠ 0) → Does (.syncS c w) s fun t => Claims.faulted s t c x Err.ILLEGAL_OP)

/-- A context that waited under a trigger is READY; any other is as before (R68). -/
def Sys2Proof.Claims.wokenBy (u v : Ctx) (q : Wait) : Prop :=
  v = if u.wait = q ∧ u.st ≠ .halted ∧ u.st ≠ .faulted then { u with st := .ready, wait := .none } else u

/-- The end of a good command writes its completion word, drops its reference and wakes its context, and no command of the other engine moves; a pending table
enters a slot without references and wakes the cores of its wing that wait for it, and one with references stays pending (R83, R125, R343 to R345). -/
def Sys2Proof.Claims.streamEnds : Prop :=
  (∀ (c : CoreId) (x : CtxId) (q : StreamCmd) (s : State), (s.core c).streams.find? (fun r => decide (r.ctx = x.val)) = some q →
    (q.started = false → Does (.streamComplete c x) s fun t => t = s) ∧
    (q.started = true → q.fault = none → q.rehash = none → (∀ r ∈ (s.core c).streams, r.ctx ≠ x.val → r.dec ≠ q.dec) →
      Does (.streamComplete c x) s fun t =>
        let k := s.core c
        t = { s with cores := t.cores, wings := t.wings, power := { s.power with idleSince := s.rackTime } } ∧ s.otherCores t c ∧
          (t.core c).streams = (k.streams.filter fun r => decide (r.ctx ≠ x.val)) ∧
          memoryHas k.ls (t.core c).ls q.compl 8 (fun i => (completionWord q.status q.bytes).getD i 0) ∧
          (∀ y, y ≠ x.val → t.ctxOf c y = s.ctxOf c y) ∧
          t.ctxOf c x = (if (s.ctxOf c x).wait = .stream then { s.ctxOf c x with st := .ready, wait := .none } else s.ctxOf c x) ∧
          ∀ v n, t.tableSlot v n =
            if v = wingOf c ∧ q.table = some n then { s.tableSlot v n with inflight := (s.tableSlot v n).inflight - 1 } else s.tableSlot v n)) ∧
  (∀ (c : CoreId) (x : CtxId) (s : State), (∀ r ∈ (s.core c).streams, r.ctx ≠ x.val) → Does (.streamComplete c x) s fun t => t = s) ∧
  ∀ (w : Wing) (n : Fin 16) (s : State),
    (((s.tableSlot w n).pend = none ∨ (s.tableSlot w n).inflight ≠ 0) → Does (.tableSlotLoad w n) s fun t => t = s) ∧
    ∀ (gen : Nat) (lens : List Nat), (s.tableSlot w n).pend = some (gen, lens) → (s.tableSlot w n).inflight = 0 →
      Does (.tableSlotLoad w n) s fun t =>
        t = { s with cores := t.cores, wings := t.wings, regs := t.regs } ∧
          (∀ v m, t.tableSlot v m =
            if v = w.val ∧ m = n.val then { valid := true, gen := gen, lens := lens, inflight := 0, pend := none } else s.tableSlot v m) ∧
          ∀ c, (wingOf c ≠ w.val → t.core c = s.core c) ∧ ∀ x, x < 8 → wingOf c = w.val → Claims.wokenBy (s.ctxOf c x) (t.ctxOf c x) (.table n)

/-- The stream unit: DEC and ENC start and do their work, SYNC.S waits for them, they end, and a table enters a slot without references (R83, R125, R343 to
R353).
What no rule states in it is the model's choice or reading: notes/assumptions/51.md, notes/assumptions/63.md and notes/assumptions/125.md. -/
def Obligations.StreamUnit : Prop := Claims.decStarts ∧ Claims.encStarts ∧ Claims.syncSPasses ∧ Claims.streamEnds

/-! Messages (R86 to R89, R112 to R117). -/

/-- A core whose context `x` moved on and that differs beside in its receive queues and, for a message that arrives, its local store. -/
def Sys2Proof.Claims.onlyQueues (s t : State) (c x : Nat) : Prop :=
  s.onlyCore t c ∧ t.core c = { s.core c with ctxs := (t.core c).ctxs, hsCnt := (s.core c).hsCnt + 1, rqs := (t.core c).rqs } ∧
    ∀ y, y ≠ x → t.ctxOf c y = s.ctxOf c y

/-- RQCFG with a legal ring and no message in its queue configures the queue; RECV takes the oldest message not yet received, whose header goes to
RD; RELEASE frees the oldest message, once it was received (R113, R115, R116). -/
def Sys2Proof.Claims.receiveQueues : Prop :=
  ∀ (c : CoreId) (w : Insn) (x : Nat) (s : State), s.executes c x w →
    let u := s.ctxOf c x
    let q := immBits w 1 0
    let base := (u.sreg (fRA w)).toNat
    let size := (u.sreg (fRB w)).toNat
    let msgs := ((s.core c).rq q).msgs
    (base % 64 = 0 → size % 4096 = 0 → 4096 ≤ size → size ≤ 262144 → base + size ≤ 0x100000 → msgs = [] →
      Does (.rqcfg c w) s fun t =>
        Claims.onlyQueues s t c x ∧ t.ctxOf c x = u.advance ∧
        ∀ p, (t.core c).rq p = if p = q then { configured := true, base := base, size := size, tail := 0, msgs := [] } else (s.core c).rq p) ∧
    (∀ (seen rest : List RecvMsg) (m : RecvMsg), msgs = seen ++ m :: rest → (∀ a ∈ seen, a.received = true) → m.received = false →
      Does (.recv c w) s fun t =>
        Claims.onlyQueues s t c x ∧ u.nextS (t.ctxOf c x) (u.withS (fRD w) m.header) ∧
        ∀ p, (t.core c).rq p =
          if p = q then { (s.core c).rq q with msgs := seen ++ { m with received := true } :: rest } else (s.core c).rq p) ∧
    (∀ (m : RecvMsg) (rest : List RecvMsg), msgs = m :: rest → m.received = true →
      Does (.release c w) s fun t =>
        Claims.onlyQueues s t c x ∧ t.ctxOf c x = u.advance ∧
        ∀ p, (t.core c).rq p = if p = q then { (s.core c).rq q with msgs := rest } else (s.core c).rq p)

/-- RECV on a queue without a message not yet received waits in WAIT_RECV at its own pc, last in the order of arrival (R68, R115). -/
def Sys2Proof.Claims.recvWaits : Prop :=
  ∀ (c : CoreId) (w : Insn) (x : Nat) (s : State), s.executes c x w → (∀ m ∈ ((s.core c).rq (immBits w 1 0)).msgs, m.received = true) →
    Does (.recv c w) s fun t =>
      s.onlyCore t c ∧ (∀ y, y ≠ x → t.ctxOf c y = s.ctxOf c y) ∧ (t.core c).rqs = (s.core c).rqs ∧ (t.core c).ls = (s.core c).ls ∧
        t.ctxOf c x = { s.ctxOf c x with st := .waitRecv, wait := .recv (immBits w 1 0) (fRD w) } ∧
        (t.core c).recvOrder = ((s.core c).recvOrder.filter (· ≠ x)) ++ [x]


/-- A message of the present attempt that finds room enters its ring, payload and entry, and goes to the first context that waits for it; one that
finds none is held; the oldest held one enters when there is room for it, and not before; one of an aborted attempt is discarded (R88, R89, R114, R115,
R398).
What no rule states in it is the model's choice or reading: notes/assumptions/64.md and notes/assumptions/73.md. -/
def Obligations.MessagesArrive : Prop :=
  (∀ (p : Packet) (first lines : Nat) (s : State), p.epoch.toNat = s.pair.epoch →
    let c := srfCore p.address
    let k := s.core c
    let q := p.arg.toNat % 4
    k.hasRoom p = true → (k.rq q).place p.length.toNat = some (first, lines) →
      Does (.messagePacket p) s fun t =>
        let waiter := k.recvOrder.find? fun x => match (k.ctx x).wait with | .recv a _ => decide (a = q) | _ => false
        let m : RecvMsg := { tag := BitVec.ofNat 16 (bits64 p.address 17 2), srcCore := p.node.toNat, src := p.src, length := p.length.toNat,
                             line := ((k.rq q).base + 64 * first) / 64, lines := lines, received := waiter.isSome }
        s.onlyCore t c ∧
        memoryHas k.ls (t.core c).ls ((k.rq q).base + 64 * first) p.payload.length (fun i => p.payload.getD i 0) ∧
        ((t.core c).rq q).msgs = (k.rq q).msgs ++ [m] ∧ (∀ r, r ≠ q → (t.core c).rq r = k.rq r) ∧
        (∀ y, some y ≠ waiter → (t.core c).ctx y = k.ctx y) ∧
        ∀ x rd, waiter = some x → (k.ctx x).wait = .recv q rd →
          ((t.core c).ctx x).st = .ready ∧ ((t.core c).ctx x).wait = .none ∧ ∀ r, ((t.core c).ctx x).sreg r = (k.ctx x).withS rd m.header r) ∧
  (∀ (p : Packet) (s : State), p.epoch.toNat = s.pair.epoch →
    let c := srfCore p.address
    p.type.toNat = 3 → (s.core c).hasRoom p = false → ((s.core c).rq (p.arg.toNat % 4)).configured = true →
      Does (.messagePacket p) s fun t =>
        s.onlyCore t c ∧
        t.core c = { s.core c with held := (s.core c).held ++ [{ queue := p.arg.toNat % 4, pkt := p, since := s.rackTime }] }) ∧
  ∀ (c : CoreId) (q : Fin 4) (h : HeldMsg) (rest : List HeldMsg) (s : State), (s.core c).held = h :: rest → h.queue = q.val →
    msgQueue h.pkt = q.val →
    (h.pkt.epoch.toNat ≠ s.pair.epoch → (∀ g ∈ rest, g.pkt.vc ≠ h.pkt.vc) →
      Does (.heldMessageDeliver c q) s fun t => s.otherCores t c ∧ t.core c = { s.core c with held := rest }) ∧
    (h.pkt.epoch.toNat = s.pair.epoch → ((s.core c).rq q).place h.pkt.length.toNat = none → Does (.heldMessageDeliver c q) s fun t => t = s) ∧
    ∀ (first lines : Nat), h.pkt.epoch.toNat = s.pair.epoch → ((s.core c).rq q).place h.pkt.length.toNat = some (first, lines) →
      (∀ g ∈ rest, g.pkt.vc ≠ h.pkt.vc) →
      Does (.heldMessageDeliver c q) s fun t =>
        s.onlyCore t c ∧ (t.core c).held = rest ∧
        memoryHas (s.core c).ls (t.core c).ls (((s.core c).rq q).base + 64 * first) h.pkt.payload.length (fun i => h.pkt.payload.getD i 0)

/-- SEND with a legal destination, size and range and a free descriptor queues the message under a new number and moves on (R86, R112); a full
queue keeps it in issue and in no wait state, and a message longer than its queue allows, one outside local store or for no receive queue faults (R87,
R112); the oldest send of a queue leaves as a MESSAGE packet with its tag and its payload read now, and its descriptor is free (R88, R126).
What no rule states in it is the model's choice or reading: notes/assumptions/60.md and notes/assumptions/122.md. -/
def Obligations.SendsQueueAndLeave : Prop :=
  (∀ (c : CoreId) (w : Insn) (x : Nat) (es : Errs) (s : State), s.executes c x w →
    let u := s.ctxOf c x
    let k := s.core c
    let dest := u.sreg (fRA w)
    let off := (u.sreg (fRB w)).toNat
    let len := (u.sreg (fRC w)).toNat
    let q := immBits w 17 16
    sendDest dest = true → len ≤ sqMax q → (len = 0 ∨ off + len ≤ 0x100000) → k.sqUsed q < 16 → k.sendWaits x = false →
      Does (.send c w es) s fun t =>
        s.onlyCore t c ∧ (∀ y, y ≠ x → t.ctxOf c y = s.ctxOf c y) ∧ t.ctxOf c x = u.advance ∧
        t.core c = { k with ctxs := (t.core c).ctxs, hsCnt := k.hsCnt + 1, nextId := k.nextId + 1,
                            sends := k.sends ++ [{ id := k.nextId, ctx := x, queue := q, dest := dest, off := off, len := len,
                                                   tag := BitVec.ofNat 16 (immBits w 15 0), errs := es }] }) ∧
  (∀ (c : CoreId) (w : Insn) (x : Nat) (es : Errs) (s : State), s.executes c x w →
    let u := s.ctxOf c x
    let len := (u.sreg (fRC w)).toNat
    let q := immBits w 17 16
    (sendDest (u.sreg (fRA w)) = false → Does (.send c w es) s fun t => Claims.faulted s t c x Err.REMOTE_ADDR) ∧
    (sendDest (u.sreg (fRA w)) = true →
      (sqMax q < len → Does (.send c w es) s fun t => Claims.faulted s t c x Err.MSG_SIZE) ∧
      (len ≤ sqMax q → len ≠ 0 → 0x100000 < (u.sreg (fRB w)).toNat + len → Does (.send c w es) s fun t => Claims.faulted s t c x Err.LS_RANGE) ∧
      (len ≤ sqMax q → (len = 0 ∨ (u.sreg (fRB w)).toNat + len ≤ 0x100000) → 16 ≤ (s.core c).sqUsed q → Does (.send c w es) s fun t => t = s))) ∧
  ∀ (c : CoreId) (id : Nat) (d : SendDesc) (s : State),
    (s.core c).sends.find? (fun e => decide (e.id = id)) = some d → (∀ e ∈ (s.core c).sends, e.queue = d.queue → id ≤ e.id) →
    s.on PG_PTB_STS.ACTIVE (Block.core.page c) = false → (∀ k, d.errs.at k = .clean) → srfPkg d.dest = s.me → sendDest d.dest = true →
      Does (.sendComplete c id) s fun t =>
        s.otherCores t c ∧ (t.core c).sends = ((s.core c).sends.filter fun e => decide (e.id ≠ id)) ∧ (t.core c).ls = (s.core c).ls ∧
        ∃ p : Packet, t.out = s.out ++ [.packet s.me p] ∧ p.type.toNat = 3 ∧ p.vc.toNat = (if d.queue < 2 then 2 else 3) ∧
          p.payload = (s.core c).rdLs d.off d.len ∧ bits64 p.address 17 2 = d.tag.toNat ∧ p.arg.toNat = bits64 d.dest 1 0 ∧
          srfCore p.address = srfCore d.dest ∧ p.node.toNat = c.val

/-! Local-store DMA (R123 to R125) and the gateways (R409). -/

/-- DMA on a core without another DMA: its command stands under a new number with its completion address, its first transfers have been asked for,
and the context moves on; registers, local store and the other cores stay; a full send queue keeps it in issue, and a bad command faults (R87, R123, R124). -/
def Sys2Proof.Claims.dmaStarts : Prop :=
  ∀ (c : CoreId) (w : Insn) (x : Nat) (es : Errs) (s : State), s.executes c x w →
    let u := s.ctxOf c x
    let k := s.core c
    let a := u.sreg (fRA w)
    let ls := (u.sreg (fRB w)).toNat
    let len := (u.sreg (fRC w)).toNat
    let pull := decide (immBits w 31 31 = 0)
    (∀ code, s.dmaFault a ls len = some code → Does (.dma c w es) s fun t => Claims.faulted s t c x code) ∧
    (s.dmaFault a ls len = none → 16 ≤ k.sqUsed (2 + immBits w 30 30) → Does (.dma c w es) s fun t => t = s) ∧
    (s.dmaFault a ls len = none → k.dmas = [] → k.sqUsed (2 + immBits w 30 30) < 16 →
      (pull = true ∨ (k.sendWaits x = false ∧ s.on PG_PTB_STS.ACTIVE (Block.core.page c) = false ∧ ∀ j, es.at j = .clean)) →
      Does (.dma c w es) s fun t =>
        s.otherCores t c ∧ (∀ y, y ≠ x → t.ctxOf c y = s.ctxOf c y) ∧ t.ctxOf c x = u.advance ∧ (t.core c).ls = k.ls ∧
        (t.core c).nextId = k.nextId + 1 ∧
        ∃ d, (t.core c).dmas = [d] ∧ d.id = k.nextId ∧ d.ctx = x ∧ d.queue = 2 + immBits w 30 30 ∧ d.pull = pull ∧ d.remote = a ∧ d.ls = ls ∧
          d.len = len ∧ d.compl = 8 * immBits w 16 0 ∧ d.done = 0 ∧ d.failed = false ∧ 0 < d.asked ∧ d.asked ≤ len ∧ d.reqs.length ≤ 16)

/-- Every DMA of the list but DMA `id` has asked for all its bytes. -/
def Sys2Proof.Claims.allAsked (ds : List Dma) (id : Nat) : Prop := ∀ e ∈ ds, e.id ≠ id → e.len ≤ e.asked

/-- A DMA ends once no transfer of it is outstanding and its bytes have all moved, or it has failed: its completion word says OK or REMOTE_ERR and its bytes,
its descriptor is free, and a failure faults its context (R125); a cross-rack transfer that ends gives its gateway place back and is its DMA's end of a
transfer (R409, R410). -/
def Sys2Proof.Claims.transfersComplete : Prop :=
  (∀ (c : CoreId) (id : Nat) (failed : Bool) (d : Dma) (s : State), (s.core c).dmas.find? (fun e => decide (e.id = id)) = some d →
    let bad := failed = true ∨ d.failed = true
    let left := fun (t : State) (status : Nat) =>
      s.otherCores t c ∧ (t.core c).dmas = ((s.core c).dmas.filter fun e => decide (e.id ≠ id)) ∧
        memoryHas (s.core c).ls (t.core c).ls d.compl 8 (fun i => (completionWord status d.done).getD i 0)
    ((d.reqs ≠ [] ∨ (¬ bad ∧ d.done < d.len)) → Does (.dmaComplete c id failed) s fun t => t = s) ∧
    (d.reqs = [] → Claims.allAsked (s.core c).dmas id →
      (¬ bad → d.len ≤ d.done → Does (.dmaComplete c id failed) s fun t => s.onlyCore t c ∧ left t 0) ∧
      (bad → s.step.active = false → Does (.dmaComplete c id failed) s fun t =>
        left t 3 ∧ ((s.ctxOf c d.ctx).stopping = false → (t.ctxOf c d.ctx).st = .faulted)))) ∧
  ∀ (w : Wing) (id : Nat) (failed : Bool) (s : State),
    (id ∉ (s.wing w).xrack → Does (.xrackTransferComplete w id failed) s fun t => t = s) ∧
    (id ∈ (s.wing w).xrack → (s.wing w).xwait = [] → (∀ e ∈ (s.core (id / 256)).dmas, e.len ≤ e.asked) →
      Does (.xrackTransferComplete w id failed) s fun t =>
        t = { s with cores := t.cores, wings := t.wings, fab := t.fab } ∧ (id / 256 < 4096 → t.fab = s.fab) ∧ (t.wing w).xrack = (s.wing w).xrack.erase id ∧ (∀ v, v ≠ w.val → t.wing v = s.wing v) ∧
        (∀ c, c ≠ id / 256 ∨ 4096 ≤ id / 256 → t.core c = s.core c) ∧
        ∀ (d : Dma) (off n at0 : Nat), id / 256 < 4096 → (s.core (id / 256)).dmaOf (id % 256) = some (d, off, n, at0) →
          ∃ e ∈ (t.core (id / 256)).dmas, e.id = d.id ∧ e.done = (if failed = true then d.done else d.done + n) ∧ e.failed = (d.failed || failed) ∧
            ∀ r ∈ e.reqs, r.1 ≠ id % 256)

/-- A DMA starts and ends, and a cross-rack transfer gives its gateway place back (R123 to R125, R409, R410).
What no rule states in it is the model's choice or reading: notes/assumptions/61.md. -/
def Obligations.DmaTransfers : Prop := Claims.dmaStarts ∧ Claims.transfersComplete

/-! Remote access (R118 to R122, R138, R401, R403). -/

/-- The asking instructions: bytes of the result, TYPE, LENGTH, ARG and payload of the request (R118, R119, R403). -/
def Sys2Proof.Claims.asks : List ((CoreId → Insn → Instr) × (Insn → Nat) × Nat × (Insn → Nat) × (Insn → Nat) × (Insn → Ctx → Bytes)) :=
  [(.rld4, fun _ => 4, 0, fun _ => 4, fun _ => 0, fun _ _ => []), (.rld8, fun _ => 8, 0, fun _ => 8, fun _ => 0, fun _ _ => []),
   (.rldV, fun _ => 128, 0, fun _ => 128, fun _ => 0, fun _ _ => []),
   (.ramo, fun w => if immBits w 4 4 = 1 then 8 else 4, 2, fun _ => 16, fun w => immBits w 4 0,
     fun w t => leBytes 8 (t.sreg (fRB w)).toNat ++ leBytes 8 (t.sreg (fRC w)).toNat)]

/-- RLD4, RLD8, RLD.V and RAMO at a legal address with no store of the context to it outstanding: one request leaves and the context waits in
WAIT_REMOTE at its own pc with its response sink; TAKE's request goes to its wing's steward once its context's earlier stores, DMAs and sends have completed;
an address that the checks refuse faults (R68, R74, R118, R119, R138, R206). -/
def Sys2Proof.Claims.remoteAsksWait : Prop :=
  ∀ (c : CoreId) (w : Insn) (x : Nat) (s : State), s.executes c x w →
    let u := s.ctxOf c x
    let a := u.sreg (fRA w)
    (∀ p ∈ Claims.asks, (p.2.2.1 = 2 → immBits w 3 0 < 6) → s.remoteCheck a (p.2.1 w) = none → (s.core c).storeTo x a (p.2.1 w) = false →
      Does (p.1 c w) s fun t =>
        t = State.sendPacket { s with cores := t.cores } (s.request a p.2.2.1 2 c x (p.2.2.2.1 w) (p.2.2.2.2.1 w) (p.2.2.2.2.2 w u)) ∧
        s.otherCores t c ∧ (s.core c).onlyCtx (t.core c) x ∧
        t.ctxOf c x = { u with st := .waitRemote, wait := .remote, sink := some { w := w, addr := a.toNat, size := p.2.1 w, since := s.rackTime } }) ∧
    (∀ p ∈ Claims.asks, (p.2.2.1 = 2 → immBits w 3 0 < 6) → ∀ code, s.remoteCheck a (p.2.1 w) = some code →
      Does (p.1 c w) s fun t => Claims.faulted s t c x code) ∧
    (6 ≤ immBits w 3 0 → Does (.ramo c w) s fun t => Claims.faulted s t c x Err.ILLEGAL_OP) ∧
    ((s.core c).fenced x = false → Does (.take c w) s fun t =>
      s.onlyCore t c ∧ (∀ y, y ≠ x → t.ctxOf c y = s.ctxOf c y) ∧ t.ctxOf c x = { u with st := .waitSync, wait := .fence }) ∧
    ((s.core c).fenced x = true → ∀ code, s.remoteCheck a 128 = some code → Does (.take c w) s fun t => Claims.faulted s t c x code) ∧
    ((s.core c).fenced x = true → s.remoteCheck a 128 = none →
      Does (.take c w) s fun t =>
        t.out = s.out ++ [.packet s.me (s.request (srfAddr s.me 2 (2 * wingOf c * 2 ^ 32)) 4 2 c x 0 0 [])] ∧ s.otherCores t c ∧
        (s.core c).onlyCtx (t.core c) x ∧ (t.ctxOf c x).st = .waitRemote ∧ (t.ctxOf c x).pc = u.pc)

/-- The remote stores: bytes and data. -/
def Sys2Proof.Claims.remoteStores : List ((CoreId → Insn → Instr) × Nat × (Insn → Ctx → Bytes)) :=
  [(.rst4, 4, fun w t => leBytes 4 (t.sreg (fRB w)).toNat), (.rst8, 8, fun w t => leBytes 8 (t.sreg (fRB w)).toNat),
   (.rstV, 128, fun w t => vBytes (t.vreg (fRB w)))]

/-- RST4, RST8 and RST.V at a legal address with an acknowledgement slot free: the store leaves, the slot is taken, and the context moves on; with all 16
taken it waits, and an address that the checks refuse faults (R74, R118, R121). -/
def Sys2Proof.Claims.remoteStoresGoOn : Prop :=
  ∀ p ∈ Claims.remoteStores, ∀ (c : CoreId) (w : Insn) (x n : Nat) (s : State), s.executes c x w →
    let u := s.ctxOf c x
    let a := u.sreg (fRA w)
    (∀ code, s.remoteCheck a p.2.1 = some code → Does (p.1 c w) s fun t => Claims.faulted s t c x code) ∧
    (s.remoteCheck a p.2.1 = none → (s.core c).freeStore = none → Does (p.1 c w) s fun t =>
      s.onlyCore t c ∧ (∀ y, y ≠ x → t.ctxOf c y = s.ctxOf c y) ∧ t.ctxOf c x = { u with st := .waitSync, wait := .storeBuf }) ∧
    (s.remoteCheck a p.2.1 = none → (s.core c).freeStore = some n →
      Does (p.1 c w) s fun t =>
        t = State.sendPacket { s with cores := t.cores } (s.request a 1 2 c n p.2.1 0 (p.2.2 w u)) ∧ s.otherCores t c ∧
        t.core c = { s.core c with ctxs := (t.core c).ctxs, hsCnt := (s.core c).hsCnt + 1,
                                   stores := (s.core c).stores ++
                                     [{ sink := n, ctx := x, word := a.toNat / 8, bytes := p.2.1, w := w, pc := u.pc, since := s.rackTime }] } ∧
        (∀ y, y ≠ x → t.ctxOf c y = s.ctxOf c y) ∧ t.ctxOf c x = u.advance)

/-- The remote instructions: the asking ones wait, the stores go on (R68, R74, R118 to R121, R138).
What no rule states in it is the model's choice or reading: notes/assumptions/50.md and notes/assumptions/60.md. -/
def Obligations.RemoteInstructions : Prop := Claims.remoteAsksWait ∧ Claims.remoteStoresGoOn

/-- A request of the present attempt to a good address, whose channel no held message blocks (R89, R398, R401). -/
def Sys2Proof.Claims.served (s : State) (p : Packet) : Prop :=
  p.epoch.toNat = s.pair.epoch ∧ s.badAddress p.address = false ∧ s.channelHeld p = false

/-- A run of bytes at a home reads clean: no injection armed, no line of it on the bad-line list, and every code clean (R80, R365). -/
def Sys2Proof.Claims.readsClean (s : State) (a : BitVec 64) (n : Nat) (es : Errs) : Prop :=
  (∀ g, s.on PG_PTB_STS.ACTIVE g = false) ∧ (srfSpace a = 1 → s.celBad (srfOff a) n = false) ∧ ∀ k, es.at k = .clean

/-- A write to the cellar that no READY or DRAINING footprint and no larder's ring takes (R324, R373). -/
def Sys2Proof.Claims.plainWrite (s : State) (p : Packet) (n : Nat) : Prop :=
  (p.node.toNat < 4096 → s.inFootprint (srfOff p.address) n = false) ∧ s.ringWing (srfOff p.address) n = none

/-- The `n` bytes of the cellar from `o` up are `b 0`, `b 1` and so on; a byte outside the 8-byte words of that range is as before, and one within them reads as
before, since a word of a page table is stored whole (R176). -/
def Sys2Proof.Claims.cellarHas (s t : State) (o n : Nat) (b : Nat → Byte) : Prop :=
  (∀ i, i < n → Memory.byte t.cellar (o + i) = b i) ∧
  ∀ a, a < o ∨ o + n ≤ a → Memory.byte t.cellar a = Memory.byte s.cellar a ∨ 8 * (o / 8) ≤ a ∧ a < 8 * ((o + n + 7) / 8) ∧ Memory.byte t.cellar a = s.celByte a

/-- LOAD and BULK_READ are answered with the bytes at their address, at most 4,096, and change nothing else; STORE, BULK_WRITE and ATOMIC write at their
address, an atomic returning the old value, and are answered; a core's write into a footprint in service is answered with an error and writes nothing (R119,
R120, R324, R402, R403).
What no rule states in it is the model's choice or reading: notes/assumptions/18.md, notes/assumptions/49.md and notes/assumptions/64.md. -/
def Obligations.HomesAnswer : Prop :=
  ∀ (p : Packet) (es : Errs) (s : State), Claims.served s p →
    let n := if p.arg.toNat / 16 % 2 = 1 then 8 else 4
    let o := srfByte p.address
    let c := srfCore p.address
    (Claims.readsClean s p.address (min 4096 p.length.toNat) es →
      Does (.loadPacket p es) s (fun t => t = s.answer p 8 (s.memRead p.address (min 4096 p.length.toNat))) ∧
      Does (.bulkReadPacket p es) s (fun t => t = s.answer p 10 (s.memRead p.address (min 4096 p.length.toNat)))) ∧
    (srfSpace p.address = 0 → o + p.payload.length ≤ 0x100000 →
      ∀ i, i = Instr.storePacket p ∨ i = Instr.bulkWritePacket p →
        Does i s fun t =>
          t = { s with cores := t.cores, out := s.out ++ [.packet p.src (s.response p 9 [])] } ∧ s.otherCores t c ∧
          t.core c = { s.core c with ls := (t.core c).ls } ∧ memoryHas (s.core c).ls (t.core c).ls o p.payload.length fun i => p.payload.getD i 0) ∧
    (srfSpace p.address = 1 → p.type.toNat ≠ 2 →
      ∀ i, i = Instr.storePacket p ∨ i = Instr.bulkWritePacket p →
        (Claims.plainWrite s p p.length.toNat → Does i s fun t =>
          t = (s.memWrite p.address p.payload).answer p 9 [] ∧
          Claims.cellarHas s t (srfOff p.address) p.payload.length fun i => p.payload.getD i 0) ∧
        (p.node.toNat < 4096 → s.inFootprint (srfOff p.address) p.length.toNat = true → Does i s fun t =>
          t = { s with out := t.out, freeCtr := t.freeCtr } ∧ ∃ r : Packet, t.out = s.out ++ [.packet p.src r] ∧ r.type.toNat = 0xB)) ∧
    (srfSpace p.address = 0 → o + n ≤ 0x100000 → Claims.readsClean s p.address n es →
      Does (.atomicPacket p es) s fun t =>
        let old := (s.core c).rdLs o n
        t = { s with cores := t.cores, out := s.out ++ [.packet p.src (s.response p 8 old)] } ∧ s.otherCores t c ∧
        t.core c = { s.core c with ls := (t.core c).ls } ∧
        memoryHas (s.core c).ls (t.core c).ls o n fun i =>
          BitVec.ofNat 8 (amoNew (p.arg.toNat % 16) n (leNat old) (fieldAt p.payload 0 8) (fieldAt p.payload 8 8) / 256 ^ i)) ∧
    (srfSpace p.address = 1 → p.type.toNat = 2 → Claims.plainWrite s p n → Claims.readsClean s p.address n es →
      Does (.atomicPacket p es) s fun t =>
        let old := s.memRead p.address n
        let new := amoNew (p.arg.toNat % 16) n (leNat old) (fieldAt p.payload 0 8) (fieldAt p.payload 8 8)
        t = (s.memWrite p.address (leBytes n new)).answer p 8 old ∧ t.cores = s.cores ∧
        Claims.cellarHas s t (srfOff p.address) n fun i => BitVec.ofNat 8 (new / 256 ^ i))

/-- A response that does not come after the 2 ms of its request (R401). -/
def Sys2Proof.Claims.inTime (s : State) (p : Packet) : Prop := p.src = s.me ∨ (p.node.toNat, p.sink.toNat, p.src) ∉ s.fab.late

/-- A response of any TYPE that comes after the 2 ms of its request is discarded (R401). -/
def Sys2Proof.Claims.lateDiscarded : Prop :=
  ∀ (p : Packet) (s : State), p.src ≠ s.me → (p.node.toNat, p.sink.toNat, p.src) ∈ s.fab.late →
    ∀ i ∈ [Instr.dataPacket p, Instr.ackPacket p, Instr.bulkDataPacket p, Instr.errorPacket p],
      Does i s fun t => t = { s with fab := { s.fab with late := s.fab.late.erase (p.node.toNat, p.sink.toNat, p.src) } }

/-- DATA for a context that waits: its result goes to RD (or to the vector register of a 128-byte result), the context is READY at its next
instruction; ACK of a store frees its slot and changes no register; BULK_DATA lands at its place in local store and at no other (R68, R121, R124). -/
def Sys2Proof.Claims.responsesArrive : Prop :=
  ∀ (p : Packet) (s : State), p.node.toNat < 4096 → Claims.inTime s p →
    let c := p.node.toNat
    let x := p.sink.toNat
    let u := s.ctxOf c x
    (∀ q : Sink, x < 8 → u.st = .waitRemote → u.sink = some q → u.stopPending = false →
      Does (.dataPacket p) s fun t =>
        s.onlyCore t c ∧ (∀ y, y ≠ x → t.ctxOf c y = s.ctxOf c y) ∧ (t.core c).ls = (s.core c).ls ∧
        (t.ctxOf c x).st = .ready ∧ (t.ctxOf c x).wait = .none ∧ (t.ctxOf c x).sink = none ∧ (t.ctxOf c x).pc = u.advance.pc ∧
        (∀ r, (t.ctxOf c x).sreg r = if q.size = 128 then u.sreg r else u.withS (fRD q.w) (BitVec.ofNat 64 (leNat (p.payload.take q.size))) r) ∧
        ∀ r, (t.ctxOf c x).vreg r = if q.size = 128 then u.withV (fRD q.w) (vOfBytes p.payload) r else u.vreg r) ∧
    ((∃ o ∈ (s.core c).stores, o.sink = x) →
      Does (.ackPacket p) s fun t =>
        s.onlyCore t c ∧ (t.core c).stores = ((s.core c).stores.filter fun o => decide (o.sink ≠ x)) ∧ (t.core c).ls = (s.core c).ls ∧
        ∀ y r, (t.ctxOf c y).sreg r = (s.ctxOf c y).sreg r ∧ (t.ctxOf c y).vreg r = (s.ctxOf c y).vreg r) ∧
    ∀ (d : Dma) (off n at0 : Nat), (s.core c).dmaOf x = some (d, off, n, at0) → (∀ g, s.on PG_PTB_STS.ACTIVE g = false) →
      (∀ e ∈ (s.core c).dmas, e.pull = true ∨ ∀ k, e.errs.at k = .clean) →
      Does (.bulkDataPacket p) s fun t =>
        s.otherCores t c ∧ ∀ a, Memory.byte (t.core c).ls a =
          if d.ls + off ≤ a ∧ a < d.ls + off + (p.payload.take n).length then p.payload.getD (a - (d.ls + off)) 0 else Memory.byte (s.core c).ls a

/-- ERROR for a context that waits faults it with REMOTE_ERR, or halts it when a STOP waits (R70, R122). -/
def Sys2Proof.Claims.errorResponseFaults : Prop :=
  ∀ (p : Packet) (q : Sink) (s : State), p.node.toNat < 4096 → p.sink.toNat < 8 → Claims.inTime s p →
    let c := p.node.toNat
    let x := p.sink.toNat
    (s.ctxOf c x).st = .waitRemote → (s.ctxOf c x).sink = some q → s.step.active = false → s.step.faults = [] →
      Does (.errorPacket p) s fun t =>
        s.otherCores t c ∧ (t.ctxOf c x).st = (if (s.ctxOf c x).stopPending then .halted else .faulted) ∧
        ((s.ctxOf c x).stopPending = false → s.on CORE_FAULT.VALID c = false →
          t.on CORE_FAULT.VALID c = true ∧ t.rd CORE_FAULT.CTX c = x ∧ t.rd CORE_FAULT.CODE c = Err.REMOTE_ERR.toNat)

/-- The responses of a remote access: DATA, ACK and BULK_DATA take effect, ERROR faults; one that comes too late is discarded (R68, R70, R121, R122, R124,
R401).
What no rule states in it is the model's choice or reading: notes/assumptions/64.md and notes/assumptions/146.md. -/
def Obligations.Responses : Prop := Claims.responsesArrive ∧ Claims.errorResponseFaults ∧ Claims.lateDiscarded

/-! Fences and barriers (R126, R131 to R134). -/

/-- FENCE passes when the context's stores, DMAs and sends are complete, a push once its last transfer is acknowledged, and waits otherwise (R126). -/
def Sys2Proof.Claims.fenceWaitsForOwn : Prop :=
  ∀ (c : CoreId) (w : Insn) (x : Nat) (s : State), s.executes c x w →
    Does (.fence c w) s fun t =>
      s.onlyCore t c ∧ (s.core c).onlyCtx (t.core c) x ∧
      t.ctxOf c x =
        if (∀ o ∈ (s.core c).stores, o.ctx ≠ x) ∧
            (∀ d ∈ (s.core c).dmas, d.ctx = x → d.pull = false ∧ d.reqs = [] ∧ (d.len ≤ d.done ∨ d.failed = true)) ∧
            (∀ d ∈ (s.core c).sends, d.ctx ≠ x)
        then (s.ctxOf c x).advance else { (s.ctxOf c x).advance with st := .waitSync, wait := .fence }

/-- An arrival may be made: the barrier is set, the context's traffic is complete, and its last arrival is not of the open phase (R131, R133,
R134). -/
def Sys2Proof.Claims.mayArrive (s : State) (c x b : Nat) : Prop :=
  (s.barrier b).count ≠ 0 ∧ (s.core c).fenced x = true ∧ (s.ctxOf c x).lastArrival b ≠ some (s.barrier b).phase

/-- The contexts of the package but one that waited for phase `n` of barrier `b`, after it or before the next arrival, are READY; the others are as before
(R132, R133). -/
def Sys2Proof.Claims.released (s t : State) (c x b n : Nat) : Prop :=
  ∀ d y, y < 8 → d ≠ c ∨ y ≠ x →
    let u := s.ctxOf d y
    t.ctxOf d y = if (u.wait = .barrier b n ∨ u.wait = .arrive b n) ∧ u.st ≠ .halted ∧ u.st ≠ .faulted then { u with st := .ready, wait := .none } else u

/-- Every context but one is as before. -/
def Sys2Proof.Claims.otherCtxs (s t : State) (c x : Nat) : Prop := s.otherCores t c ∧ ∀ y, y ≠ x → t.ctxOf c y = s.ctxOf c y

/-- BAR.A and BAR that do not complete a phase count one arrival, and BAR then waits for the phase; BAR.A and BAR that complete it open the next
phase with no arrivals and release its waiters, and neither waits: the context goes on RUNNING; BAR.W of a context whose phase is complete, or that never
arrived, passes, and of one whose phase is open waits; an arrival waits for the context's earlier stores, DMAs and sends, and for the phase of its last arrival;
one at a barrier without members faults (R131 to R134). -/
def Sys2Proof.Claims.barrierPhases : Prop :=
  ∀ (c : CoreId) (w : Insn) (x : Nat) (s : State), s.executes c x w →
    let b := immBits w 7 0
    let k := s.barrier b
    (Claims.mayArrive s c x b → k.arrived + 1 < k.count →
      Does (.barA c w) s (fun t => t = { s with cores := t.cores, barriers := t.barriers } ∧ Claims.otherCtxs s t c x ∧
        (∀ d, t.barrier d = if d = b then { k with arrived := k.arrived + 1 } else s.barrier d) ∧
        (t.ctxOf c x).lastArrival b = some k.phase ∧
        t.ctxOf c x = { (s.ctxOf c x).advance with st := .running, wait := (s.ctxOf c x).wait, arrivals := (t.ctxOf c x).arrivals }) ∧
      Does (.bar c w) s (fun t => t = { s with cores := t.cores, barriers := t.barriers } ∧ Claims.otherCtxs s t c x ∧
        (∀ d, t.barrier d = if d = b then { k with arrived := k.arrived + 1 } else s.barrier d) ∧
        (t.ctxOf c x).lastArrival b = some k.phase ∧
        t.ctxOf c x = { (s.ctxOf c x).advance with st := .waitSync, wait := .barrier b k.phase, arrivals := (t.ctxOf c x).arrivals })) ∧
    (Claims.mayArrive s c x b → k.count ≤ k.arrived + 1 → (s.ctxOf c x).wait = .none →
      ∀ i, i = Instr.barA c w ∨ i = Instr.bar c w →
        Does i s fun t => t = { s with cores := t.cores, barriers := t.barriers } ∧ Claims.released s t c x b k.phase ∧
          (∀ d, t.barrier d = if d = b then { k with phase := k.phase + 1, arrived := 0 } else s.barrier d) ∧
          (t.ctxOf c x).lastArrival b = some k.phase ∧
          t.ctxOf c x = { (s.ctxOf c x).advance with st := .running, wait := .none, arrivals := (t.ctxOf c x).arrivals }) ∧
    (k.count ≠ 0 → (s.core c).fenced x = false → ∀ i, i = Instr.barA c w ∨ i = Instr.bar c w →
      Does i s fun t => s.onlyCore t c ∧ Claims.otherCtxs s t c x ∧ t.ctxOf c x = { s.ctxOf c x with st := .waitSync, wait := .fence }) ∧
    (k.count ≠ 0 → (s.core c).fenced x = true → (s.ctxOf c x).lastArrival b = some k.phase → ∀ i, i = Instr.barA c w ∨ i = Instr.bar c w →
      Does i s fun t => s.onlyCore t c ∧ Claims.otherCtxs s t c x ∧ t.ctxOf c x = { s.ctxOf c x with st := .waitSync, wait := .arrive b k.phase }) ∧
    (k.count = 0 → ∀ i, i = Instr.barA c w ∨ i = Instr.bar c w → Does i s fun t => Claims.faulted s t c x Err.BAR_UNSET) ∧
    ((s.ctxOf c x).lastArrival b = some k.phase → Does (.barW c w) s fun t =>
      s.onlyCore t c ∧ (s.core c).onlyCtx (t.core c) x ∧ t.ctxOf c x = { (s.ctxOf c x).advance with st := .waitSync, wait := .barrier b k.phase }) ∧
    ((s.ctxOf c x).lastArrival b ≠ some k.phase →
      Does (.barW c w) s fun t => Claims.movedTo s t c x (s.ctxOf c x).advance.pc (s.ctxOf c x).advance.loops)

/-- Fences and barriers: FENCE, BAR.A, BAR.W and BAR, each where it goes on and where it waits (R126, R131 to R134).
What no rule states in it is the model's choice or reading: notes/assumptions/72.md. -/
def Obligations.FencesAndBarriers : Prop := Claims.fenceWaitsForOwn ∧ Claims.barrierPhases

/-! The system class and the contexts (R67 to R72, R82, R102, R109). -/

/-- YIELD makes its context READY at the next instruction; HALT makes it HALTED; TIME gives rack time to within 20 ns; RDCSR gives the core number,
the context number, the package, the step id and the handshake count, and faults for any other selector. A HALT of the hearth's holder clears the file and frees
the hearth, at once or when its running instruction has finished, and discards those that have not started (R68, R72, R102, R109, R151). -/
def Sys2Proof.Claims.systemInstructions : Prop :=
  ∀ (c : CoreId) (w : Insn) (x : Nat) (s : State), s.executes c x w →
    Does (.yield c w) s (fun t => s.onlyCore t c ∧ (s.core c).onlyCtx (t.core c) x ∧ t.ctxOf c x = { (s.ctxOf c x).advance with st := .ready }) ∧
    Does (.halt c w) s (fun t => s.onlyCore t c ∧ (t.ctxOf c x).st = .halted ∧ (t.ctxOf c x).wait = .none ∧ (t.ctxOf c x).sink = none ∧
      (t.core c).ls = (s.core c).ls ∧
      ((s.core c).holder = some x →
        ((s.core c).hearthQ = [] → (t.core c).holder = none ∧ (t.core c).file = AccFile.cleared) ∧
        ∀ h rest, (s.core c).hearthQ = h :: rest →
          (h.ctx = x → (t.core c).holder = some x ∧ (t.core c).file = (s.core c).file ∧
            (t.core c).hearthQ = { h with last := true } :: rest.filter fun g => decide (g.ctx ≠ x)) ∧
          (h.ctx ≠ x → (t.core c).holder = none ∧ (t.core c).file = AccFile.cleared ∧
            (t.core c).hearthQ = h :: rest.filter fun g => decide (g.ctx ≠ x))) ∧
      ((s.core c).holder ≠ some x → (t.core c).holder = (s.core c).holder ∧ (t.core c).file = (s.core c).file ∧ ∀ y, y ≠ x → t.ctxOf c y = s.ctxOf c y)) ∧
    (20 ≤ s.rackTime → s.rackTime + 20 < 2 ^ 64 →
      Does (.time c w) s fun t => ∃ v : BitVec 64, s.rackTime ≤ v.toNat + 20 ∧ v.toNat ≤ s.rackTime + 20 ∧
        State.wroteS { s with freeCtr := s.freeCtr + 1 } t c x (fRD w) v) ∧
    ∀ p ∈ [(0, BitVec.ofNat 64 c.val), (1, BitVec.ofNat 64 x), (2, s.me.setWidth 64), (3, BitVec.ofNat 64 s.step.id), (4, (s.core c).hsCnt)],
      (immBits w 7 0 = p.1 → Does (.rdcsr c w) s fun t => s.wroteS t c x (fRD w) p.2) ∧
      (4 < immBits w 7 0 → Does (.rdcsr c w) s fun t => Claims.faulted s t c x Err.ILLEGAL_OP)

/-- The scheduler gives a free issue slot to the next READY context after the last holder, wrapping from 7 to 0, and leaves a slot that is held;
no register or memory changes (R72). -/
def Sys2Proof.Claims.schedulerRoundRobin : Prop :=
  ∀ (c : CoreId) (s : State),
    (∀ x, (s.core c).running = some x → Does (.schedulerSelect c) s fun t => t.core c = s.core c ∧ s.onlyCore t c) ∧
    ∀ i < 8, (s.core c).running = none → (∀ j < i, (s.ctxOf c (((s.core c).lastHeld + 1 + j) % 8)).st ≠ .ready) →
      (s.ctxOf c (((s.core c).lastHeld + 1 + i) % 8)).st = .ready →
        Does (.schedulerSelect c) s fun t =>
          s.onlyCore t c ∧ (t.core c).lastHeld = ((s.core c).lastHeld + 1 + i) % 8 ∧
          ∀ y, t.ctxOf c y = if y = ((s.core c).lastHeld + 1 + i) % 8 then { s.ctxOf c y with st := .running } else s.ctxOf c y

/-- The system class and the scheduler of a core (R68, R72, R102, R109).
What no rule states in it is the model's choice or reading: notes/assumptions/56.md and notes/assumptions/91.md. -/
def Obligations.SystemAndScheduler : Prop := Claims.systemInstructions ∧ Claims.schedulerRoundRobin

/-- START of a HALTED context makes it READY at its start address with its registers as they were; START of any other is logged as CTX_BUSY, a record whose CTX
is that context and whose NODE is its core, and leaves every core; STOP halts a context at once with its registers as they were, and marks one that waits for a
remote response, which halts it when it arrives (R68, R70, R71). -/
def Sys2Proof.Claims.contextStartStop : Prop :=
  ∀ (c : CoreId) (x : CtxId) (s : State),
    (∀ start, (s.ctxOf c x).st = .halted →
      Does (.ctxStart c x start) s fun t =>
        s.onlyCore t c ∧ t.core c = { s.core c with ctxs := (t.core c).ctxs } ∧ (∀ y, y ≠ x.val → t.ctxOf c y = s.ctxOf c y) ∧
        t.ctxOf c x = { s.ctxOf c x with st := .ready, pc := start, wait := .none, sink := none, stopPending := false, loops := [], arrivals := [] }) ∧
    (∀ start, (s.ctxOf c x).st ≠ .halted → Does (.ctxStart c x start) s fun t =>
      t = s.logErr (s.mkErr Err.CTX_BUSY sevInfo c (ctx := some x)) ∧ t.cores = s.cores ∧
      ((∀ o ∈ s.mgmt.log, o.code ≠ Err.CTX_BUSY) → ∃ r ∈ t.mgmt.log, r.code = Err.CTX_BUSY ∧ r.node = c.val ∧ r.ctx = some x.val)) ∧
    ((s.ctxOf c x).st ≠ .waitRemote → Does (.ctxStop c x) s fun t =>
      s.onlyCore t c ∧ (t.ctxOf c x).st = .halted ∧ (t.core c).ls = (s.core c).ls ∧
      ∀ r, (t.ctxOf c x).sreg r = (s.ctxOf c x).sreg r ∧ (t.ctxOf c x).vreg r = (s.ctxOf c x).vreg r) ∧
    ((s.ctxOf c x).st = .waitRemote →
      Does (.ctxStop c x) s fun t => s.onlyCore t c ∧ (∀ y, y ≠ x.val → t.ctxOf c y = s.ctxOf c y) ∧
        t.ctxOf c x = { s.ctxOf c x with stopPending := true })

/-- An uncorrectable instruction word, met first in this step, stops its context in WAIT_IMEM until the rewrite; a corrected one counts; the rewrite writes the
word of the seated image, counts, and wakes the contexts that wait for it (R82). -/
def Sys2Proof.Claims.instructionWordRewrite : Prop :=
  (∀ (c : CoreId) (x : Nat) (s : State), (s.core c).running = some x → s.on PG_PTB_STS.ACTIVE (Block.core.page c) = false →
    Does (.imemUncorrectableFetch c .clean) s (fun t => t = s) ∧
    Does (.imemUncorrectableFetch c .corrected) s (fun t =>
      t = { s with regs := t.regs } ∧ t.rd CORE_IMEM_FIX.FIX_COUNT c = min (s.rd CORE_IMEM_FIX.FIX_COUNT c + 1) (2 ^ CORE_IMEM_FIX.FIX_COUNT.width - 1))) ∧
  (∀ (c : CoreId) (x : Nat) (s : State), (s.core c).running = some x → pcIdx (s.ctxOf c x).pc ∉ (s.core c).imemBad →
    s.on PG_PTB_STS.ACTIVE (Block.core.page c) = false →
    Does (.imemUncorrectableFetch c .uncorrectable) s fun t =>
      s.onlyCore t c ∧ (∀ y, y ≠ x → t.ctxOf c y = s.ctxOf c y) ∧ (t.core c).imem = (s.core c).imem ∧
      t.ctxOf c x = { s.ctxOf c x with st := .waitImem, wait := .imem (pcIdx (s.ctxOf c x).pc) }) ∧
  ∀ (c : CoreId) (line : BitVec 15) (b : Bytes) (s : State), s.imageWord c line.toNat = some b →
    Does (.imemWordRewrite c line) s fun t =>
      t = { s with cores := t.cores, regs := t.regs } ∧ s.otherCores t c ∧ t.rd CORE_IMEM_FIX.REWRITES c = min (s.rd CORE_IMEM_FIX.REWRITES c + 1) 0xFFFF ∧
      memoryHas (s.core c).imem (t.core c).imem (8 * line.toNat) b.length (fun i => b.getD i 0) ∧
      (∀ x < 8, (s.ctxOf c x).wait ≠ .imem line.toNat → t.ctxOf c x = s.ctxOf c x) ∧
      ∀ x < 8, (s.ctxOf c x).st = .waitImem → (s.ctxOf c x).wait = .imem line.toNat → t.ctxOf c x = { s.ctxOf c x with st := .ready, wait := .none }

/-- What the boundary steward does with a context: START, STOP, and the rewrite of an instruction word (R68 to R71, R82). -/
def Obligations.ContextControl : Prop := Claims.contextStartStop ∧ Claims.instructionWordRewrite


/-! The hearth's completions, the tile lists, the fabric's own answers (R150, R159, R203 to R206, R397, R401, R403). -/

/-- The end of the only hearth instruction of a core empties its queue; a releasing write-out and the last instruction of a context that has halted clear the
file and free the hearth, every other end leaves both, and no byte of memory or register changes (R150, R151, R159). -/
def Sys2Proof.Claims.hearthCompletion : Prop :=
  ∀ (c : CoreId) (h : HearthEntry) (s : State), (s.core c).hearthQ = [h] →
    Does (.hearthInstructionComplete c) s fun t =>
      t = { s with cores := t.cores, power := { s.power with idleSince := s.rackTime } } ∧ s.otherCores t c ∧ (t.core c).hearthQ = [] ∧ (t.core c).ls = (s.core c).ls ∧
      (∀ x r, (t.ctxOf c x).sreg r = (s.ctxOf c x).sreg r ∧ (t.ctxOf c x).vreg r = (s.ctxOf c x).vreg r) ∧
      (if h.releases = true ∨ h.last = true then (t.core c).file = AccFile.cleared ∧ (t.core c).holder = none
        else (t.core c).file = (s.core c).file ∧ (t.core c).holder = (s.core c).holder ∧ (t.core c).ctxs = (s.core c).ctxs)

/-- The instruction queue of the hearth: what enters it, and what its head leaves when it ends (R75, R150, R159).
What no rule states in it is the model's choice or reading: notes/assumptions/52.md. -/
def Obligations.HearthQueue : Prop := Claims.hearthQueues ∧ Claims.hearthCompletion

/-- The response of a TAKE: `b` to context `x` of core `c`. -/
def Sys2Proof.Claims.takeAnswer (s : State) (c x : Nat) (b : Bytes) (o : Out) : Prop :=
  ∃ p : Packet, o = .packet s.me p ∧ p.type.toNat = 8 ∧ p.node = BitVec.ofNat 13 c ∧ p.sink = BitVec.ofNat 8 x ∧ p.payload = b

/-- The steward may serve the context: the lists of a step in progress are built, and no STEP_END was given to it in this step (R138, R202, R204). -/
def Sys2Proof.Claims.mayServe (s : State) (c x : Nat) : Prop := s.listsBuilt = true ∧ (c, x) ∉ s.step.ended

/-- A TAKE completes what its context holds; then it receives the descriptor picked for its core, which becomes that context's; with none to pick it
waits while some remain and receives STEP_END when none do (R138, R203 to R206). A descriptor that has become available goes to a waiting TAKE
of its wing. A descriptor handed out in Glow makes the package Burning, whose interrupt may come before the answer (R470).
What no rule states in it is the model's choice or reading: notes/assumptions/28.md and notes/assumptions/62.md. -/
def Obligations.TakesServed : Prop :=
  (∀ (p : Packet) (s : State), Claims.served s p →
    let c := p.node.toNat
    let x := p.sink.toNat % 8
    let s' := s.completeTaken c x
    Claims.mayServe s c x →
    (∀ i d, s'.pick c = some (i, d) →
      Does (.takePacket p) s fun t =>
        t.step.descs = s'.step.descs.set i { d with st := .taken c x, took := some c } ∧ t.step.takeWaits = s.step.takeWaits ∧ t.cores = s.cores ∧
        ∃ o, t.out = s.burn.out ++ [o] ∧ Claims.takeAnswer s c x d.bytes o) ∧
    (s'.pick c = none → s'.remains c = true →
      Does (.takePacket p) s fun t =>
        t = { s with step := t.step } ∧ t.step = { s'.step with takeWaits := s.step.takeWaits ++ [{ core := c, ctx := x }] }) ∧
    (s'.pick c = none → s'.remains c = false →
      Does (.takePacket p) s fun t =>
        t = { s with step := t.step, out := t.out } ∧ t.step = { s'.step with ended := s.step.ended ++ [(c, x)] } ∧
        ∃ o, t.out = s.out ++ [o] ∧ Claims.takeAnswer s c x stepEndBytes o)) ∧
  ∀ (w : Wing) (q : TakeWait) (i : Nat) (d : Desc) (s : State), s.step.takeWaits = [q] → wingOf q.core = w.val → Claims.mayServe s q.core q.ctx →
    s.pick q.core = some (i, d) →
      Does (.descriptorAvailable w) s fun t =>
        t.step.descs = s.step.descs.set i { d with st := .taken q.core q.ctx, took := some q.core } ∧ t.step.takeWaits = [] ∧
        ∃ o, t.out = s.burn.out ++ [o] ∧ Claims.takeAnswer s q.core q.ctx d.bytes o

/-- A route runs along x in the source's row and then along y in the destination's column, over one lintel on each leg that crosses between wings and over none
on one that does not (R384). -/
def Sys2Proof.Claims.routesInOrder : Prop :=
  ∀ (a b : Nat × Nat) (s : State), a.1 < 64 → a.2 < 64 → b.1 < 64 → b.2 < 64 →
    ∃ xs ys : List Link, s.meshRoute a b = xs ++ ys ∧ (∀ l ∈ xs, ∃ c e, l = .x a.2 c e) ∧ (∀ l ∈ ys, ∃ r d, l = .y b.1 r d) ∧
      ys.length = max a.2 b.2 - min a.2 b.2 ∧
      (xs.filter fun l => l.lintel.isSome).length = (if a.1 / 32 = b.1 / 32 then 0 else 1) ∧
      (ys.filter fun l => l.lintel.isSome).length = (if a.2 / 32 = b.2 / 32 then 0 else 1)

/-- What the outputs grant in a turn (R385, R391): each at most one flit, to a packet that waits for it and has a credit; every output that can move a flit, those of
a full lintel apart, and no lintel direction more than 25; a lower channel is passed over only for one that has been passed over 16 times; the counts follow. -/
def Sys2Proof.Claims.outputsGrant : Prop :=
  ∀ (f : FabricSt) (exits : Link → Transit → Bool),
    let gs := (f.turn exits).1
    let f' := (f.turn exits).2
    let able (l : Link) (t : Transit) : Prop := t ∈ f.transits ∧ t.waits l = true ∧ f.credit exits l t = true
    (∀ g ∈ gs, able g.1 g.2 ∧ g.2.vc < 4) ∧ (gs.map (·.1)).Nodup ∧
    (∀ (l : Link) (t : Transit), able l t → t.vc < 4 → l.lintel = none → ∃ g ∈ gs, g.1 = l) ∧
    (∀ d, (gs.filter fun g => decide (g.1.lintel = some d)).length ≤ 25) ∧
    ∀ g ∈ gs,
      (∀ t, able g.1 t → t.vc < g.2.vc → 16 ≤ (f.passedAt g.1).getD g.2.vc 0) ∧ (f'.passedAt g.1).getD g.2.vc 0 = 0 ∧
      ∀ t, able g.1 t → t.vc < 4 → t.vc ≠ g.2.vc → (f'.passedAt g.1).getD t.vc 0 = (f.passedAt g.1).getD t.vc 0 + 1

/-- A chimney packet goes only into a place of its destination's receive area that the sender still has; one that finds none waits in the package's memory
(R394). -/
def Sys2Proof.Claims.chimneyCredit : Prop :=
  ∀ (d : Nat) (s : State),
    SMap.get 0 s.sendChimney.fab.chimneyUsed d ≤ max (Config.chimneyArea d + 1) (SMap.get 0 s.fab.chimneyUsed d) ∧
    ((s.fab.chimney.map fun q => (q.n, q.piece)).Nodup → ∀ e ∈ s.fab.chimney, e.dest.toNat = d → Config.chimneyArea d + 1 ≤ SMap.get 0 s.fab.chimneyUsed d → e ∈ s.sendChimney.fab.chimney)

/-- The fabric drains: while every exit has credit, a turn moves on as long as any packet has a flit to pass, whatever fills the buffers; no packet waits on one
of a later channel and none on a timeout (R396). -/
def Sys2Proof.Claims.fabricDrains : Prop :=
  ∀ (f : FabricSt) (exits : Link → Transit → Bool) (s : State), (∀ l t, exits l t = true) → (f.transits.map fun t => (t.n, t.piece)).Nodup →
    (∀ t ∈ f.transits, t.vc < 4 ∧ (∃ p d, t.route = s.packetPath p d) ∧ t.sent.length = t.route.length ∧ ∀ k, t.sent.getD k 0 ≤ t.flits) →
    (∃ t ∈ f.transits, t.done = false) → (f.turn exits).2.left < f.left

/-- A packet of a reserved TYPE is discarded and logged; a request without a response after 2 ms counts in FAB_XRACK.TIMEOUTS of its wing and is answered with
an ERROR that carries FAB_TIMEOUT, a later response of the package asked is to be discarded, and before then, and for no request outstanding, nothing changes; routes are in dimension order, outputs grant by channel and credit, chimney packets go by credit, and the fabric drains
(R384, R385, R391, R394, R396, R401, R403).
What no rule states in it is the model's choice or reading: notes/assumptions/11.md, notes/assumptions/49.md, notes/assumptions/130.md and
notes/assumptions/146.md. -/
def Obligations.FabricAnswers : Prop :=
  Claims.routesInOrder ∧ Claims.outputsGrant ∧ Claims.chimneyCredit ∧ Claims.fabricDrains ∧
  (∀ (p : Packet) (s : State), 0xB < p.type.toNat →
    Does (.fabType p) s fun t => t = s.logErr (s.mkErr Err.FAB_TYPE 0 0x1FFF p.address.toNat (detail := pktHeader p)) ∧ t.cores = s.cores) ∧
  (∀ (p : Packet) (s : State), (p.src ≠ s.me ∨ s.askedAt p = none ∨ ∃ at0, s.askedAt p = some at0 ∧ s.rackTime < at0 + 2000000) →
    Does (.fabTimeout p) s fun t => t = s) ∧
  ∀ (p : Packet) (at0 : Nat) (s : State), p.type.toNat ≤ 6 → p.type.toNat ≠ 3 → p.src = s.me → s.askedAt p = some at0 → at0 + 2000000 ≤ s.rackTime →
    Does (.fabTimeout p) s fun t =>
      t.cores = s.cores ∧ (srfPkg p.address ≠ s.me → t.fab.late = s.fab.late ++ [(p.node.toNat, p.sink.toNat, srfPkg p.address)]) ∧
      t.rd FAB_XRACK.TIMEOUTS (nodeWing p.node.toNat) = min (s.rd FAB_XRACK.TIMEOUTS (nodeWing p.node.toNat) + 1) 0xFFFF ∧
      ∃ (l : List Out) (r : Packet), t.out = s.out ++ l ++ [.packet p.src r] ∧ r.type.toNat = 0xB ∧ r.node = p.node ∧ r.sink = p.sink ∧
        r.payload = leBytes 2 Err.FAB_TIMEOUT.toNat

/-- A message that has waited 1 ms for room counts in FAB_HOLD.OVERRUNS of its wing, whose interrupt source 2 is set, and stays held (R397). -/
def Sys2Proof.Claims.receiveOverrun : Prop :=
  ∀ (c : CoreId) (q : Fin 4) (h : HeldMsg) (s : State), (s.core c).held.find? (fun h => decide (h.queue = q.val)) = some h →
    h.since + 1000000 ≤ s.rackTime →
      Does (.rqOverrun c q) s fun t =>
        t.cores = s.cores ∧ t.rd FAB_HOLD.OVERRUNS (wingOf c) = min (s.rd FAB_HOLD.OVERRUNS (wingOf c) + 1) 0xFFFF ∧
        t.rd PG_IRQ_STS.SOURCES (Block.fab.page (wingOf c)) / 4 % 2 = 1

/-- The receive queues of a core: their configuration, RECV, RELEASE, the wait, and an overrun (R113 to R116, R397). -/
def Obligations.ReceiveQueues : Prop := Claims.receiveQueues ∧ Claims.recvWaits ∧ Claims.receiveOverrun

/-! The end of a step and the boundary (R243 to R256, R425). -/

/-- The contribution of this package goes to every other member and is held (R244); a paired member's mirror goes to its partner first (R424). -/
def Sys2Proof.Claims.contributed (s t : State) : Prop :=
  let k := s.contribution s.rackTime
  t = { s with out := s.out ++ (if s.pair.member = .paired then [.mirror s.mirror] else []) ++ s.others.map (fun d => .contribution d k),
               step := { s.step with contributed := true, contributions := s.step.contributions ++ [k] } }

/-- An idle boundary is to be opened (R246): at the leader when a record or a ready prompt is reported, here or by a member, a mantel slot has started,
or the last boundary was 1 ms ago; elsewhere when the leader's contribution is held. -/
def Sys2Proof.Claims.opens (reported : Bool) (s : State) : Prop :=
  (s.leader = s.me ∧ (reported = true ∨ s.accepted ≠ [] ∨ s.promptReady ≠ [] ∨ s.step.lastBoundary + 1000000 ≤ s.rackTime ∨
    ∃ n < 64, s.on SEQ_MANTELn.VALID 0 n = true ∧ ∃ x, mantelStart n s.rackTime = some x ∧ s.step.lastBoundary < x)) ∨
  (s.leader ≠ s.me ∧ ∃ k ∈ s.step.contributions, k.home = s.leader ∧ k.step.toNat = s.closing)

/-- An idle boundary that is to be opened and a mantel slot that has started, at the leader, send this package's contribution once; none is opened
otherwise; a member's contribution that is new joins those held (R244, R246, R257).
What no rule states in it is the model's choice or reading: notes/assumptions/29.md, notes/assumptions/82.md and notes/assumptions/83.md. -/
def Obligations.ContributionsTravel : Prop :=
  (∀ (cons : List ConsWord) (reported : Bool) (s : State), s.step.contributed = false →
    (s.inBoundaries = true → s.step.active = false → s.step.seating = [] → s.resting = false → Claims.opens reported s →
      (s.contribute s.rackTime).boundaryOpen = false → Does (.idleBoundary cons reported) s (Claims.contributed s)) ∧
    (¬ Claims.opens reported s → Does (.idleBoundary cons reported) s fun t => t = s)) ∧
  (∀ (n : Fin 64) (x : Nat) (s : State), s.on SEQ_MANTELn.VALID 0 n.val = true → mantelStart n.val s.rackTime = some x → s.step.lastBoundary < x →
    s.leader = s.me → s.inBoundaries = true → s.step.active = false → s.step.seating = [] → s.step.contributed = false →
      Does (.mantelSlotStart n) s (Claims.contributed s)) ∧
  ∀ (k : Contribution) (s : State), k.home ≠ s.me → k.home ∈ s.pair.members → s.closing ≤ k.step.toNat →
    (∀ x ∈ s.step.contributions, x.home = k.home → x.step ≠ k.step) →
      Does (.boundaryContributionReceive k) s fun t =>
        t = { s with step := { s.step with contributions := s.step.contributions ++ [k] } }

/-- With every contribution held a boundary is applied: its time is the latest of the contributions, ROOM is as they say, and the package has
contributed to no later one (R243, R245, R251). -/
def Sys2Proof.Claims.boundaryCloses : Prop :=
  ∀ (cons : List ConsWord) (reported : Bool) (s : State), s.inBoundaries = true → s.boundaryOpen = true → s.step.contributed = true →
    (s.step.active = false → s.step.seating = [] ∧ s.resting = false) →
    ∀ i, i = (if s.step.active then Instr.stepBoundary cons else Instr.idleBoundary cons reported) →
      Does i s fun t =>
        t.step.lastBoundary = s.heldContributions.foldl (fun a k => max a k.doneTime) 0 ∧ t.step.contributed = false ∧
        t.step.rooms = s.heldContributions.map fun k => (k.home, k.room)

/-- The expiry check makes every paused sequence whose time to live has ended, and whose copy back has not begun, EXPIRED, and changes the state of no
other (R196). -/
def Sys2Proof.Claims.expiryCheck : Prop :=
  ∀ s : State, s.step.active = false → s.resting = false → s.step.lastBoundary + 1000000 ≤ s.rackTime →
    Does .expiryCheck s fun t => ∀ e,
      (t.seq e).st = if (s.seq e).st = .paused ∧ (s.seq e).ttlEnd ≤ s.rackTime ∧ s.copyBegun e = false then .expired else (s.seq e).st

/-- A boundary is applied when every contribution is held, and the expiry check (R196, R243, R245, R251). -/
def Obligations.Boundaries : Prop := Claims.boundaryCloses ∧ Claims.expiryCheck

/-- The end of a paired member's part records its time, draws a token for every sampled sequence of its own, computes its chain checks and sends its
mirror; without the logits of such a sequence it waits; the partner's mirror is stored at once, an idle boundary's as a step's, and a record that it mirrors at
acceptance is kept; an acknowledgement of this step lets the contribution go; the leader's list that agrees starts the step, one that differs hands this
package's work over when no package of another pair differs, one of a step or an attempt still to be reached is held, and when packages of several pairs differ
no package starts and the leader hands over (R255, R256, R424, R425).
What no rule states in it is the model's choice or reading: notes/assumptions/126.md. -/
def Obligations.StepPartAndMirror : Prop :=
  (∀ (samples : List Sample) (s : State), s.step.active = true → s.step.started = true → s.step.seating = [] →
    s.step.partDone = none → s.partOver = true → s.pair.member = .paired → s.step.partnerMirror = none →
      ((∀ e ∈ s.sampledHere, ∃ x ∈ samples, x.seq = e) →
        Does (.packagePartComplete samples) s fun t =>
          t = { s with step := t.step, out := t.out } ∧ t.step.partDone = some s.rackTime ∧ t.step.kvCrc = s.appendedCrc ∧
          t.step.tokensOut.map (·.handle) = s.sampledHere.map s.handle ∧
          (∀ x ∈ samples, (∀ y ∈ samples, y.seq = x.seq → y = x) → x.seq ∈ s.sampledHere →
            s.tokenRec x.seq (sampleToken (s.seq x.seq) x.shards) ∈ t.step.tokensOut) ∧
          t.step.mirrorSent = true ∧ ∃ m, t.out = s.out ++ [.mirror m] ∧ m.step.toNat = s.step.id % 2 ^ 64 ∧ m.records = s.accepted ∧
            m.kvCrc = s.appendedCrc ∧ m.digest = s.step.digest) ∧
      ((∃ e ∈ s.sampledHere, ∀ x ∈ samples, x.seq ≠ e) → Does (.packagePartComplete samples) s fun t => t = s)) ∧
  (∀ (m : Mirror) (s : State), m.atAcceptance = false → s.pair.member = .paired → s.step.active = true → m.step.toNat = s.step.id → s.step.partDone = none →
    Does (.mirrorReceive m) s fun t =>
      t = { s with step := { s.step with partnerMirror := some m },
                   pair := { s.pair with mirrored := some m, partnerRecords := m.records, partnerDue := [], partnerDeferred := [] } }) ∧
  (∀ (m : Mirror) (d : Nat) (s : State), m.atAcceptance = false → s.pair.member = .paired → s.step.active = true → m.step.toNat = s.step.id →
    s.step.partDone = some d → m.digest = s.step.digest → m.kvCrc = s.step.kvCrc → (∀ g, s.on PG_PTB_STS.ACTIVE g = false) →
      Does (.mirrorReceive m) s fun t => t.out = s.out ++ [.mirrorAck s.step.id] ∧ t.pair.mirrored = some m) ∧
  (∀ (m : Mirror) (s : State), m.atAcceptance = false → s.pair.member = .paired → s.step.active = false → m.step.toNat = s.step.id + 1 →
    m.digest = s.step.digest →
      Does (.mirrorReceive m) s fun t => t.out = s.out ++ [.mirrorAck (s.step.id + 1)] ∧ t.pair.mirrored = some m ∧ t.pair.partnerRecords = m.records) ∧
  (∀ (m : Mirror) (s : State), m.atAcceptance = true → (s.pair.member = .paired ∨ s.pair.member = .rejoining) →
    Does (.mirrorReceive m) s fun t => t = { s with pair := { s.pair with partnerRecords := t.pair.partnerRecords } } ∧
      t.pair.partnerRecords = s.pair.partnerRecords ++ m.records.filter fun r => !s.pair.partnerRecords.contains r) ∧
  (∀ (step : DWord) (d : Nat) (s : State), s.step.partDone = some d → s.step.active = true → s.step.mirrorSent = true → s.step.mirrorAcked = false →
    s.step.contributed = false → step.toNat = s.step.id →
      Does (.mirrorAckReceive step) s fun t =>
        t.step.mirrorAcked = true ∧ t.step.contributed = true ∧ t.rd PAIR_MIRROR.LAST_US = min ((s.rackTime - d) / 1000) 0xFFFF ∧
        ∃ k : Contribution, t.step.contributions = s.step.contributions ++ [k] ∧ k.home = s.me ∧ k.doneTime = d ∧ k.commands = s.accepted ∧
          k.tokens = s.step.tokensOut ∧ t.out = s.out ++ s.others.map fun p => .contribution p k) ∧
  ∀ (h : ListHeader) (n : List Nat) (s : State), (s.pair.member = .paired ∨ s.pair.member = .alone) →
    (s.step.active = true → h.stepId.toNat = s.step.id → h.attempt = s.step.attempt → s.step.leader ≠ s.me → s.step.started = false →
      (h.digest = s.step.digest → h.check = s.step.check →
        ((∀ a ∈ n, ∀ b ∈ n, a = b) → s.step.headers = [] →
          Does (.workListReceive h n) s fun t => t = { s with step := t.step } ∧ t.step.started = true ∧ t.step.items = s.step.items) ∧
        (∀ a ∈ n, ∀ b ∈ n, a ≠ b → Does (.workListReceive h n) s fun t => t = s)) ∧
      ((h.digest ≠ s.step.digest ∨ h.check ≠ s.step.check) →
        ((∀ p ∈ n, p = s.pairNum) → s.pair.member = .paired → Does (.workListReceive h n) s fun t =>
          t.pair.member = .out ∧ t.step.active = false ∧ Out.handover ∈ t.out) ∧
        (∀ p ∈ n, p ≠ s.pairNum → Does (.workListReceive h n) s fun t =>
          t.step.started = false ∧ t.pair = s.pair ∧ t.cores = s.cores ∧ t.table = s.table))) ∧
    (s.step.active = true → h.stepId.toNat = s.step.id → h.attempt = s.step.attempt → s.step.leader = s.me → s.pair.member = .paired →
      ∀ a ∈ n, ∀ b ∈ n, a ≠ b → Does (.workListReceive h n) s fun t => t.pair.member = .out ∧ Out.handover ∈ t.out) ∧
    ((s.step.id < h.stepId.toNat ∨ (h.stepId.toNat = s.step.id ∧ s.step.attempt < h.attempt)) →
      Does (.workListReceive h n) s fun t => t = { s with step := { s.step with heldList := some (h, n) } })

/-- A waiting seat is settled when its wait ends: with every core HALTED the last slot that waits is seated; before 50 µs have passed since its STOP it
still waits, and then no seat remains and none is made; a fetched prompt is written, padded with zeros, at its address and reported, and a failed
fetch makes its sequence ERRORED at the boundary (R142, R241, R328).
What no rule states in it is the model's choice or reading: notes/assumptions/28.md and notes/assumptions/85.md. -/
def Obligations.SeatsAndPrompts : Prop :=
  (∀ s : State, s.step.seating ≠ [] →
    let ends := (s.step.seating.head?.map (·.since)).getD 0 + 50000
    (s.allHalted = true → (∀ x ∈ s.step.seating, x.evict = false) →
      Does .programLoadHaltTimeout s fun t => t.step.seating = [] ∧ t.seated = s.step.seating.getLast?.map (·.slot)) ∧
    (s.allHalted = false → s.rackTime < ends → Does .programLoadHaltTimeout s fun t => t = s) ∧
    (s.allHalted = false → ends ≤ s.rackTime → (∀ x ∈ s.step.seating, x.evict = false) →
      Does .programLoadHaltTimeout s fun t => t.step.seating = [] ∧ t.seated = s.seated)) ∧
  ∀ (e : SeqIdx) (b : Bytes) (s : State),
    let q := s.seq e.val
    q.home = s.me → q.promptReady = false → e.val ∉ s.promptReady → (s.kvOf e.val).prompt ≠ [] → q.position = 0 →
      (Does (.promptFetchComplete e (some b)) s fun t =>
        t.promptReady = s.promptReady ++ [e.val] ∧ t.table = s.table ∧ t.kv = s.kv ∧
        memoryHas s.cellar t.cellar q.promptAddr (4 * q.promptLen) fun i => b.getD i 0) ∧
      Does (.promptFetchComplete e none) s fun t =>
        t.step.toError = s.step.toError ++ [{ handle := s.handle e.val, code := Err.PROMPT_FETCH }] ∧ t.promptReady = s.promptReady ∧ t.cellar = s.cellar

/-! Attention and the loft (R182 to R199). -/

/-- The page walk of a started step with no TAKE waiting adds one ATTEND_PAGE descriptor for each page it visits, in order, and touches nothing but
the lists and the local-store slot record (R182 to R186, R191).
What no rule states in it is the model's choice or reading: notes/assumptions/21.md. -/
def Obligations.PageWalkEmits : Prop :=
  ∀ s : State, s.step.active = true → s.step.started = true → s.step.walked = false → s.step.takeWaits = [] →
    Does .pageWalk s fun t =>
      t = { s with step := t.step, kv := t.kv } ∧ t.kv = { s.kv with slots := t.kv.slots } ∧ t.step.walked = true ∧
      ∃ ds : List Desc, t.step.descs = s.step.descs ++ ds ∧ ds.length = s.visits.length ∧
        ∀ (i : Nat) (d : Desc) (v : Visit), ds[i]? = some d → s.visits[i]? = some v → d.kind = 2 ∧ d.index = i ∧ d.owner = some v.core ∧ d.layer = v.ch.layer ∧ d.st = .listed

/-- Step 5 of a loft move rewrites its sequence's entries to loft units and reports it, once the last unit of a host loft has been read back as it was
written; a failed read-back, or a failed move, frees its units and keeps the entries; a copy back writes every page that matches its CRC to its
frame and reports it, and one without a path is reported failed and frees its frames (R193, R194, R197, R199).
What no rule states in it is the model's choice or reading: notes/assumptions/9.md, notes/assumptions/27.md and notes/assumptions/77.md. -/
def Obligations.LoftMoves : Prop :=
  (∀ (e : SeqIdx) (m : LoftMove) (back : Option Bytes) (s : State), s.kv.moves.find? (fun x => decide (x.seq = e.val) && !x.rewritten) = some m →
    let wrong := s.loftWriter = true ∧ s.on SEQ_LOFT_CTL.TARGET = false ∧ back ≠ (m.frames.getLast?).map s.frameImage
    (¬ wrong → Does (.loftMoveConfirm e back) s (fun t =>
      t = { s with kv := t.kv, moved := s.moved ++ [e.val] } ∧ t.kv.inLoft = insertNat e.val s.kv.inLoft ∧
      (t.kvOf e.val).pages =
        ((s.kvOf e.val).pages.zip m.units).map (fun (r, u) => (r.1, r.2.map fun p => { p with crc := crc32c (s.frameImage p.frame), frame := u })) ∧
      ∀ d, d ≠ e.val → t.kvOf d = s.kvOf d)) ∧
    ∀ i, (i = Instr.loftMoveAbandon e ∨ (wrong ∧ i = Instr.loftMoveConfirm e back)) → Does i s (fun t =>
      t = { s with kv := t.kv, movedFailed := s.movedFailed ++ [e.val] } ∧ t.kv.seqs = s.kv.seqs ∧
      t.kv.loftUnits = (s.kv.loftUnits.filter fun u => !m.units.contains u) ∧ t.kv.moves = s.kv.moves.filter fun x => decide (x.seq ≠ e.val))) ∧
  ∀ (e : SeqIdx) (r : ResumeRec) (frames : List Nat) (pages again : List Bytes) (s : State),
    s.kv.resumes = [r] → r.seq = e.val → s.me ∉ r.told → e.val ∉ s.resumed → r.st = .copying frames →
      (Does (.resumeCopyBack e pages again false) s fun t =>
        t.resumeFailed = s.resumeFailed ++ [(e.val, Err.LOFT_UNREACHABLE)] ∧ t.cellar = s.cellar ∧
        t.kv.frames = s.kv.frames.filter fun f => !frames.contains f) ∧
      ∀ (f : Nat) (key : Nat) (p : PageEnt), frames = [f] → (s.kvOf e.val).pages = [(key, some p)] → crc32c (pages.getD 0 []) = p.crc →
        Does (.resumeCopyBack e pages again true) s fun t =>
          t = { s with cellar := t.cellar, cel := t.cel, resumed := s.resumed ++ [e.val] } ∧
          memoryHas s.cellar t.cellar (f * 65536) (pages.getD 0 []).length fun i => (pages.getD 0 []).getD i 0

/-! Experts (R209 to R230). -/

/-- When every routing record of a layer-half is valid its check marks the layer-half routed, and no core or sequence changes; a record that is not valid, met
first in the step, raises ROUTE_RECORD with STEP_ABORT, and the layer-half is not routed (R210).
What no rule states in it is the model's choice or reading: notes/assumptions/55.md. -/
def Obligations.RoutingChecked : Prop :=
  ∀ (layer : Byte) (half : Bool) (m : Bytes) (l : ExLayer) (s : State), s.exLayer layer.toNat = some (m, l) → s.listsBuilt = true →
    s.halfTokens half ≠ 0 → (layer.toNat, half) ∉ s.step.routed →
    s.groupDone (planGroups (s.plan s.step.modelSlot)) l.routeGroup half = true →
    ((∀ j < s.halfTokens half, recordOk l (s.record layer.toNat half j) = true) →
      Does (.routeRecordCheck layer half) s fun t => t.step.routed = s.step.routed ++ [(layer.toNat, half)] ∧ t.cores = s.cores ∧ t.table = s.table) ∧
    ((∃ j < s.halfTokens half, recordOk l (s.record layer.toNat half j) = false) → (∀ f ∈ s.step.faults, f.code ≠ Err.ROUTE_RECORD) →
      s.pair.members ≠ [] → Does (.routeRecordCheck layer half) s fun t => t.step.routed = s.step.routed ∧ t.cores = s.cores ∧ t.table = s.table ∧
        (∃ f ∈ t.step.faults, f.code = Err.ROUTE_RECORD) ∧
        ∃ (d : PkgId) (b : Bytes), d ∈ s.pair.members ∧ Out.chimney d b ∈ t.out ∧ fieldAt b 0 1 = 0x11 ∧ fieldAt b 2 2 = Err.ROUTE_RECORD.toNat)

/-- A dispatch header leaves for a pair's members once their DISPATCH descriptors are done, and a combine header for a source pair's members when it
sent no rows; each goes out once (R216, R217, R224). A header of another attempt changes nothing; a good one that leaves others still missing is
held, and nothing else changes (R218, R219).
What no rule states in it is the model's choice or reading: notes/assumptions/22.md and notes/assumptions/23.md. -/
def Obligations.ExpertHeaders : Prop :=
  (∀ (layer : Byte) (half : Bool) (dest : Nat) (m : Bytes) (l : ExLayer) (s : State), s.exLayer layer.toNat = some (m, l) → s.listsBuilt = true →
    dest < s.pairs → (layer.toNat, half) ∈ s.step.routed → (false, layer.toNat, half, dest) ∉ s.step.sentHeaders →
    s.exchangeDone 5 layer.toNat half dest = true →
      Does (.dispatchHeaderSend layer half dest) s fun t =>
        t = { s with out := t.out, step := { s.step with sentHeaders := s.step.sentHeaders ++ [(false, layer.toNat, half, dest)] } } ∧
        t.out = s.out ++ s.myPositions.flatMap fun pos => (s.memberAt dest pos).toList.map fun p =>
          .chimney p (headerBytes 1 layer.toNat half s.step.attempt s.step.id s.pairNum pos (s.headerCounts m l half s.pairNum dest))) ∧
  (∀ (layer : Byte) (half : Bool) (src : Nat) (x : HeldHeader) (s : State),
    (s.dispatchHeaders layer.toNat half).find? (fun x => decide (x.src = src)) = some x → (∀ e ∈ x.entries, e.2 = 0) → s.listsBuilt = true →
    (true, layer.toNat, half, src) ∉ s.step.sentHeaders →
      Does (.combineHeaderSend layer half src) s fun t =>
        t = { s with out := t.out, step := { s.step with sentHeaders := s.step.sentHeaders ++ [(true, layer.toNat, half, src)] } } ∧
        t.out = s.out ++ (s.serving.filter fun p => decide (s.pairOf p = src)).map fun p =>
          .chimney p (headerBytes 2 layer.toNat half s.step.attempt s.step.id s.pairNum s.position x.entries)) ∧
  ∀ (frm : PkgId) (b : Bytes) (s : State),
    let held (combine : Bool) : HeldHeader :=
      { combine := combine, layer := fieldAt b 1 1, half := decide (fieldAt b 2 1 = 1), src := fieldAt b 8 1, pos := fieldAt b 9 1,
        entries := headerEntries b }
    (s.step.active = true → fieldAt b 4 4 = s.step.id % 2 ^ 32 → fieldAt b 3 1 ≠ s.step.attempt →
      Does (.dispatchHeaderReceive frm b) s (fun t => t = s) ∧ Does (.combineHeaderReceive frm b) s fun t => t = s) ∧
    (s.step.active = true → fieldAt b 4 4 = s.step.id % 2 ^ 32 → fieldAt b 3 1 = s.step.attempt →
      (∀ h ∈ s.step.headers, h.src ≠ fieldAt b 8 1) →
      (s.headerOk 1 frm b = true → ((s.holdHeader false b).dispatchHeaders (fieldAt b 1 1) (decide (fieldAt b 2 1 = 1))).length < s.pairs →
        Does (.dispatchHeaderReceive frm b) s fun t => t = { s with step := { s.step with headers := s.step.headers ++ [held false] } }) ∧
      (s.headerOk 2 frm b = true → s.step.takeWaits = [] →
        Does (.combineHeaderReceive frm b) s fun t => t = { s with step := { s.step with headers := s.step.headers ++ [held true] } }))

/-! Register pages (R5, R6, R10 to R13, R543 to R559). -/

/-- A requester's access at `off` arrives at page `g`, of instance `i` of block `b`, and the page is served (R272, R474, R514, R554, R555, R557). -/
def Sys2Proof.Claims.reaches (s : State) (q : Requester) (off : BarOff) (b : Block) (i g : Nat) : Prop :=
  s.hears q = true ∧ msixPage q off.toNat = none ∧ off.toNat % 4 = 0 ∧ reqPage q off.toNat = some g ∧ pageBlock g = some (b, i) ∧ s.serves b = true

/-- The state in which an access of `q` acts: a TLP has returned the PCIe link to L0 (R475). -/
def Sys2Proof.Claims.touched (s : State) (q : Requester) : State := if q = .wainil then s else s.linkActive

/-- The package differs in its register words alone. -/
def Sys2Proof.Claims.onlyRegs (s t : State) : Prop := t = { s with regs := t.regs }

/-- No register word but those that `p` names differs. -/
def Sys2Proof.Claims.keepsWords (s t : State) (p : Nat → Prop) : Prop := ∀ (d : Word) (a : Nat), ¬ p a → SMap.get d t.regs a = SMap.get d s.regs a

/-- PG_CONFLICT of page `g` shows a refused write at offset `o` with its code (R544). -/
def Sys2Proof.Claims.conflictShows (t : State) (g o : Nat) (c : Code) : Prop :=
  t.rd PG_CONFLICT.VALID g = 1 ∧ t.rd PG_CONFLICT.OFFSET g = o ∧ t.rd PG_CONFLICT.CODE g = c.toNat

/-- The low word that a write of the high word at BAR0 offset `a` joins: the one held, or the one in effect (R13). -/
def Sys2Proof.Claims.lowHalf (s : State) (q : Requester) (r : RegDesc) (a : Nat) : Nat :=
  match SMap.get none s.heldLow (latchKey q (a - 4)) with
  | some x => x.toNat
  | none => s.rd (r.fld (a - 4))

/-- A write of a block's registers: a reserved offset, a read-only register and a requester without the right leave everything; a refused write
changes PG_CONFLICT alone; in the pages LAR, SWP and CEL each field takes a stated value and keeps its own against any other; a low word is held; a
high word makes the whole value take effect, or is discarded with the held word; an access of a function returns the PCIe link to L0 (R5, R6, R10,
R13, R475, R544, R558).
What no rule states in it is the model's choice or reading: notes/assumptions/94.md. -/
def Obligations.RegisterWrites : Prop :=
  ∀ (q : Requester) (off : BarOff) (v : Word) (b : Block) (i g : Nat) (s : State), Claims.reaches s q off b i g →
    let o := off.toNat % 0x1000
    let a := g * 0x1000 + o
    let u := Claims.touched s q
    (regAt b o = none → ∀ k ∈ [Instr.registerWrite q off v, Instr.lowWordWrite q off v, Instr.highWordWrite q off v], Does k s fun t => t = u) ∧
    ∀ r : RegDesc, regAt b o = some r → 0x100 ≤ o → b ≠ .core →
      ((mayWrite q b i = false ∨ r.writable = false) →
        ∀ k ∈ [Instr.registerWrite q off v, Instr.lowWordWrite q off v, Instr.highWordWrite q off v], Does k s fun t => t = u) ∧
      (mayWrite q b i = true → r.writable = true →
        (r.pairing = .single → ∀ c, s.refusal b i o v.toNat = some c →
          Does (.registerWrite q off v) s fun t =>
            Claims.onlyRegs u t ∧ Claims.conflictShows t g o c ∧ Claims.keepsWords s t fun x => x = g * 0x1000 + 0x60) ∧
        (r.pairing = .single → s.refusal b i o v.toNat = none → (b = .lar ∨ b = .swp ∨ b = .cel) →
          Does (.registerWrite q off v) s fun t =>
            Claims.onlyRegs u t ∧ Claims.keepsWords s t (fun x => x = a) ∧
            ∀ f ∈ r.fields, bitsN (t.rd (r.fld a)) f.hi f.lo =
              if f.acc = .rw ∧ f.legal.ok (bitsN v.toNat f.hi f.lo) = true then bitsN v.toNat f.hi f.lo else bitsN (s.rd (r.fld a)) f.hi f.lo) ∧
        (r.pairing = .low →
          Does (.lowWordWrite q off v) s fun t =>
            t = { u with heldLow := t.heldLow } ∧
            ∀ k, SMap.get none t.heldLow k = if k = latchKey q a then some v else SMap.get none s.heldLow k) ∧
        (r.pairing = .high → (b = .cel → o ≠ 0x11C) →
          (s.pairRefusal b i (o - 4) = none → (b.pairLegal (o - 4)).ok (2 ^ 32 * v.toNat + Claims.lowHalf s q r a) = false →
            Does (.highWordWrite q off v) s fun t =>
              t = { u with heldLow := t.heldLow } ∧ SMap.get none t.heldLow (latchKey q (a - 4)) = none) ∧
          (∀ c, s.pairRefusal b i (o - 4) = some c →
            Does (.highWordWrite q off v) s fun t =>
              t = { u with regs := t.regs, heldLow := t.heldLow } ∧ SMap.get none t.heldLow (latchKey q (a - 4)) = none ∧
              Claims.conflictShows t g o c ∧ Claims.keepsWords s t fun x => x = g * 0x1000 + 0x60) ∧
          ((b.pairLegal (o - 4)).ok (2 ^ 32 * v.toNat + Claims.lowHalf s q r a) = true → s.pairRefusal b i (o - 4) = none →
            Does (.highWordWrite q off v) s fun t =>
              t = { u with regs := t.regs, heldLow := t.heldLow } ∧ SMap.get none t.heldLow (latchKey q (a - 4)) = none ∧
              t.rd (r.fld (a - 4)) = Claims.lowHalf s q r a ∧ t.rd (r.fld a) = v.toNat ∧ Claims.keepsWords s t fun x => x = a - 4 ∨ x = a)))

/-- REG_ACCESS counts in the HAL page, a record of it is logged unless one was within the last 1 ms, and work goes on (R12, R530, R552, R556). -/
def Sys2Proof.Claims.accessLogged (s t : State) (off : Nat) : Prop :=
  t.rd PG_ERR_CNT.COUNT (Block.hal.page 0) = min (s.rd PG_ERR_CNT.COUNT (Block.hal.page 0) + 1) 0xFFFFFF ∧ t.cores = s.cores ∧ t.table = s.table ∧
    t.cellar = s.cellar ∧ t.step = s.step ∧
    ((∀ o ∈ s.mgmt.log, o.code = Err.REG_ACCESS → o.node = nodeHall → o.time + 1000000 < s.rackTime) →
      ∃ r, t.mgmt.log.getLast? = some r ∧ r.code = Err.REG_ACCESS ∧ r.address = off ∧ r.seq = s.mgmt.nextSeq ∧ r.time = s.rackTime)

/-- An access that a page does not take: a read returns all ones, a write is discarded, and it is counted and logged (R12, R556). -/
def Sys2Proof.Claims.refusedAccess (k : Bool → Instr) (q : Requester) (off : BarOff) (s : State) : Prop :=
  (Does (k true) s fun t => Claims.accessLogged s t off.toNat) ∧
    Does (k false) s fun t => Claims.accessLogged s t off.toNat ∧ ∃ l, t.out = s.out ++ l ++ [.readData q 0xFFFFFFFF]

/-- A read of a served page returns the word in effect: zero at a reserved offset, PG_ID as the directory says; a low word latches the high one, which the
same requester's read of the high word returns, the reset value before any latch. A page that is not served reads all ones, an MSI-X page its own
word. An access that a register page does not take, and one of an unassigned page, reads all ones or is discarded, and is counted and logged; one that
an MSI-X page does not take changes nothing but a free value read, and in recovery no MSI-X page is served. None arrives over a link that carries no
traffic, and one over PCIe returns the link to L0 (R5, R12, R13, R272, R475, R490, R514, R549, R556, R557, R559).
What no rule states in it is the model's choice or reading: notes/assumptions/44.md and notes/assumptions/95.md. -/
def Obligations.RegisterReads : Prop :=
  (∀ (q : Requester) (off : BarOff) (b : Block) (i g : Nat) (s : State), Claims.reaches s q off b i g →
    let o := off.toNat % 0x1000
    let a := g * 0x1000 + o
    let u := Claims.touched s q
    let v : Word := BitVec.ofNat 32 (u.readWord q b i g o)
    (regAt b o = none → Does (.lowWordRead q off) s fun t => t = u.emit (.readData q (if b = .dir ∧ 0x108 ≤ o then v else 0))) ∧
    (o = 0 → Does (.lowWordRead q off) s fun t => t = u.emit (.readData q (BitVec.ofNat 32 (b.code * 2 ^ 24 + i * 2 ^ 8 + 1)))) ∧
    ∀ r : RegDesc, regAt b o = some r →
      (r.pairing = .single → Does (.lowWordRead q off) s fun t => t = u.emit (.readData q v)) ∧
      (r.pairing = .low → Does (.lowWordRead q off) s fun t =>
        t = { u with latch := t.latch, out := s.out ++ [.readData q v] } ∧
        ∀ k, SMap.get none t.latch k = if k = latchKey q a then some (BitVec.ofNat 32 (u.readWord q b i g (o + 4))) else SMap.get none s.latch k) ∧
      (r.pairing = .high →
        (∀ x, SMap.get none s.latch (latchKey q (a - 4)) = some x → Does (.lowWordRead q off) s fun t => t = u.emit (.readData q x)) ∧
        (SMap.get none s.latch (latchKey q (a - 4)) = none →
          Does (.lowWordRead q off) s fun t =>
            t = u.emit (.readData q (if b = .sec ∧ o = 0x108 then v else BitVec.ofNat 32 r.reset))))) ∧
  ∀ (q : Requester) (off : BarOff) (s : State),
    let u := Claims.touched s q
    (s.hears q = true →
      (∀ fn pba, msixPage q off.toNat = some (fn, pba) →
        (s.inRecovery = false →
          (Does (.lowWordRead q off) s fun t => t = u.emit (.readData q (BitVec.ofNat 32 (s.msixWord fn pba (off.toNat % 0x1000))))) ∧
          (Does (.regMisalignedAccess q off true) s fun t => t = u) ∧
          Does (.regMisalignedAccess q off false) s fun t => ∃ v, t = { u with freeCtr := t.freeCtr, out := s.out ++ [.readData q v] }) ∧
        (s.inRecovery = true → ∀ k ∈ [Instr.lowWordRead q off, .regMisalignedAccess q off false], Does k s fun t =>
          t.cores = s.cores ∧ t.table = s.table ∧ ∃ l, t.out = s.out ++ l ++ [.readData q 0xFFFFFFFF])) ∧
      (msixPage q off.toNat = none →
        Claims.refusedAccess (Instr.regMisalignedAccess q off) q off s ∧
        ((reqPage q off.toNat).bind pageBlock = none → Claims.refusedAccess (Instr.unassignedPageAccess q off) q off s) ∧
        ∀ b, off.toNat % 4 = 0 → ((reqPage q off.toNat).bind pageBlock).map (·.1) = some b → s.serves b = false →
          Does (.lowWordRead q off) s fun t => t.cores = s.cores ∧ t.table = s.table ∧ ∃ l, t.out = s.out ++ l ++ [.readData q 0xFFFFFFFF])) ∧
    (s.hears q = false →
      ∀ k ∈ [Instr.lowWordRead q off, .regMisalignedAccess q off true, .regMisalignedAccess q off false, .unassignedPageAccess q off true,
        .unassignedPageAccess q off false], Does k s fun t => t = s)

/-- The MSI-X function of a page (R550). -/
def Sys2Proof.Claims.fnOf (g : Nat) : Nat := if 16384 ≤ g then g - 16383 else pageFn g

/-- A write that leaves the enabled pending sources nonzero sends one message of the page's vector; any other sends none (R550). -/
def Sys2Proof.Claims.sentAgain (s t : State) (g : Nat) : Prop :=
  s.hostOpen = true → (SMap.get (msixDefault (4096 * Claims.fnOf g + 4 * t.rd PG_IRQ_VEC.VECTOR g + 3)) s.pcie.msix (4096 * Claims.fnOf g + 4 * t.rd PG_IRQ_VEC.VECTOR g + 3)).toNat % 2 = 0 →
    t.out = s.out ++ (if t.irqActive g = true then [.msix (Claims.fnOf g) (t.rd PG_IRQ_VEC.VECTOR g)] else [])

/-- Writes of the common header: PG_IRQ_STS clears the bits written 1, PG_IRQ_EN takes the implemented ones, PG_CTL takes IRQ_ON, ERR_CLR clears the counts
(R549, R550, R552); PG_PTB_CTL is refused without a grant, and with one starts or ends the page's perturbation; an edge of the debug trigger starts
those armed for it and no other (R543, R545, R548).
What no rule states in it is the model's choice or reading: notes/assumptions/98.md. -/
def Obligations.CommonHeader : Prop :=
  (∀ (q : Requester) (off : BarOff) (v : Word) (b : Block) (i g : Nat) (s : State), Claims.reaches s q off b i g →
    (off.toNat % 0x1000 = 0x014 → Does (.pgIrqWrite q off v) s fun t =>
      t.rd PG_IRQ_STS.SOURCES g = s.rd PG_IRQ_STS.SOURCES g - (s.rd PG_IRQ_STS.SOURCES g &&& v.toNat % 2 ^ 16) ∧
      t.rd PG_IRQ_EN.SOURCES g = s.rd PG_IRQ_EN.SOURCES g ∧ t.cores = s.cores ∧ Claims.sentAgain s t g) ∧
    (off.toNat % 0x1000 = 0x018 → Does (.pgIrqWrite q off v) s fun t =>
      t.rd PG_IRQ_EN.SOURCES g = v.toNat % 2 ^ 16 &&& b.irqBits ∧ t.rd PG_IRQ_STS.SOURCES g = s.rd PG_IRQ_STS.SOURCES g ∧ t.cores = s.cores ∧
      Claims.sentAgain s t g) ∧
    (off.toNat % 0x1000 = 0x00C → v.getLsbD 1 = false → Does (.pgIrqWrite q off v) s fun t =>
      t.rd PG_CTL.IRQ_ON g = v.toNat % 2 ∧ t.rd PG_ERR_CNT.COUNT g = s.rd PG_ERR_CNT.COUNT g ∧ t.cores = s.cores ∧ Claims.sentAgain s t g) ∧
    (off.toNat % 0x1000 = 0x00C → Does (.errClr q off v) s fun t =>
      t.rd PG_ERR_CNT.COUNT g = 0 ∧ t.rd PG_ERR_CNT.INJECTED g = 0 ∧ t.rd64 PG_ERR_FIRST_LO.SEQ g = 0 ∧ t.cores = s.cores) ∧
    (off.toNat % 0x1000 = 0x040 → b.hasPtb = false → Does (.ptbCtlWrite q off v) s fun t => t = Claims.touched s q) ∧
    (off.toNat % 0x1000 = 0x040 → b.hasPtb = true →
      (s.mayPerturb = false → Does (.ptbCtlWrite q off v) s fun t => Claims.onlyRegs (Claims.touched s q) t ∧ Claims.conflictShows t g 0x040 Err.PTB_LOCKED) ∧
      (s.mayPerturb = true → bitsN v.toNat 30 29 = 2 → (s.pair.member ≠ .outside ∨ s.pins.syncOk = true) →
        Does (.ptbCtlWrite q off v) s fun t => Claims.onlyRegs (Claims.touched s q) t ∧ Claims.conflictShows t g 0x040 Err.TRIG_LAND) ∧
      (s.mayPerturb = true → bitsN v.toNat 30 29 ≠ 2 → v.getLsbD 31 = false →
        Does (.ptbCtlWrite q off v) s fun t => t.rd PG_PTB_CTL.ENABLE g = 0 ∧ t.rd PG_PTB_STS.ACTIVE g = 0 ∧ t.cores = s.cores) ∧
      (s.mayPerturb = true → bitsN v.toNat 30 29 = 0 → v.getLsbD 31 = true → s.on PG_PTB_STS.ACTIVE g = false →
        Does (.ptbCtlWrite q off v) s fun t =>
          t.rd PG_PTB_CTL.ENABLE g = 1 ∧ t.rd PG_PTB_STS.ACTIVE g = 1 ∧ t.rd PG_PTB_STS.LEFT g = s.rd PG_PTB_INJ.COUNT g ∧
          t.rd PG_PTB_CTL.TARGET g = v.toNat % 2 ^ 16 &&& b.ptbPoints ∧ t.cores = s.cores) ∧
      (s.mayPerturb = true → (bitsN v.toNat 30 29 = 1 ∨ (bitsN v.toNat 30 29 = 2 ∧ s.pair.member = .outside ∧ s.pins.syncOk = false)) →
        v.getLsbD 31 = true → Does (.ptbCtlWrite q off v) s fun t =>
          t.rd PG_PTB_CTL.ENABLE g = 1 ∧ t.rd PG_PTB_CTL.TRIGGER g = bitsN v.toNat 30 29 ∧ t.rd PG_PTB_STS.ACTIVE g = s.rd PG_PTB_STS.ACTIVE g ∧
          t.rd PG_PTB_CTL.TARGET g = v.toNat % 2 ^ 16 &&& b.ptbPoints ∧ t.cores = s.cores))) ∧
  ∀ s : State, Does .dbgTrigEdge s fun t =>
    t = { s with regs := t.regs, ptbSteps := t.ptbSteps } ∧
    ∀ g, (g ∈ s.ptbPages → s.rd PG_PTB_CTL.TRIGGER g = 2 →
        t.rd PG_PTB_STS.ACTIVE g = 1 ∧ (s.on PG_PTB_STS.ACTIVE g = false → t.rd PG_PTB_STS.LEFT g = s.rd PG_PTB_INJ.COUNT g)) ∧
      ((g ∉ s.ptbPages ∨ s.rd PG_PTB_CTL.TRIGGER g ≠ 2) → t.rd PG_PTB_STS.ACTIVE g = s.rd PG_PTB_STS.ACTIVE g)

/-- CEL_PROBE shows the hash of R361 for the address written and whether it is mapped; MGT_LOG_SEL_HI holds the selected record as it stands; the records
logged for flash are appended to its last 16,384 (R361, R379, R482, R483).
What no rule states in it is the model's choice or reading: notes/assumptions/97.md. -/
def Obligations.ProbesAndLog : Prop :=
  (∀ (q : Requester) (v : Word) (s : State), s.takes q .cel = true →
    ∀ lo, lo = Claims.lowHalf s q ⟨0x11C, 0, 1, .high, [⟨31, 0, .rw, 0x0, .any⟩]⟩ CEL_PROBE_HI.WORD.base →
      let a := 2 ^ 32 * v.toNat + lo
      Does (.celProbeWrite q v) s fun t =>
        t = { Claims.touched s q with regs := t.regs, heldLow := t.heldLow } ∧ t.rd CEL_PROBE_RES.STACK = (celHash a).1 ∧ t.rd CEL_PROBE_RES.PC = (celHash a).2.1 ∧
        t.rd CEL_PROBE_RES.PLANE = (celHash a).2.2.1 ∧ t.rd CEL_PROBE_RES.VALID = if a < s.cellarBytes then 1 else 0) ∧
  (∀ (q : Requester) (v : Word) (s : State), s.takes q .mgt = true →
    let n := s.rd MGT_LOG_SEL_LO.SEQ + 2 ^ 32 * v.toNat
    (∀ r, s.mgmt.log.find? (fun r => decide (r.seq = n)) = some r →
      Does (.mgtLogSelHiWrite q v) s fun t =>
        t = { Claims.touched s q with regs := t.regs, mgmt := { s.mgmt with selected := r.bytes } } ∧ t.rd MGT_LOG_STS.VALID = 1 ∧
        ∀ q k, k < 16 → t.readWord q .mgt 0 2 (0x140 + 4 * k) = fieldAt r.bytes (4 * k) 4) ∧
    ((∀ r ∈ s.mgmt.log, r.seq ≠ n) →
      Does (.mgtLogSelHiWrite q v) s fun t =>
        t = { Claims.touched s q with regs := t.regs, freeCtr := t.freeCtr, mgmt := { s.mgmt with selected := t.mgmt.selected } } ∧ t.rd MGT_LOG_STS.VALID = 0)) ∧
  ∀ s : State, Does .logFlashAppend s fun t =>
    t = { s with kept := t.kept } ∧ t.kept.flashPending = [] ∧
    t.kept.flashLog = (s.kept.flashLog ++ s.kept.flashPending).drop ((s.kept.flashLog ++ s.kept.flashPending).length - 16384) ∧
    t.kept = { s.kept with flashLog := t.kept.flashLog, flashPending := [] }

/-! Rack time (R438 to R440). -/

/-- The source of the PAIR page that reports the rack reference (R551). -/
def Sys2Proof.Claims.pairIrq2 (t : State) : Prop := t.rd PG_IRQ_STS.SOURCES (Block.pair.page 0) / 4 % 2 = 1

/-- ARM is accepted OUTSIDE alone; an armed FRAME_SYNC edge loads T; any other corrects rack time by more than 20 ns to the nearest millisecond, forward at
once and backward by holding the count; a load leaves how long the running image has run; losing either reference changes no time (R439, R440, R495).
What no rule states in it is the model's choice or reading: notes/assumptions/34.md and notes/assumptions/35.md. -/
def Obligations.RackTime : Prop :=
  (∀ (q : Requester) (s : State), s.takes q .pair = true →
    (s.pair.member = .outside → Does (.arm q) s fun t => Claims.onlyRegs (Claims.touched s q) t ∧ t.rd PAIR_RTIME_CTL.ARM = 1 ∧ t.rd PAIR_RTIME_CTL.SLIPS = s.rd PAIR_RTIME_CTL.SLIPS) ∧
    (s.pair.member ≠ .outside →
      Does (.arm q) s fun t => Claims.onlyRegs (Claims.touched s q) t ∧ Claims.conflictShows t 7 0x118 Err.RTIME_LIVE ∧ t.rd PAIR_RTIME_CTL.ARM = s.rd PAIR_RTIME_CTL.ARM)) ∧
  (∀ s : State, s.pair.formReady = false →
    (s.on PAIR_RTIME_CTL.ARM = true → s.pair.member = .outside →
      Does .frameSyncEdge s fun t =>
        t.rackTime = s.rd64 PAIR_RTIME_SET_LO.TIME ∧ t.heldBack = 0 ∧ t.rd PAIR_RTIME_CTL.ARM = 0 ∧ t.power.lastKick = t.rackTime ∧ t.pins.syncOk = true ∧
        (t.rackTime : Int) - t.mgmt.bootAt = s.rackTime - s.mgmt.bootAt ∧ t.table = s.table ∧ t.cellar = s.cellar) ∧
    ((s.on PAIR_RTIME_CTL.ARM = false ∨ s.pair.member ≠ .outside) → s.heldBack = 0 →
      let m := (s.rackTime + 500000) / 1000000 * 1000000
      Does .frameSyncEdge s fun t =>
        t.pins.syncOk = true ∧ t.cores = s.cores ∧ t.step = s.step ∧
        (if s.rackTime ≤ m + 20 ∧ m ≤ s.rackTime + 20 then
          t.rackTime = s.rackTime ∧ t.heldBack = 0 ∧ t.rd PAIR_RTIME_CTL.SLIPS = s.rd PAIR_RTIME_CTL.SLIPS
        else
          t.rackTime = max m s.rackTime ∧ t.heldBack = s.rackTime - m ∧ t.rtimeSeen = true ∧
          t.rd PAIR_RTIME_CTL.SLIPS = if s.rtimeSeen = true then min (s.rd PAIR_RTIME_CTL.SLIPS + 1) 0xFFFF else s.rd PAIR_RTIME_CTL.SLIPS))) ∧
  ∀ s : State,
    (Does .frameSyncLost s fun t => t.pins = { s.pins with syncOk := false, missedSync := 3 } ∧ t.rackTime = s.rackTime ∧ t.cores = s.cores ∧ Claims.pairIrq2 t) ∧
    (Does .refclkLost s fun t => t.pins = { s.pins with refclkOk := false } ∧ t.rackTime = s.rackTime ∧ t.cores = s.cores ∧ Claims.pairIrq2 t) ∧
    Does .refclkRestored s fun t => t = { s with pins := { s.pins with refclkOk := true } }

/-! Power (R447 to R468). -/

/-- Work is as it was: no core, sequence, cellar byte, step or model slot differs. -/
def Sys2Proof.Claims.workKept (s t : State) : Prop :=
  t.cores = s.cores ∧ t.table = s.table ∧ t.kv = s.kv ∧ t.cellar = s.cellar ∧ t.step = s.step ∧ t.slots = s.slots ∧ t.porches = s.porches ∧
    t.pair = s.pair ∧ t.kept.wear = s.kept.wear ∧ t.rackTime = s.rackTime

/-- A brake action of `b` has begun with a target of `w` watts (R459): it counts, and P_allow is at or below the target and its old value. -/
def Sys2Proof.Claims.braked (s t : State) (b : BrakeSrc) (w : Nat) : Prop :=
  t.power.brakes = (if b ∈ s.power.brakes then s.power.brakes else s.power.brakes ++ [b]) ∧ t.rd PWR_CAP_STS.BRAKED = 1 ∧ t.rd PWR_BRAKE.COUNT = min (s.rd PWR_BRAKE.COUNT + 1) 0xFFFF ∧
    t.power.pAllow ≤ w ∧ t.power.pAllow ≤ s.power.pAllow

/-- Source `b` has released its own hold, and no other (R460). -/
def Sys2Proof.Claims.unbraked (s t : State) (b : BrakeSrc) : Prop :=
  (∀ x, x ∈ t.power.brakes ↔ x ∈ s.power.brakes ∧ x ≠ b) ∧ (t.rd PWR_CAP_STS.BRAKED = 1 ↔ ∃ x ∈ s.power.brakes, x ≠ b) ∧
    t.power.pAllow = s.power.pAllow

/-- The lag of a cap of `w` watts at a draw of `d`, in 0.1 µs (R456). -/
def Sys2Proof.Claims.lagOf (d w : Nat) : Nat := (d - w) * 10 / 300

/-- Under a cap of `w` watts just made lower: the lag shows, and beyond the limit, at 30 W for each 0.1 µs, the brake bridges it, once more for each such cap (R456,
R457). -/
def Sys2Proof.Claims.lowered (s t : State) (w : Nat) : Prop :=
  let lag := Claims.lagOf s.power.draw w
  let limit := s.rd PWR_CAP_CTL.LAG_LIMIT_US
  let beyond := 300 * limit < s.power.draw - w ∨ limit = 0
  t.rd PWR_CAP_STS.LAG = min lag 0xFFFF ∧ (t.rd PWR_CAP_STS.LAGGING = 1 ↔ w < s.power.draw) ∧
    (¬ beyond → t.power.brakes = s.power.brakes ∧ t.power.pAllow = s.power.pAllow ∧ t.rd PWR_BRAKE.COUNT = s.rd PWR_BRAKE.COUNT) ∧
    (beyond → Claims.braked s t .bridge w ∧ t.rd PWR_EVT.CAP_LAG = 1)

/-- Caps and brakes: a cap of 400 to 2,800 W takes effect at once and ends the safe cap, and any other leaves everything; a lower one is bridged beyond
the lag limit; 5 s without a kick put the safe cap in force; each brake source brings P_allow to its target, changes no step and no state, and releases
its own hold alone (R456 to R460).
What no rule states in it is the model's choice or reading: notes/assumptions/32.md and notes/assumptions/87.md. -/
def Obligations.CapsAndBrakes : Prop :=
  (∀ (q : Requester) (v : Word) (s : State), s.takes q .pwr = true →
    let w := v.toNat % 2 ^ 12
    ((w < 400 ∨ 2800 < w) → Does (.pwrCapWrite q v) s fun t => t = Claims.touched s q) ∧
    (400 ≤ w → w ≤ 2800 → Does (.pwrCapWrite q v) s fun t =>
      t.rd PWR_CAP.CAP_W = w ∧ t.rd PWR_CAP_STS.SAFE = 0 ∧ t.capNow = w ∧ Claims.workKept s t ∧
      (s.capNow ≤ w → Claims.onlyRegs (Claims.touched s q) t ∧ Claims.keepsWords s t fun a => a = PWR_CAP.WORD.base ∨ a = PWR_CAP_STS.WORD.base) ∧
      (w < s.capNow → Claims.lowered s t w))) ∧
  (∀ (q : Requester) (s : State), s.takes q .pwr = true →
    Does (.kick q) s fun t => t = { Claims.touched s q with power := { s.power with lastKick := s.rackTime, hbLost := false } }) ∧
  (∀ s : State,
    let safe := s.rd PWR_CAP_CTL.SAFE_CAP_W
    ((s.on PWR_CAP_CTL.HB_EN = false ∨ s.rackTime < s.power.lastKick + 5000000000) → Does .hbLost s fun t => t = s) ∧
    (s.on PWR_CAP_CTL.HB_EN = true → s.power.hbLost = false → s.power.lastKick + 5000000000 ≤ s.rackTime → Does .hbLost s fun t =>
      t.rd PWR_CAP_STS.SAFE = 1 ∧ t.rd PWR_EVT.HB_LOST = 1 ∧ t.rd PWR_CAP.CAP_W = s.rd PWR_CAP.CAP_W ∧ t.capNow = safe ∧ Claims.workKept s t ∧
      (safe < s.capNow → Claims.lowered s t safe))) ∧
  ∀ s : State,
    (Does .brakeAssert s fun t =>
      Claims.workKept s t ∧ t.power.brakeN = true ∧ t.rd PWR_EVT.BRAKE = 1 ∧
      (.brakeN ∉ s.power.brakes → Claims.braked s t .brakeN (s.capNow * 25 / 100))) ∧
    (Does .pwrWarnAssert s fun t =>
      Claims.workKept s t ∧ t.power.warnN = true ∧ t.rd PWR_EVT.WARN = 1 ∧
      (.warnN ∉ s.power.brakes → Claims.braked s t .warnN (s.capNow * s.rd PWR_BRAKE.PRESET_PCT / 100))) ∧
    (Does .brakeRelease s fun t => Claims.workKept s t ∧ t.power.brakeN = false ∧ Claims.unbraked s t .brakeN) ∧
    Does .pwrWarnRelease s fun t => Claims.workKept s t ∧ t.power.warnN = false ∧ Claims.unbraked s t .warnN

/-- Point `m` fits a cap for demand `k` of the rails and `o` of the rest at the present point (R454): o + k × f(m) ÷ f(present) ≤ cap, cleared of its
divisions. `asked` and `granted` are the issue tokens of the millisecond, and the draws are sums over `n` samples. -/
def Sys2Proof.Claims.pointFits (cap n o k asked granted point m : Nat) : Prop :=
  o * granted * opF.getD point 1 + k * asked * opF.getD m 0 ≤ cap * n * granted * opF.getD point 1

/-- The point and the damper: a class leaves 2 µs after its cause; a move ends when the rail has the target's voltage, and POINT is the target of R451, which is the default point with no class active
and the held point in pace-locked mode, under both ceilings; P_allow moves at the slopes of R452 toward its ceiling and budgets are equal in the four
wings; that ceiling exceeds the cap in an excursion alone, and by a seventh at most; a correction meters 10 µs of draw and ends a bridge; C_cap is the highest point whose predicted draw fits; a pace no point reaches is refused;
the thermal ceiling moves one point at a time (R447, R450 to R454, R457, R461, R462, R467, R476).
What no rule states in it is the model's choice or reading: notes/assumptions/32.md and notes/assumptions/59.md. -/
def Obligations.PointsAndDamper : Prop :=
  (∀ s : State, Does .phaseClassExpire s fun t =>
    Claims.workKept s t ∧ ∀ e, e ∈ t.power.phases ↔ e ∈ s.power.phases ∧ s.rackTime + 1 ≤ e.2 + 2000) ∧
  (∀ s : State, (s.railsHeld = false ∨ s.power.rail ≠ 10 * opMv.getD s.targetOp 0) → Does .railMoveComplete s fun t => t = s) ∧
  (∀ s : State, s.railsHeld = true → s.power.rail = 10 * opMv.getD s.targetOp 0 → Does .railMoveComplete s fun t =>
    Claims.workKept s t ∧ t.rd PWR_OP_STS.POINT = s.targetOp ∧ t.power.rail = s.power.rail ∧
    t.rd PWR_OP_STS.POINT ≤ s.rd PWR_OP_STS.C_CAP ∧ t.rd PWR_OP_STS.POINT ≤ s.rd PWR_OP_STS.C_THM ∧
    (s.on PWR_PACE.ENABLE = true →
      t.rd PWR_OP_STS.POINT = min (s.rd PWR_PACE.HELD_OP) (min (s.rd PWR_OP_STS.C_CAP) (s.rd PWR_OP_STS.C_THM))) ∧
    (s.on PWR_PACE.ENABLE = false → (∀ n < 7, s.on PWR_PHASEn.ENABLE 0 n = true → s.phaseActive n = false) →
      t.rd PWR_OP_STS.POINT = min (s.rd PWR_OP_CTL.DEFAULT_OP) (min (s.rd PWR_OP_STS.C_CAP) (s.rd PWR_OP_STS.C_THM))) ∧
    (s.on PWR_PACE.ENABLE = false → ∀ n < 7, s.on PWR_PHASEn.ENABLE 0 n = true → s.phaseActive n = true →
      min (s.rd PWR_PHASEn.OP 0 n) (min (s.rd PWR_OP_STS.C_CAP) (s.rd PWR_OP_STS.C_THM)) ≤ t.rd PWR_OP_STS.POINT)) ∧
  (∀ s : State, Does .damperTokenGrant s fun t =>
    t = { s with power := { s.power with pAllow := t.power.pAllow, budget := t.power.budget } } ∧
    t.power.pAllow ≤ max s.power.pAllow s.allowCeiling ∧ s.allowCeiling ≤ s.capNow * 8 / 7 ∧
    ((s.on PWR_CAP_CTL.EXC_EN = false ∨ s.power.brakes ≠ []) → s.allowCeiling ≤ s.capNow) ∧ t.power.pAllow ≤ s.power.pAllow + 15 ∧ s.power.pAllow ≤ t.power.pAllow + 30 ∧
    (s.power.pAllow ≤ s.allowCeiling + 30 → t.power.pAllow ≤ s.allowCeiling) ∧
    ∀ w < 4, SMap.get 0 t.power.budget w = SMap.get 0 t.power.budget 0) ∧
  (∀ (draw core mv : Nat) (s : State), Does (.damperCorrection draw core mv) s fun t =>
    Claims.workKept s t ∧ t.power.draw = draw ∧ t.power.coreDraw = core ∧ t.rd PWR_DRAW.NOW = min draw 0xFFFF ∧
    t.rd PWR_INPUT.MV = min (mv / 2) 0xFFFF ∧ t.rd PWR_INPUT.MA = min (draw * 1000000 / mv) 0xFFFF ∧
    t.rd64 PWR_ENERGY_LO.MJ = (s.rd64 PWR_ENERGY_LO.MJ + (s.power.energyRest + 10 * draw) / 1000) % 2 ^ 64 ∧
    (draw ≤ s.capNow → t.rd PWR_CAP_STS.LAGGING = 0 ∧ Claims.unbraked s t .bridge)) ∧
  (∀ s : State, s.power.sumCore ≤ s.power.sumDraw → s.rd PWR_OP_STS.POINT < 16 → 0 < s.power.asked → Does .capCeilingUpdate s fun t =>
    let fits := Claims.pointFits s.capNow s.power.samples (s.power.sumDraw - s.power.sumCore) s.power.sumCore s.power.asked s.power.granted (s.rd PWR_OP_STS.POINT)
    let c := t.rd PWR_OP_STS.C_CAP
    Claims.workKept s t ∧ (fits c ∨ (c = 0 ∧ ∀ m < 16, ¬ fits m)) ∧ (∀ m, c < m → m < 16 → ¬ fits m) ∧ t.power.sumDraw = 0 ∧ t.power.sumCore = 0 ∧
    t.power.samples = 0 ∧ t.power.asked = 0 ∧ t.power.granted = 0) ∧
  (∀ (q : Requester) (v : Word) (s : State), s.takes q .pwr = true →
    let rate := v.toNat % 2 ^ 12
    let tail := v.toNat / 2 ^ 12 % 2 ^ 12
    (1980 < rate → rate ≤ 2000 → v.getLsbD 31 = true →
      Does (.pwrPaceWrite q v) s fun t => Claims.onlyRegs (Claims.touched s q) t ∧ Claims.conflictShows t 4 0x128 Err.PACE_RANGE ∧ t.rd PWR_PACE.WORD = s.rd PWR_PACE.WORD) ∧
    (500 ≤ rate → rate ≤ 1980 → 500 ≤ tail → tail ≤ 2300 → v.getLsbD 31 = true → Does (.pwrPaceWrite q v) s fun t =>
      Claims.workKept s t ∧ t.rd PWR_PACE.ENABLE = 1 ∧ t.rd PWR_PACE.RATE_MHZ = rate ∧ t.rd PWR_PACE.TAIL_MHZ = tail ∧
      (∀ p, p = t.rd PWR_PACE.HELD_OP → p < 16 ∧ rate ≤ opPace.getD p 0 ∧ ∀ m < p, opPace.getD m 0 < rate) ∧
      ∀ k, k = t.rd PWR_PACE.HELD_KP → k < 4 ∧ 10 * tail ≤ 9 * kpRate.getD k 0 ∧ ∀ m < k, 9 * kpRate.getD m 0 < 10 * tail) ∧
    ((rate < 500 ∨ 2000 < rate) → v.getLsbD 31 = false → Does (.pwrPaceWrite q v) s fun t =>
      Claims.workKept s t ∧ t.rd PWR_PACE.ENABLE = 0 ∧ t.rd PWR_PACE.RATE_MHZ = s.rd PWR_PACE.RATE_MHZ)) ∧
  ∀ s : State, s.rd PWR_OP_STS.C_THM < 16 → Does .throttleStep s fun t =>
    Claims.workKept s t ∧
    t.rd PWR_OP_STS.C_THM =
      if 0 < s.rd THM_STS.LEVEL then (if 760 ≤ s.governing then s.rd PWR_OP_STS.C_THM - 1 else s.rd PWR_OP_STS.C_THM)
      else min 15 (s.rd PWR_OP_STS.C_THM + 1)

/-- The package has fallen unpowered (R465): issue and work are gone, the ledger is saved and the flash and fuses keep what they hold. -/
def Sys2Proof.Claims.fellDark (s t : State) : Prop :=
  t.power.powered = false ∧ t.cores = [] ∧ t.cellar = [] ∧ t.kept.wearSaved = s.kept.wear ∧ t.kept.wear = s.kept.wear ∧ t.kept.serial = s.kept.serial ∧
    t.kept.orderingA = s.kept.orderingA ∧ t.kept.svnMin = s.kept.svnMin

/-- Droop, input and temperature: a rail below 0.50 V stops issue on it and hands the work over; a low input brakes and releases; an input outside 50 V to 70 V, or the mate contacts parting,
records its loss in flash and falls unpowered; an invalid sensor counts as 95 °C; a reading at 105 °C takes the HARD ceiling and at 115 °C trips to
Smoored; a tripped package rises after 60 s of cool sensors and not before (R464 to R468, R570).
What no rule states in it is the model's choice or reading: notes/assumptions/37.md, notes/assumptions/104.md and notes/assumptions/106.md. -/
def Obligations.LimitsAndTemperature : Prop :=
  (∀ (r : Rail) (mv : Nat) (s : State),
    ((500 ≤ mv ∨ (s.resting = true ∧ r ≠ .hall)) → Does (.railUndervolt r mv) s fun t => t = s) ∧
    (mv < 500 → (s.resting = false ∨ r = .hall) → Does (.railUndervolt r mv) s fun t =>
      r ∈ t.power.railCut ∧ (∀ x ∈ s.power.railCut, x ∈ t.power.railCut) ∧ t.rd PWR_EVT.RAIL_UV = 1 ∧ t.kept.wear = s.kept.wear ∧ t.cellar = s.cellar ∧ t.table = s.table ∧
      (s.pair.member = .paired → t.pair.member = .out ∧ t.step.active = false) ∧ (s.pair.member = .outside → t.pair = s.pair))) ∧
  (∀ (mv : Nat) (s : State),
    (56000 ≤ mv → Does (.inputUv mv) s fun t => t = s) ∧
    (mv < 56000 → Does (.inputUv mv) s fun t =>
      Claims.workKept s t ∧ t.power.inputUv = true ∧ t.rd PWR_INPUT.MV = mv / 2 ∧ t.rd PWR_EVT.INPUT_UV = 1 ∧
      (.inputUv ∉ s.power.brakes → Claims.braked s t .inputUv (s.capNow * s.rd PWR_BRAKE.PRESET_PCT / 100)))) ∧
  (∀ s : State, Does .inputUvRelease s fun t => Claims.workKept s t ∧ t.power.inputUv = false ∧ Claims.unbraked s t .inputUv) ∧
  (∀ (mv : Nat) (s : State),
    (50000 ≤ mv → mv ≤ 70000 → Does (.inputCut mv) s fun t => t = s) ∧
    ((mv < 50000 ∨ 70000 < mv) → Does (.inputCut mv) s fun t =>
      Claims.fellDark s t ∧ ∃ r, t.kept.flashLog.getLast? = some r ∧ r.code = Err.INPUT_CUT)) ∧
  (∀ s : State, Does .mateDetBreak s fun t => Claims.fellDark s t ∧ t.pins.mated = false) ∧
  (∀ (n : Fin 72) (x : Int) (s : State), -320 ≤ x → x ≤ 1200 → s.rd THM_STS.LEVEL = 0 → s.power.badSensors = [] →
    (∀ e ∈ s.power.temps, ∀ r, e.2 = some r → r ≤ x) →
    (x < 760 → Does (.sensorRead n (some x)) s fun t =>
      Claims.workKept s t ∧ t.rd THM_STS.LEVEL = 0 ∧ t.rd PWR_OP_STS.C_THM = s.rd PWR_OP_STS.C_THM ∧ t.power.brakes = s.power.brakes ∧
      t.rd THM_SENSORn.VALID 0 n.val = 1 ∧ t.rd THM_SENSORn.TJ 0 n.val = (x % 4096).toNat) ∧
    (760 ≤ x → x < 840 → Does (.sensorRead n (some x)) s fun t =>
      Claims.workKept s t ∧ t.rd THM_STS.LEVEL = 1 ∧ t.rd PWR_OP_STS.C_THM = min (s.rd PWR_OP_STS.POINT) s.targetOp - 1 ∧
      t.rd THM_COUNTS.THROTTLE = min (s.rd THM_COUNTS.THROTTLE + 1) 0xFFFF ∧ t.power.brakes = s.power.brakes) ∧
    (840 ≤ x → x < 920 → Does (.sensorRead n (some x)) s fun t =>
      Claims.workKept s t ∧ t.rd THM_STS.LEVEL = 2 ∧ t.rd PWR_OP_STS.C_THM = 0 ∧
      (.hard ∉ s.power.brakes → Claims.braked s t .hard (s.capNow * 50 / 100))) ∧
    (920 ≤ x → Does (.sensorRead n (some x)) s fun t =>
      t.power.fire = .smoored ∧ t.power.issueCut = true ∧ t.power.tripped = true ∧ t.cores = [] ∧ t.kept.wearSaved = s.kept.wear)) ∧
  (∀ (n : Fin 72) (s : State), n.val ∉ s.power.badSensors → s.rd THM_STS.LEVEL = 0 → (∀ e ∈ s.power.temps, ∀ r, e.2 = some r → r < 920) →
    Does (.sensorRead n none) s fun t =>
      Claims.workKept s t ∧ t.power.badSensors = s.power.badSensors ++ [n.val] ∧ t.rd THM_SENSORn.VALID 0 n.val = 0 ∧ 1 ≤ t.rd THM_STS.LEVEL ∧
      t.rd THM_FAULTS.SENSOR = min (s.rd THM_FAULTS.SENSOR + 1) 0xFFFF ∧ t.rd THM_FAULTS.TRIPS = s.rd THM_FAULTS.TRIPS) ∧
  ∀ s : State,
    ((s.power.coolFrom = none ∨ s.power.tripped = false ∨ s.power.fire ≠ .smoored) → Does .tripRecover s fun t => t = s) ∧
    ∀ c, s.power.coolFrom = some c → s.power.tripped = true → s.power.fire = .smoored →
      (s.rackTime < c + 60000000000 → Does .tripRecover s fun t => t = s) ∧
      (c + 60000000000 ≤ s.rackTime → Does .tripRecover s fun t =>
        t.power.tripped = false ∧ t.power.fire ≠ .smoored ∧ t.rd THM_STS.LEVEL = 0 ∧ .hard ∉ t.power.brakes ∧ t.kept.wear = s.kept.wear ∧ t.rackTime = s.rackTime)

/-! The fire states (R469 to R474). -/

/-- The package has risen from Ember or Banked to Glow with a cause, its rest cancelled (R470 to R472, R476). -/
def Sys2Proof.Claims.woke (s t : State) (cause : Nat) : Prop :=
  t.power.fire = .glow ∧ t.rd PWR_STATE_STS.LAST_WAKE = cause ∧ t.rd PWR_STATE_STS.WAKES = min (s.rd PWR_STATE_STS.WAKES + 1) 0xFFFF ∧
    t.power.restEntry = none ∧ t.power.restBanked = none ∧ t.cellar = s.cellar ∧ t.table = s.table ∧ t.rackTime = s.rackTime ∧
    (s.power.fire = .ember → t.cores = s.cores)

/-- The package entered a lighter state alone: work and memories are as they were (R469). -/
def Sys2Proof.Claims.enteredFire (s t : State) (f : Fire) : Prop :=
  t.power.fire = f ∧ t.power.since = s.rackTime ∧ t.rd PWR_EVT.STATE = 1 ∧ t.cores = s.cores ∧ t.cellar = s.cellar ∧ t.table = s.table ∧ t.kv = s.kv ∧
    t.step = s.step ∧ t.wings = s.wings

/-- The package entered Banked: local stores, instruction memories and table slots are dropped, the cellar and the hall's state are kept (R469). -/
def Sys2Proof.Claims.enteredBanked (s t : State) : Prop :=
  t.power.fire = .banked ∧ t.cellar = s.cellar ∧ t.table = s.table ∧ t.rings = s.rings ∧ t.slots = s.slots ∧ t.step = s.step ∧
    t.porches = (SMap.mapVals Porch.reset (fun _ q => { q with tornFrom := none }) s.porches) ∧ t.kv = { s.kv with slots := [] } ∧ (∀ e ∈ t.cores, e.2.ls = [] ∧ e.2.imem = []) ∧ ∀ w n, SMap.get TableSlot.reset (t.wing w).tables n = TableSlot.reset

/-- The package entered Smoored: the cellar, the cores and the table are lost, the ledger is saved, and the flash is kept (R470, R474). -/
def Sys2Proof.Claims.enteredSmoored (s t : State) : Prop :=
  t.power.fire = .smoored ∧ t.cellar = [] ∧ t.cores = [] ∧ t.table = [] ∧ t.slots = [] ∧ t.kept.wear = s.kept.wear ∧ t.kept.wearSaved = s.kept.wear ∧
    t.rackTime = s.rackTime ∧ (s.pair.member = .out → t.pair.member = .out ∧ t.pair.members = s.pair.members) ∧ (s.pair.member ≠ .out → t.pair.member = .outside)

/-- The triggers of the power states, each acting in the state that it leaves and in no other: idle time outside a household, REST at its entry times, work due,
the wakes, WAKE and SMOOR; a SMOOR in a serving state is refused; no idle or REST entry goes below FLOOR (R469 to R474, R476).
What no rule states in it is the model's choice or reading: notes/assumptions/39.md and notes/assumptions/103.md. -/
def Obligations.FireStates : Prop :=
  (∀ s : State,
    let idle := s.rackTime - s.power.idleSince
    let floor := s.rd PWR_STATE_CTL.FLOOR
    (s.power.fire = .burning → s.step.active = false → s.gatedBusy = false → 1 ≤ floor → 1000 * s.rd PWR_STATE_CTL.GLOW_US ≤ idle → s.power.idleSince ≤ s.rackTime →
      Does .glowEntry s fun t => Claims.enteredFire s t .glow) ∧
    ((s.power.fire ≠ .burning ∨ s.step.active = true ∨ s.gatedBusy = true ∨ floor = 0 ∨ s.rackTime < s.power.idleSince + 1000 * s.rd PWR_STATE_CTL.GLOW_US) →
      Does .glowEntry s fun t => t = s) ∧
    (s.power.fire = .glow → (s.pair.member = .outside ∨ s.pair.member = .out) → s.pair.goAt = none → 2 ≤ floor →
      s.power.idleSince + 1000000 * s.rd PWR_STATE_CTL.EMBER_MS ≤ s.rackTime → Does .emberIdleEntry s fun t => Claims.enteredFire s t .ember) ∧
    ((floor < 2 ∨ (s.pair.member ≠ .outside ∧ s.pair.member ≠ .out)) → Does .emberIdleEntry s fun t => t = s) ∧
    (s.power.fire = .ember → (s.pair.member = .outside ∨ s.pair.member = .out) → s.pair.goAt = none → floor = 3 →
      s.power.since + 1000000000 * s.rd PWR_STATE_CTL.BANKED_S ≤ s.rackTime → Does .bankedIdleEntry s fun t => Claims.enteredBanked s t) ∧
    ((floor ≠ 3 ∨ (s.pair.member ≠ .outside ∧ s.pair.member ≠ .out)) → Does .bankedIdleEntry s fun t => t = s) ∧
    (s.power.fire = .glow → Does .workDueWake s fun t => Claims.enteredFire s t .burning) ∧
    ((s.power.fire = .ember ∨ s.power.fire = .banked) → Does .workDueWake s fun t => Claims.woke s t 7) ∧
    ((s.power.fire = .ember ∨ s.power.fire = .banked) → Does .wakeNFall s fun t => Claims.woke s t 2) ∧
    (s.power.fire ≠ .ember → s.power.fire ≠ .banked → Does .wakeNFall s fun t => t = s)) ∧
  (∀ (frm : PkgId) (floor : BitVec 3) (idle : Bool) (s : State), (frm ∉ s.serving ∨ s.leader ≠ s.me) →
    Does (.idleReport frm floor idle) s fun t => t = s) ∧
  (∀ (frm : PkgId) (floor : BitVec 3) (s : State), frm ∈ s.serving → s.leader = s.me →
    Does (.idleReport frm floor false) s fun t => t.power.restEntry = s.power.restEntry ∧ t.cores = s.cores ∧ t.step = s.step ∧
      ∀ e ∈ t.pair.idleFrom, e.1 ≠ frm) ∧
  (∀ (frm : PkgId) (floor : BitVec 3) (s : State), frm ∈ s.serving → s.leader = s.me →
    Does (.idleReport frm floor true) s fun t => t.cores = s.cores ∧ t.step = s.step ∧ ∃ e ∈ t.pair.idleFrom, e.1 = frm ∧ e.2.1 = floor.toNat) ∧
  (∀ (entry : DWord) (banked : Option DWord) (s : State),
    ((s.pair.member = .paired ∨ s.pair.member = .alone) → Does (.rest entry banked) s fun t =>
      t = { s with power := { s.power with restEntry := some entry.toNat, restBanked := banked.map BitVec.toNat } }) ∧
    (s.pair.member ≠ .paired → s.pair.member ≠ .alone → Does (.rest entry banked) s fun t => t = s)) ∧
  (∀ (e : Nat) (s : State), s.power.restEntry = some e →
    (e ≤ s.rackTime → s.power.fire = .glow → 2 ≤ s.rd PWR_STATE_CTL.FLOOR →
      Does .restEmberEntry s fun t => Claims.enteredFire s t .ember ∧ t.power.restEntry = none) ∧
    ((s.rackTime < e ∨ s.power.fire ≠ .glow ∨ s.rd PWR_STATE_CTL.FLOOR < 2) → Does .restEmberEntry s fun t => t = s)) ∧
  (∀ (e : Nat) (s : State), s.power.restBanked = some e →
    (e ≤ s.rackTime → s.power.fire = .ember → s.rd PWR_STATE_CTL.FLOOR = 3 → Does .restBankedEntry s fun t => Claims.enteredBanked s t) ∧
    ((s.rackTime < e ∨ s.power.fire ≠ .ember ∨ s.rd PWR_STATE_CTL.FLOOR < 3) → Does .restBankedEntry s fun t => t = s)) ∧
  (∀ (w : Nat) (s : State), s.wakeTime = some w → (s.pair.member = .paired ∨ s.pair.member = .alone) →
    (w ≤ s.rackTime → (s.power.fire = .ember ∨ s.power.fire = .banked) → Does .scheduledWake s fun t => Claims.woke s t 1) ∧
    (s.rackTime < w → Does .scheduledWake s fun t => t = s)) ∧
  (∀ s : State,
    ((∃ p < 16, s.on POR_CTL.PORCH_ENABLE p = true ∧ (s.porch p).shows = true) → (s.power.fire = .ember ∨ s.power.fire = .banked) →
      Does .porchWatch s fun t =>
        t.power.fire = .glow ∧ t.rd PWR_STATE_STS.LAST_WAKE = 3 ∧ t.cellar = s.cellar ∧ t.table = s.table ∧
        ∃ l, t.out = s.out ++ [.pin "WAKE_N" false, .pin "WAKE_N" true] ++ l) ∧
    ((∀ p < 16, s.on POR_CTL.PORCH_ENABLE p = true → (s.porch p).shows = false) → Does .porchWatch s fun t => t = s)) ∧
  ∀ (q : Requester) (s : State), s.takes q .pwr = true →
    ((s.power.fire = .burning ∨ s.power.fire = .glow) → Does (.pwrWake q) s fun t => t = Claims.touched s q) ∧
    ((s.power.fire = .ember ∨ s.power.fire = .banked) → Does (.pwrWake q) s fun t => Claims.woke s t 4) ∧
    (s.power.fire = .smoored → s.on HAL_BOOT_STS.FAIL = false → s.kept.faulty = none → s.retest = {} → s.pair.slot ≤ 35 → Does (.pwrWake q) s fun t =>
      t.power.fire = .glow ∧ t.rd PWR_STATE_STS.LAST_WAKE = 4 ∧ t.rd HAL_BOOT_STS.STAGE = 4 ∧ t.rd HAL_BOOT_STS.CAUSE = 4 ∧ t.pair.member = .outside ∧
      t.rd PWR_OP_STS.POINT = 0 ∧ t.cellar = []) ∧
    (s.power.fire ≠ .smoored → (s.pair.member = .paired ∨ s.pair.member = .alone ∨ s.pair.member = .rejoining) →
      Does (.smoor q) s fun t => Claims.onlyRegs (Claims.touched s q) t ∧ Claims.conflictShows t 4 0x12C Err.SMOORED_MEMBER) ∧
    (s.power.fire ≠ .smoored → (s.pair.member = .outside ∨ s.pair.member = .out ∨ s.pair.member = .halted) →
      Does (.smoor q) s fun t => Claims.enteredSmoored s t)

/-! Wear, roles and remaps (R90 to R99). -/

/-- Every millisecond each boost-capable core's ledger gains A = 2^((V − 0.80) ÷ 0.05) × 2^((Tj − 85) ÷ 10) ms, in units of 2^-32 ms and rounded down; the
ledger is saved whole; the roles go to at most 24 eligible cores of lowest ledger at a step boundary when they are due, and a core that changes rail settles for 2 µs; an
in-service remap, made while the package is out and its partner serves alone, names one column of a row without one, resets the shifted cores, and
condemns a package whose row has one already (R90 to R99).
What no rule states in it is the model's choice or reading: notes/assumptions/37.md, notes/assumptions/116.md and notes/assumptions/123.md. -/
def Obligations.WearAndRoles : Prop :=
  (∀ s : State, Does .wearLedgerAccrue s fun t =>
    (∀ w < 4, ∀ y < 32, ∀ c, (c = 31 ∨ c = 32) →
      SMap.get 0 t.kept.wear (ledgerKey w y c) = SMap.get 0 s.kept.wear (ledgerKey w y c) + stressMs (s.wearMv w y c) (s.rowTemp w y)) ∧
    t.cores = s.cores ∧ t.cellar = s.cellar ∧ t.step = s.step ∧ t.kept.wearSaved = s.kept.wearSaved ∧ t.kept.remaps = s.kept.remaps) ∧
  (∀ (mv e : Nat) (x : Int), 12800 + 8 * ((mv : Int) - 800) + 5 * (x - 680) = (e : Int) →
    ∃ r, r ^ 400 ≤ 2 ^ (12800 + e % 400) ∧ 2 ^ (12800 + e % 400) < (r + 1) ^ 400 ∧ stressMs mv x = r * 2 ^ (e / 400) / 2 ^ 32) ∧
  (∀ s : State, Does .ledgerSave s fun t => t = { s with kept := { s.kept with wearSaved := s.kept.wear } }) ∧
  (∀ s : State,
    (s.kind.reassignDue = false → s.step.lastBoundary < s.kind.assignedAt + 3600000000000 → Does .kindlingRoleReassign s fun t => t = s) ∧
    (s.step.active = true → (∃ d ∈ s.step.descs, d.st ≠ .listed) → Does .kindlingRoleReassign s fun t => t = s) ∧
    ((s.step.active = false ∨ ∀ d ∈ s.step.descs, d.st = .listed) →
      (s.kind.reassignDue = true ∨ s.kind.assignedAt + 3600000000000 ≤ s.step.lastBoundary) → Does .kindlingRoleReassign s fun t =>
      t.kind.assignedAt = s.rackTime ∧ t.kind.reassignDue = false ∧
      (∀ w < 4, ∀ y < 32, SMap.get 0 t.kind.settling (32 * w + y) =
        if s.rd WNG_KIND_ROLE.ACTIVE_ROWS w / 2 ^ y % 2 = t.rd WNG_KIND_ROLE.ACTIVE_ROWS w / 2 ^ y % 2 then SMap.get 0 s.kind.settling (32 * w + y)
        else s.rackTime + 2000) ∧ t.kept.wear = s.kept.wear ∧ t.cores = s.cores ∧
      ∀ w < 4, ∃ rows : List Nat, rows.Nodup ∧ rows.length = min 24 ((List.range 32).filter fun y => s.boostEligible w y).length ∧
        (∀ y ∈ rows, y < 32 ∧ s.boostEligible w y = true) ∧
        (∀ y ∈ rows, ∀ z < 32, z ∉ rows → s.boostEligible w z = true →
          s.rowLedger w y < s.rowLedger w z ∨ (s.rowLedger w y = s.rowLedger w z ∧ y < z)) ∧
        ∀ y < 32, (t.rd WNG_KIND_ROLE.ACTIVE_ROWS w / 2 ^ y % 2 = 1 ↔ y ∈ rows))) ∧
  ∀ (c : CoreId) (s : State),
    (s.pair.member ≠ .out ∨ s.partnerAlone = false ∨ c.toNat ∉ s.pair.failedCores → Does (.inServiceRemap c) s fun t => t = s) ∧
    (s.pair.member = .out → s.partnerAlone = true → c.toNat ∈ s.pair.failedCores →
      (∀ r, SMap.get none s.kept.remaps (rowKey c.toNat) = some r → Does (.inServiceRemap c) s fun t =>
        t.kept.condemned = true ∧ t.kept.remaps = s.kept.remaps ∧ t.cores = s.cores ∧ c.toNat ∉ t.pair.failedCores) ∧
      (SMap.get none s.kept.remaps (rowKey c.toNat) = none → Does (.inServiceRemap c) s fun t =>
        (∀ k, SMap.get none t.kept.remaps k = if k = rowKey c.toNat then some (localCol c.toNat, true) else SMap.get none s.kept.remaps k) ∧
        t.kept.condemned = s.kept.condemned ∧ t.kept.wear = s.kept.wear ∧ c.toNat ∉ t.pair.failedCores ∧
        (∀ d, d < c.toNat ∨ c.toNat / 32 * 32 + 32 ≤ d → t.core d = s.core d) ∧
        ∀ d, c.toNat ≤ d → d < c.toNat / 32 * 32 + 32 →
          (t.core d).ls = (s.core d).ls ∧ (t.core d).ctxs = [] ∧ (t.core d).file = AccFile.cleared ∧ (t.core d).rqs = [] ∧
          (s.seatedImage = none → (t.core d).imem = (s.core d).imem) ∧ t.rd CORE_FAULT.WORD d = 0))

/-! Core resets and the sweep (R370, R526, R537 to R542). -/

/-- Core `c` is as a core reset leaves it, its memories kept, and its contexts stay HALTED (R526). -/
def Sys2Proof.Claims.coreFresh (s t : State) (c : Nat) : Prop :=
  (t.core c).ls = (s.core c).ls ∧ (t.core c).imem = (s.core c).imem ∧ (t.core c).ctxs = [] ∧ (t.core c).file = AccFile.cleared ∧
    (t.core c).rqs = [] ∧ (t.core c).sends = [] ∧ (t.core c).dmas = [] ∧ (t.core c).stores = [] ∧ (t.core c).streams = [] ∧
    (t.core c).hearthQ = [] ∧ (t.core c).holder = none ∧ (t.core c).hsCnt = 0 ∧ t.rd CORE_FAULT.WORD c = 0 ∧ t.rd CORE_LS_ECC.WORD c = 0

/-- A core reset, of a core withdrawn from the tile list, keeps the memories and clears the rest; a good chunk resets its core and records the pass, and a failed one counts and names its core; no
chunk starts during a step, nor for a core whose turn it is not, and at rest it is a rise to Glow and back; a late core raises the interrupt once an interval; a lane's BER test passes, or maps the lane out; a clean scrub read
changes the scrub's progress alone beside the rise, and only when its line is the next of its stack (R369, R370, R473, R523, R526, R537 to R542).
What no rule states in it is the model's choice or reading: notes/assumptions/92.md and notes/assumptions/124.md. -/
def Obligations.SweepWork : Prop :=
  (∀ (c : CoreId) (s : State), s.withdrawn c.toNat = false → Does (.coreReset c) s fun t => t = s) ∧
  (∀ (c : CoreId) (s : State), s.withdrawn c.toNat = true → s.seatedImage = none → Does (.coreReset c) s fun t =>
    Claims.coreFresh s t c.toNat ∧ s.otherCores t c.toNat ∧ t.cellar = s.cellar ∧ t.table = s.table) ∧
  (∀ (c : CoreId) (b : Bytes) (s : State), s.withdrawn c.toNat = true → s.seatedImage = some b → c.toNat ∈ imgCores b → Does (.coreReset c) s fun t =>
    (t.core c.toNat).ls = (s.core c.toNat).ls ∧ (t.core c.toNat).imem = (s.core c.toNat).imem ∧ (t.core c.toNat).file = AccFile.cleared ∧
    s.otherCores t c.toNat ∧ ∀ x < 8, (t.ctxOf c.toNat x).st = .halted ∨ (t.ctxOf c.toNat x).st = .ready ∨ (t.ctxOf c.toNat x).st = .running) ∧
  (∀ (c : CoreId) (good : Bool) (s : State),
    (s.chunkMay c.toNat = false → Does (.coreChunk c good) s fun t => t = s) ∧
    (s.chunkMay c.toNat = true → s.seatedImage = none → good = true → Does (.coreChunk c good) s fun t =>
      Claims.coreFresh s t c.toNat ∧ (t.core c.toNat).sweptAt = s.rackTime ∧ (t.core c.toNat).lateCount = 0 ∧ s.otherCores t c.toNat ∧
      (s.sweepRound.length < 4095 → t.sweepRound = s.sweepRound ++ [c.toNat] ∧ t.rd SWP_STS.PASSES = s.rd SWP_STS.PASSES) ∧
      (4095 ≤ s.sweepRound.length → t.sweepRound = [] ∧ t.rd SWP_STS.PASSES = min (s.rd SWP_STS.PASSES + 1) 0xFFFF) ∧
      (s.resting = true → t.power.fire = s.power.fire ∧ t.rd PWR_STATE_STS.LAST_WAKE = 5 ∧
        t.rd PWR_STATE_STS.WAKES = min (s.rd PWR_STATE_STS.WAKES + 1) 0xFFFF) ∧
      (s.power.fire = .glow → t.power.fire = .burning)) ∧
    (s.chunkMay c.toNat = true → good = false → Does (.coreChunk c good) s fun t =>
      t.rd SWP_LAST_CORE.VALID = 1 ∧ t.rd SWP_LAST_CORE.CORE = c.toNat ∧ c.toNat ∈ t.pair.failedCores ∧
      (s.pair.member = .paired → t.pair.member = .out) ∧ t.cellar = s.cellar)) ∧
  (∀ s : State, (s.step.active = true ∨ s.on SWP_CTL.ENABLE = false ∨ s.perturbed = true ∨ s.rd SWP_CTL.CORES_PER_WING = 0) → ∀ c, s.chunkMay c = false) ∧
  (∀ (c : CoreId) (s : State), s.sweepTurn c = false → s.chunkMay c = false) ∧
  (∀ (c : CoreId) (s : State),
    let missed := (s.rackTime - s.lastSweep c.toNat) / s.sweepInterval
    (missed ≤ (s.core c.toNat).lateCount → Does (.sweepLate c) s fun t => t = s) ∧
    ((s.core c.toNat).lateCount < missed → Does (.sweepLate c) s fun t =>
      t.core c.toNat = { s.core c.toNat with lateCount := missed } ∧ s.otherCores t c.toNat ∧
      t.rd PG_IRQ_STS.SOURCES (Block.swp.page 0) / 4 % 2 = 1)) ∧
  (∀ (l : Lane) (u k : Nat) (s : State),
    ((s.sweepMay = false ∨ s.laneIdle l = false) → Does (.laneBerTest l u k) s fun t => t = s) ∧
    (s.sweepMay = true → s.laneIdle l = true →
      (u = 0 → k ≤ 224 → Does (.laneBerTest l u k) s fun t =>
        Claims.workKept s t ∧ t.mappedOut l = s.mappedOut l ∧ t.lane l = { s.lane l with testedAt := s.rackTime } ∧ ∀ m, m ≠ l.val → t.lane m = s.lane m) ∧
      ((u ≠ 0 ∨ 224 < k) → Does (.laneBerTest l u k) s fun t =>
        t.mappedOut l = true ∧ (t.lane l).carrying = false ∧ t.rd SWP_FAILS.LANE = min (s.rd SWP_FAILS.LANE + 1) 0xFFFF ∧ t.cores = s.cores ∧
        ∀ m, m ≠ l.val → t.lane m = s.lane m))) ∧
  (∀ (line : BitVec 34) (s : State), s.sweepMay = true → line.toNat < s.cellarLines → s.on PG_PTB_STS.ACTIVE (Block.cel.page 0) = false →
    s.celBad (64 * line.toNat) 64 = false →
    let st := (celHash (64 * line.toNat)).1
    let next := celNext st (SMap.get 0 s.cel.scrubNext st)
    (next ≠ line.toNat → Does (.scrubRead line .clean) s fun t => t = s.sweepWake) ∧
    (next = line.toNat → s.cel.scrubbed + 1 < s.cellarLines → Does (.scrubRead line .clean) s fun t =>
      t = { s.sweepWake with cel := { s.cel with scrubbed := s.cel.scrubbed + 1, scrubNext := t.cel.scrubNext }, regs := t.regs } ∧
      (∀ k, SMap.get 0 t.cel.scrubNext k = if k = st then line.toNat + 1 else SMap.get 0 s.cel.scrubNext k) ∧
      t.rd CEL_SCRUB_STS.PERCENT = 100 * (s.cel.scrubbed + 1) / s.cellarLines ∧ Claims.keepsWords s.sweepWake t fun a => a = CEL_SCRUB_STS.WORD.base) ∧
    (next = line.toNat → s.cellarLines ≤ s.cel.scrubbed + 1 → Does (.scrubRead line .clean) s fun t =>
      t = { s.sweepWake with cel := { s.cel with scrubbed := 0, scrubNext := [], scrubFrom := s.rackTime }, regs := t.regs } ∧ t.rd CEL_SCRUB_STS.PERCENT = 0 ∧
      (s.rackTime < s.cel.scrubFrom + s.scrubInterval → t.rd CEL_SCRUB_STS.LATE = 0))) ∧
  ∀ s : State,
    (s.rackTime < s.cel.scrubFrom + s.scrubInterval → Does .scrubLate s fun t => t = s) ∧
    (s.cel.scrubFrom + s.scrubInterval ≤ s.rackTime → Does .scrubLate s fun t =>
      t.rd CEL_SCRUB_STS.LATE = 1 ∧ t.cel = s.cel ∧ t.cores = s.cores ∧ t.rd PG_IRQ_STS.SOURCES (Block.cel.page 0) / 4 % 2 = 1)

/-! The cellar's repairs and the larder (R365 to R368, R371 to R377). -/

/-- The oldest command of wing `w`'s ring is in service and waits for its completion, and no core differs (R375, R377). -/
def Sys2Proof.Claims.larQueued (s t : State) (w : Nat) (rest : List LarWait) (q : LarCmd) : Prop :=
  (t.wing w).larder = [q] ∧ (t.wing w).larQueue = rest ∧ t.cores = s.cores ∧ t.table = s.table

/-- A completion message of wing `w`'s larder: STATUS, USED and SKIPPED in 16 bytes (R377). -/
def Sys2Proof.Claims.larMessage (s : State) (w status used skipped : Nat) (o : Out) : Prop :=
  ∃ p : Packet, o = .packet s.me p ∧ p.type.toNat = 3 ∧ p.node.toNat = 0x1010 + w ∧
    p.payload = leBytes 2 status ++ leBytes 2 0 ++ leBytes 4 used ++ leBytes 4 skipped ++ leBytes 4 0

/-- No perturbation is active anywhere (R548). -/
def Sys2Proof.Claims.noInjection (s : State) : Prop := ∀ g, s.on PG_PTB_STS.ACTIVE g = false

/-- A DQ lane that is implicated takes a redundant one, and a marked row a spare, while there is one; without one the package is condemned or the row stays;
a slot that its owner stores whole passes to the larder of its wing; the larder serves one command at a time, the oldest first: a bad one counts and is
answered 2; any other waits until the wing's tokens carry its line moves, and then one with a key that names no row counts and ends in 1, one whose list cannot
be returned ends in 3, and a good one without pooling ends in 0 with the rows used and skipped that its message will say; the message goes out when its writes are acknowledged (R365 to R368,
R371 to R377, R453).
What no rule states in it is the model's choice or reading: notes/assumptions/59.md, notes/assumptions/69.md and notes/assumptions/107.md. -/
def Obligations.CellarRepairAndLarder : Prop :=
  (∀ (st : Stack) (ch : Fin 16) (dq : Fin 64) (s : State),
    let key := 16 * st.val + ch.val
    let used := SMap.get 0 s.kept.spareLanes key
    let lane := 64 * key + dq.val
    (lane ∉ s.cel.implicated → Does (.hbmLaneRemap st ch dq) s fun t => t = s) ∧
    (lane ∈ s.cel.implicated → used < Config.spares 0 key → Does (.hbmLaneRemap st ch dq) s fun t =>
      (∀ l, l ∈ t.cel.implicated ↔ l ∈ s.cel.implicated ∧ l ≠ lane) ∧
      (∀ k, SMap.get 0 t.kept.spareLanes k = if k = key then used + 1 else SMap.get 0 s.kept.spareLanes k) ∧
      t.rd CEL_LANE.DONE = min (s.rd CEL_LANE.DONE + 1) (2 ^ CEL_LANE.DONE.width - 1) ∧ t.kept.condemned = s.kept.condemned ∧ t.cellar = s.cellar ∧
      t.pair = s.pair) ∧
    (lane ∈ s.cel.implicated → Config.spares 0 key ≤ used → Does (.hbmLaneRemap st ch dq) s fun t =>
      t.kept.condemned = true ∧ t.kept.spareLanes = s.kept.spareLanes ∧ t.cellar = s.cellar ∧ (s.pair.member = .paired → t.pair.member = .out))) ∧
  (∀ (st : Stack) (bank row : Nat) (s : State),
    let key := 4096 * st.val + bank
    let used := SMap.get 0 s.kept.spareRows key
    (((s.pair.member ≠ .outside ∧ s.pair.member ≠ .out) ∨ (st.val, bank, row) ∉ s.cel.markedRows) → Does (.rowPpr st bank row) s fun t => t = s) ∧
    ((s.pair.member = .outside ∨ s.pair.member = .out) → (st.val, bank, row) ∈ s.cel.markedRows →
      (used < Config.spares 1 key → Does (.rowPpr st bank row) s fun t =>
        (∀ k, SMap.get 0 t.kept.spareRows k = if k = key then used + 1 else SMap.get 0 s.kept.spareRows k) ∧
        t.rd CEL_PPR.DONE = min (s.rd CEL_PPR.DONE + 1) (2 ^ CEL_PPR.DONE.width - 1) ∧ (st.val, bank, row) ∉ t.cel.markedRows ∧ t.cellar = s.cellar) ∧
      (Config.spares 1 key ≤ used → Does (.rowPpr st bank row) s fun t =>
        t.kept.spareRows = s.kept.spareRows ∧ t.rd CEL_PPR.DONE = s.rd CEL_PPR.DONE ∧ (st.val, bank, row) ∉ t.cel.markedRows ∧ t.cellar = s.cellar))) ∧
  (∀ (p : Packet) (w : Nat) (s : State), Claims.served s p → srfSpace p.address = 1 → p.type.toNat = 1 → p.length.toNat = 128 → p.payload.length = 128 →
    s.inFootprint (srfOff p.address) 128 = false → s.ringWing (srfOff p.address) 128 = some w → s.larRing w ≤ srfOff p.address →
    srfOff p.address % 128 = 0 → p.src = s.me →
    let l := (srfOff p.address - s.larRing w) / 256 % 1024
    let second := decide (128 ≤ (srfOff p.address - s.larRing w) % 256)
    p.node.toNat = larCore w l → (∀ q ∈ (s.wing w).larder, q.core ≠ p.node.toNat ∨ q.second ≠ second) →
    (∀ q ∈ (s.wing w).larQueue, q.core ≠ p.node.toNat ∨ q.second ≠ second) →
      Does (.storePacket p) s fun t =>
        (t.wing w).larQueue = (s.wing w).larQueue ++ [{ core := p.node.toNat, second := second, cmd := p.payload }] ∧ t.cores = s.cores ∧
        memoryHas s.cellar t.cellar (srfOff p.address) 128 fun i => p.payload.getD i 0) ∧
  (∀ (w : Wing) (far : Bytes) (es : Errs) (s : State), ((s.wing w.val).larder ≠ [] ∨ (s.wing w.val).larQueue = []) →
    Does (.gather w far es) s fun t => t = s) ∧
  (∀ (w : Wing) (far : Bytes) (es : Errs) (q : LarWait) (rest : List LarWait) (s : State), (s.wing w.val).larder = [] →
    (s.wing w.val).larQueue = q :: rest →
    let p := larParam q.cmd
    let ks := s.larKeys p far
    let budget := SMap.get 0 s.power.budget w.val
    let need := p.lines ks - q.moved
    let cmd (status used skipped : Nat) : LarCmd :=
      { core := q.core, second := q.second, queue := p.reply / 2 ^ 14, reply := p.reply % 4096, tag := BitVec.ofNat 16 p.tag,
        status := status, used := used, skipped := skipped }
    (s.larOk p = false → Does (.gather w far es) s fun t =>
      t.rd LAR_ERR.CMD w.val = min (s.rd LAR_ERR.CMD w.val + 1) (2 ^ LAR_ERR.CMD.width - 1) ∧ (t.wing w.val).larder = [] ∧
      (t.wing w.val).larQueue = rest ∧ t.cellar = s.cellar ∧ t.cores = s.cores ∧ ∃ l o, t.out = l ++ [o] ∧ Claims.larMessage s w.val 2 0 0 o) ∧
    (s.larOk p = true → budget < need → Does (.gather w far es) s fun t =>
      (t.wing w.val).larder = [] ∧ (t.wing w.val).larQueue = { q with moved := q.moved + budget } :: rest ∧
      SMap.get 0 t.power.budget w.val = 0 ∧ t.cellar = s.cellar ∧ t.cores = s.cores ∧ t.table = s.table ∧ (s.power.fire = .burning → t.out = s.out)) ∧
    (s.larOk p = true → need ≤ budget → srfPkg p.list = s.me → s.srfReadable p.list (8 * p.keys) = false → Does (.gather w far es) s fun t =>
      Claims.larQueued s t w.val rest (cmd 3 0 0) ∧ t.cellar = s.cellar) ∧
    (s.larOk p = true → need ≤ budget → p.pool = 0 → Claims.noInjection s → srfPkg p.list = s.me → s.srfReadable p.list (8 * p.keys) = true →
      (KeyRes.bad ∈ ks → Does (.gather w far []) s fun t =>
        Claims.larQueued s t w.val rest (cmd 1 0 0) ∧ t.cellar = s.cellar ∧
        t.rd LAR_ERR.KEY w.val = min (s.rd LAR_ERR.KEY w.val + 1) (2 ^ LAR_ERR.KEY.width - 1)) ∧
      (KeyRes.bad ∉ ks →
        (∀ b < p.keys, srfPkg (p.place b) = s.me ∧ srfSpace (p.place b) = 1 ∧ s.srfInSpace (p.place b) = true ∧
          s.srfInSpace (p.place b + BitVec.ofNat 64 (p.outBytes - 1)) = true) →
        (∀ l ∈ usedRows ks, s.srfReadable (p.rowLines l).1 (p.rowLines l).2 = true ∧ srfPkg (p.rowLines l).1 = s.me ∧ srfSpace (p.rowLines l).1 = 1) →
        Does (.gather w far []) s fun t =>
          Claims.larQueued s t w.val rest (cmd 0 (usedRows ks).length (ks.filter fun k => decide (k = .skip)).length) ∧
          SMap.get 0 t.power.budget w.val = budget - need ∧
          t.rd64 LAR_ROWS_LO.ROWS w.val = (s.rd64 LAR_ROWS_LO.ROWS w.val + (usedRows ks).length) % 2 ^ 64))) ∧
  (∀ (p : LarParam) (k : Nat),
    (p.totalRows ≤ p.row k ∨ p.localRows ≤ p.row k / p.pairs → p.key k = .bad) ∧
    (p.row k < p.totalRows → p.row k / p.pairs < p.localRows →
      ((p.row k % p.pairs = p.own ∨ p.pairs = 1) → p.key k = .row (p.row k / p.pairs)) ∧
      (p.row k % p.pairs ≠ p.own → p.pairs ≠ 1 → p.key k = if p.owned = true then .skip else .bad))) ∧
  (∀ (w : Wing) (s : State), (s.wing w.val).larder = [] → Does (.larderComplete w) s fun t => t = s) ∧
  ∀ (w : Wing) (q : LarCmd) (rest : List LarCmd) (s : State), (s.wing w.val).larder = q :: rest →
    (q.writes = [] → q.reqs = [] → Does (.larderComplete w) s fun t =>
      (t.wing w.val).larder = rest ∧ t.cellar = s.cellar ∧ t.table = s.table ∧ t.cores = s.cores ∧
      ∃ l o, t.out = s.out ++ l ++ [o] ∧ (s.power.fire = .burning → l = []) ∧ Claims.larMessage s w.val q.status q.used q.skipped o) ∧
    ((q.writes ≠ [] ∨ q.reqs ≠ []) → Does (.larderComplete w) s fun t => t = s)

/-! Links (R411 to R415, R441 to R443, R513). -/

/-- No injection is active on the page that tests a lane (R545). -/
def Sys2Proof.Claims.laneQuiet (s : State) (l : Nat) : Prop :=
  s.on PG_PTB_STS.ACTIVE (if 72 ≤ l then Block.pair.page 0 else Block.fab.page (l / 18)) = false

/-- A lane is held down and mapped out with an outcome (R442). -/
def Sys2Proof.Claims.heldDown (t : State) (l o : Nat) : Prop :=
  t.rd PAIR_PEERn.OUTCOME 0 l = o ∧ t.mappedOut l = true ∧ (t.lane l).carrying = false ∧ (t.lane l).training = false

/-- A header that goes back on a lane after its codeword was taken or refused: the ACK of the last SEQ accepted, and NAK while a resend is asked (R412, R413). -/
def Sys2Proof.Claims.headsBack (l : Nat) (next : Nat) (nak : Bool) (o : Out) : Prop :=
  ∃ h : BitVec 20, o = .linkHeader l false h ∧ lkACK h = (next + 63) % 64 ∧ lkNAK h = nak

/-- Data codewords that room in the replay buffer lets go (R413). -/
def Sys2Proof.Claims.sentNow (l : Nat) (a b : LaneSt) (ws : List Out) : Prop :=
  ws.length = (b.txNext + 64 - a.txNext) % 64 ∧ ∀ w ∈ ws, ∃ h, w = .linkHeader l true h

/-- The link layer takes in-order codewords, asks again for others and for those that do not decode, and resends what a NAK leaves unacknowledged; a spare
takes over the replay buffer of the lane it replaces; an uncorrectable word on the package's own links hands the work over, and a second one on the same
link keeps the package out; a trained lane takes the outcome of R442, and one with no identity 100 ms after its training started is MISSING; only a mapped-out
lane is released; training starts by R513, sends the lane's identity and leaves the map-out (R411 to R415, R441 to R443, R513).
What no rule states in it is the model's choice or reading: notes/assumptions/20.md, notes/assumptions/66.md and notes/assumptions/67.md. -/
def Obligations.Links : Prop :=
  (∀ (l : Lane) (cw : Codeword) (s : State), (s.lane l).carrying = false → Does (.codewordReceive l cw) s fun t => t = s) ∧
  (∀ (l : Lane) (cw : Codeword) (s : State), (s.lane l).carrying = true → Claims.laneQuiet s l →
    let a := s.lane l
    let r := a.header cw.header
    ((cw.decodes = false ∨ 15 < cw.corrected) → a.ueTimes.length < 1000 → Does (.codewordReceive l cw) s fun t =>
      (t.lane l).nak = true ∧ (t.lane l).rxNext = a.rxNext ∧ (t.lane l).replay = a.replay ∧ (t.lane l).credits = a.credits ∧
      (∀ m, m ≠ l.val → t.lane m = s.lane m) ∧ (∃ o, t.out = s.out ++ [o] ∧ Claims.headsBack l a.rxNext true o) ∧ t.cores = s.cores) ∧
    (cw.decodes = true → cw.corrected ≤ 15 → r.1.resends < 8 →
      (cw.flits = [] → Does (.codewordReceive l cw) s fun t =>
        t.lane l = { r.1 with owed := (t.lane l).owed } ∧ (∀ m, m ≠ l.val → t.lane m = s.lane m) ∧ t.cores = s.cores ∧
        ∃ ws, t.out = s.out ++ r.2.map (fun q => .resend l q) ++ ws ∧ Claims.sentNow l a r.1 ws) ∧
      (cw.flits ≠ [] → lkSEQ cw.header = a.rxNext → Does (.codewordReceive l cw) s fun t =>
        t.lane l = { r.1 with rxNext := (a.rxNext + 1) % 64, nak := false, owed := (t.lane l).owed } ∧ (∀ m, m ≠ l.val → t.lane m = s.lane m) ∧
        t.cores = s.cores ∧ ∃ ws o, t.out = s.out ++ r.2.map (fun q => .resend l q) ++ ws ++ [o] ∧ Claims.sentNow l a r.1 ws ∧
          Claims.headsBack l ((a.rxNext + 1) % 64) false o) ∧
      (cw.flits ≠ [] → lkSEQ cw.header ≠ a.rxNext → Does (.codewordReceive l cw) s fun t =>
        t.lane l = { r.1 with nak := true, owed := (t.lane l).owed } ∧ (∀ m, m ≠ l.val → t.lane m = s.lane m) ∧ t.cores = s.cores ∧
        ∃ ws o, t.out = s.out ++ r.2.map (fun q => .resend l q) ++ ws ++ [o] ∧ Claims.sentNow l a r.1 ws ∧
          Claims.headsBack l a.rxNext true o))) ∧
  (∀ (a : LaneSt) (h : BitVec 20) (pre post : List Nat), a.replay = pre ++ lkACK h :: post → lkACK h ∉ pre → a.backlog = 0 →
    (a.header h).1.replay = post ∧ (a.header h).1.acked = lkACK h ∧ (a.header h).2 = if lkNAK h = true then post else []) ∧
  (∀ (w : Wing) (k : Fin 2) (i : Nat) (s : State),
    let sp := s.spareLane w.val k.val
    s.replaces sp = some i → sp ≠ 18 * w.val + i →
    ((s.lane sp).training = false → Does (.spareLaneRetrain w k) s fun t => t = s) ∧
    ((s.lane sp).training = true → Does (.spareLaneRetrain w k) s fun t =>
      let old := s.lane (18 * w.val + i)
      (t.lane sp).carrying = true ∧ (t.lane sp).training = false ∧ (t.lane sp).replay = old.replay ∧ (t.lane sp).txNext = old.txNext ∧ (t.lane sp).rxNext = old.rxNext ∧
      (t.lane sp).credits = old.credits ∧ (t.lane (18 * w.val + i)).replay = [] ∧ t.spareBusy w.val k.val = true ∧ t.cores = s.cores ∧
      ∃ x, t.out = s.out ++ old.replay.map (fun q => .resend sp q) ++ x)) ∧
  (∀ (k : LinkKind) (w : Wing) (h : Bytes) (s : State),
    s.on PG_PTB_STS.ACTIVE (Block.wng.page w.val) = false →
    let mesh : Bool := match k with | .mesh _ _ => true | _ => false
    (Does (.meshUncorrectable k w h .clean) s fun t => t = s) ∧
    (Does (.meshUncorrectable k w h .corrected) s fun t => Claims.onlyRegs s t ∧
      t.rd FAB_MESH_CE.MESH w.val = (if mesh = true then min (s.rd FAB_MESH_CE.MESH w.val + 1) 0xFFFF else s.rd FAB_MESH_CE.MESH w.val) ∧
      t.rd FAB_MESH_CE.LINTEL w.val = if mesh = true then s.rd FAB_MESH_CE.LINTEL w.val else min (s.rd FAB_MESH_CE.LINTEL w.val + 1) 0xFFFF) ∧
    (k ∉ (s.wing w.val).linkFails → Does (.meshUncorrectable k w h .uncorrectable) s fun t =>
      (t.wing w.val).linkFails = (s.wing w.val).linkFails ++ [k] ∧ t.kept.condemned = s.kept.condemned ∧ t.cellar = s.cellar ∧
      (∀ x ∈ t.fab.transits, x.header ≠ h.take 12) ∧ (s.pair.member = .paired → t.pair.member = .out)) ∧
    (k ∈ (s.wing w.val).linkFails → Does (.meshUncorrectable k w h .uncorrectable) s fun t =>
      t.kept.condemned = true ∧ t.cellar = s.cellar ∧ (∀ x ∈ t.fab.transits, x.header ≠ h.take 12) ∧
      (s.pair.member = .paired → t.pair.member = .out))) ∧
  (∀ (l : Lane) (id : Word) (s : State),
    ((s.lane l).training = false → Does (.laneTrained l id) s (fun t => t = s) ∧ Does (.laneIdentityTimeout l) s fun t => t = s) ∧
    ((s.lane l).training = true →
      (s.rackTime < (s.lane l).trainFrom + 100000000 → Does (.laneIdentityTimeout l) s fun t => t = s) ∧
      ((s.lane l).trainFrom + 100000000 ≤ s.rackTime → Does (.laneIdentityTimeout l) s fun t => Claims.heldDown t l 5) ∧
      (s.planId l = none → Does (.laneTrained l id) s fun t => Claims.heldDown t l 6) ∧
      ∀ x, s.planId l = some x →
        (x = id.toNat / 256 → Does (.laneTrained l id) s fun t =>
          t.rd PAIR_PEERn.OUTCOME 0 l = 1 ∧ t.rd PAIR_PEERn.IDENTITY 0 l = x ∧ (t.lane l).training = false ∧
          ((72 ≤ l.val ∨ ∀ k < 2, s.spareLane (laneWing l) k ≠ l.val) → (t.lane l).carrying = true)) ∧
        (x ≠ id.toNat / 256 →
          ((∀ m < 88, m ≠ l.val → s.planId m ≠ some (id.toNat / 256)) → Does (.laneTrained l id) s fun t => Claims.heldDown t l 4) ∧
          ∀ m < 88, m ≠ l.val → s.planId m = some (id.toNat / 256) → (∀ n < 88, n ≠ l.val → s.planId n = some (id.toNat / 256) → n = m) →
            (s.remappable l m = false → Does (.laneTrained l id) s fun t => Claims.heldDown t l 3) ∧
            (s.remappable l m = true → Does (.laneTrained l id) s fun t =>
              t.rd PAIR_PEERn.OUTCOME 0 l = 2 ∧ (t.lane l).asLane = some m ∧ (t.lane l).training = false)))) ∧
  (∀ (q : Requester) (l : BitVec 7) (s : State), s.takes q .pair = true → l.toNat ≤ 87 →
    (s.mappedOut l.toNat = true → Does (.releaseLane q l) s fun t =>
      t.mappedOut l.toNat = false ∧ (t.lane l.toNat).training = true ∧ t.rd PAIR_PEERn.OUTCOME 0 l.toNat = 0 ∧ t.rd PAIR_MAINT.LANE = l.toNat ∧
      .identity l.toNat (s.identityWord l.toNat) ∈ t.out ∧ ∀ m, m ≠ l.toNat → t.lane m = s.lane m) ∧
    (s.mappedOut l.toNat = false → Does (.releaseLane q l) s fun t => Claims.onlyRegs (Claims.touched s q) t ∧ t.rd PAIR_MAINT.LANE = l.toNat)) ∧
  (∀ s : State,
    (s.rd HAL_BOOT_STS.STAGE = 4 → s.on HAL_BOOT_STS.FAIL = false →
      (∀ l, 72 ≤ l → l < 88 → s.on PAIR_PLANn.VALID 0 l = true ∧ (s.lane l).training = false) →
      Does .pairLinkTrainStart s fun t =>
        (∀ l, 72 ≤ l → l < 88 → s.mappedOut l = false → (t.lane l).training = true ∧ t.mappedOut l = false ∧ t.rd PAIR_PEERn.OUTCOME 0 l = 0 ∧
          .identity l (s.identityWord l) ∈ t.out) ∧
        ∀ l, (l < 72 ∨ 88 ≤ l ∨ s.mappedOut l = true) → t.lane l = s.lane l ∧ t.mappedOut l = s.mappedOut l) ∧
    ((s.rd HAL_BOOT_STS.STAGE ≠ 4 ∨ ∃ l, 72 ≤ l ∧ l < 88 ∧ s.on PAIR_PLANn.VALID 0 l = false) → Does .pairLinkTrainStart s fun t => t = s)) ∧
  ∀ (q : Requester) (w : Wing) (v : Word) (s : State), s.takes q .fab w.val = true →
    (s.on FAB_CTL.ENABLE w.val = false → v.getLsbD 0 = true → Does (.fabEnableWrite q w v) s fun t =>
      t.rd FAB_CTL.ENABLE w.val = 1 ∧ t.rd FAB_CTL.SPARE_AUTO w.val = v.toNat / 2 % 2 ∧
      ∀ l, (18 * w.val ≤ l → l < 18 * w.val + 18 → s.mappedOut l = false → (s.lane l).carrying = false → (t.lane l).training = true) ∧
        ((l < 18 * w.val ∨ 18 * w.val + 18 ≤ l ∨ s.mappedOut l = true ∨ (s.lane l).carrying = true) → t.lane l = s.lane l)) ∧
    (s.on FAB_CTL.ENABLE w.val = true → v.getLsbD 0 = false → Does (.fabEnableWrite q w v) s fun t =>
      t.rd FAB_CTL.ENABLE w.val = 0 ∧
      ∀ l, (18 * w.val ≤ l → l < 18 * w.val + 18 → (t.lane l).carrying = false ∧ (t.lane l).training = false) ∧
        ((l < 18 * w.val ∨ 18 * w.val + 18 ≤ l) → t.lane l = s.lane l)) ∧
    ((s.on FAB_CTL.ENABLE w.val = v.getLsbD 0) → Does (.fabEnableWrite q w v) s fun t =>
      Claims.onlyRegs (Claims.touched s q) t ∧ t.rd FAB_CTL.ENABLE w.val = (if v.getLsbD 0 = true then 1 else 0) ∧ t.rd FAB_CTL.SPARE_AUTO w.val = v.toNat / 2 % 2)

/-! The porch (R273 to R280, R291, R424). -/

/-- A record of partition `p` has been accepted whole or as TORN, perhaps with those behind it that waited: it is next in the order of acceptance under the
stamp expected, with the administrator's right its partition has then, NEXT has passed it, and a paired member sends it to its partner (R277, R279, R314,
R424). -/
def Sys2Proof.Claims.acceptedNext (s t : State) (p : Part) (torn : Bool) (b : Bytes) : Prop :=
  ∃ l : List CmdRec,
    let r : CmdRec := ⟨p, (s.porch p.val).next, s.rackTime, torn, b, decide (s.rd MDL_CTL.ADMIN_MASK / 2 ^ p.val % 2 = 1)⟩
    t.accepted = s.accepted ++ r :: l ∧ (∀ r ∈ l, r.part = p ∧ r.torn = false) ∧
    (t.porch p.val).next = (s.porch p.val).next + 1 + BitVec.ofNat 32 l.length ∧ (t.porch p.val).accepted = (s.porch p.val).accepted + 1 + l.length ∧
    (t.porch p.val).accepted ≤ 256 ∧ t.porchTurn = p.val ∧ (s.pair.member = .paired → .mirrorRecord r ∈ t.out)

/-- The rows that write a record of a command. -/
def Sys2Proof.Claims.recordRows : List (Part → Bytes → Instr) :=
  [.nop, .admitSeq, .cancel, .pause, .resume, .setPriority, .budget, .query, .programLoad, .load, .drain, .evict, .slotQuery, .recheck, .badOpcode]

/-- The bytes `b` stand in a porch at `o`, and every other byte is as it was. -/
def Sys2Proof.Claims.landed (m n : Memory) (o : Nat) (b : Bytes) : Prop :=
  ∀ a, Memory.byte n a = if o ≤ a ∧ a < o + b.length then b.getD (a - o) 0 else Memory.byte m a

/-- A whole record of any opcode in its slot is accepted when its stamp is the one expected and its check holds; one whose check fails is not, and its window
starts; with another stamp, of a disabled porch, at rest or behind 256 accepted records it only lands; on a link that is down and in Smoored nothing lands;
a window of 10 µs ends in TORN; the backed part of an aperture returns what stands there and takes a word, and the unbacked part reads all ones and
discards; in recovery PF0's first 12 MiB are the update buffer instead (R272, R274 to R280, R291, R424, R474, R475, R490).
What no rule states in it is the model's choice or reading: notes/assumptions/83.md. -/
def Obligations.PorchAccepts : Prop :=
  (∀ k ∈ Claims.recordRows, ∀ (p : Part) (b : Bytes) (s : State), b.length = 128 →
    let stamp := fieldAt b 0x7C 4
    let open_ := s.on POR_CTL.PORCH_ENABLE p.val = true ∧ s.resting = false
    ((s.power.fire = .smoored ∨ s.pcie.up = false ∨ s.inRecovery = true) → Does (k p b) s fun t => t = s) ∧
    (s.power.fire ≠ .smoored → s.pcie.up = true → s.inRecovery = false → s.on PG_PTB_STS.ACTIVE (Block.por.page p.val) = false →
      (open_ → (s.porch p.val).accepted < 256 → stamp = (s.porch p.val).next.toNat →
        (recordCheck b = true → Does (k p b) s fun t =>
          Claims.acceptedNext s t p false b ∧ t = { s.linkActive with accepted := t.accepted, porches := t.porches, out := t.out, porchTurn := t.porchTurn } ∧
          ∀ n, n ≠ p.val → t.porch n = s.porch n) ∧
        (recordCheck b = false → Does (k p b) s fun t =>
          t = { s.linkActive with porches := t.porches } ∧ (t.porch p.val).tornFrom = some ((s.porch p.val).tornFrom.getD s.rackTime) ∧
          (t.porch p.val).next = (s.porch p.val).next ∧ Claims.landed (s.porch p.val).mem (t.porch p.val).mem (128 * (stamp % 8192)) b ∧
          ∀ n, n ≠ p.val → t.porch n = s.porch n)) ∧
      ((¬ open_ ∨ 256 ≤ (s.porch p.val).accepted ∨ (stamp ≠ (s.porch p.val).next.toNat ∧ (s.porch p.val).shows = false)) → Does (k p b) s fun t =>
        t = { s.linkActive with porches := t.porches } ∧
        t.porch p.val = { s.porch p.val with mem := (t.porch p.val).mem, tornFrom := (t.porch p.val).tornFrom } ∧
        (¬ open_ → (t.porch p.val).tornFrom = none) ∧ Claims.landed (s.porch p.val).mem (t.porch p.val).mem (128 * (stamp % 8192)) b ∧
        ∀ n, n ≠ p.val → t.porch n = s.porch n))) ∧
  (∀ (p : Part) (from_ : Nat) (s : State), (s.porch p.val).tornFrom = some from_ → s.mayExamine p.val = true → (s.porch p.val).shows = true →
    recordCheck (s.porch p.val).expected = false →
    (s.rackTime < from_ + 10000 → Does (.torn p) s fun t => t = s) ∧
    (from_ + 10000 ≤ s.rackTime → Does (.torn p) s fun t =>
      Claims.acceptedNext s t p true (s.porch p.val).expected ∧ t.rd POR_TORN.COUNT p.val = min (s.rd POR_TORN.COUNT p.val + 1) 0xFFFF ∧
      t.cores = s.cores ∧ t.table = s.table)) ∧
  (∀ (p : Part) (s : State), (s.porch p.val).tornFrom = none → Does (.torn p) s fun t => t = s) ∧
  ∀ (q : Requester) (p : Part) (o : BitVec 24) (s : State),
    let u := Claims.touched s q
    (s.hears q = false → ∀ w, Does (.porchUnbackedAccess q p o w) s fun t => t = s) ∧
    (s.hears q = true → q ≠ .pf → q ≠ .vf p → ∀ w, Does (.porchUnbackedAccess q p o w) s fun t => t = u) ∧
    (s.hears q = true → (q = .pf ∨ q = .vf p) → s.inRecovery = true →
      let there := q = .pf ∧ p.val = 0 ∧ o.toNat < 12 * 2 ^ 20
      (Does (.porchUnbackedAccess q p o none) s fun t =>
        (there → t = u.emit (.readData q (SMap.get 0 s.mgmt.window (o.toNat / 4)))) ∧ (¬ there → t = u.emit (.readData q 0xFFFFFFFF))) ∧
      ∀ v : Word, Does (.porchUnbackedAccess q p o (some v)) s fun t =>
        (there → t = { u with mgmt := { s.mgmt with window := t.mgmt.window } } ∧
          ∀ k, SMap.get 0 t.mgmt.window k = if k = o.toNat / 4 then v else SMap.get 0 s.mgmt.window k) ∧ (¬ there → t = u)) ∧
    (s.hears q = true → (q = .pf ∨ q = .vf p) → s.inRecovery = false →
      (o.toNat < 0x100000 → s.power.fire = .smoored →
        (Does (.porchUnbackedAccess q p o none) s fun t => t = u.emit (.readData q 0xFFFFFFFF)) ∧
        ∀ v : Word, Does (.porchUnbackedAccess q p o (some v)) s fun t => t = u) ∧
      (o.toNat < 0x100000 → s.power.fire ≠ .smoored →
        (Does (.porchUnbackedAccess q p o none) s fun t =>
          t = u.emit (.readData q (BitVec.ofNat 32 (leNat (Memory.read (s.porch p.val).mem (o.toNat / 4 * 4) 4))))) ∧
        ∀ v : Word, Does (.porchUnbackedAccess q p o (some v)) s fun t =>
          Claims.landed (s.porch p.val).mem (t.porch p.val).mem (o.toNat / 4 * 4) (leBytes 4 v.toNat) ∧
          ((s.on POR_CTL.PORCH_ENABLE p.val = false ∨ s.resting = true) → t = { u with porches := t.porches }) ∧ t.cores = s.cores ∧
          ∀ n, n ≠ p.val → t.porch n = s.porch n) ∧
      (0x100000 ≤ o.toNat →
        (∀ v : Word, Does (.porchUnbackedAccess q p o (some v)) s fun t => t.porches = s.porches ∧ t.accepted = s.accepted ∧ t.cores = s.cores) ∧
        Does (.porchUnbackedAccess q p o none) s fun t =>
          t.porches = s.porches ∧ t.accepted = s.accepted ∧ t.cores = s.cores ∧ ∃ l, t.out = s.out ++ l ++ [.readData q 0xFFFFFFFF]))

/-- What a boundary makes of an accepted record: TORN and reserved bits first, then the opcode; a command that names a sequence finds it by handle,
partition and home; every refusal leaves the state as it was (R193, R234, R239 to R241, R261, R279 to R282, R314).
What no rule states in it is the model's choice or reading: notes/assumptions/75.md, notes/assumptions/76.md and notes/assumptions/78.md. -/
def Obligations.CommandsApply : Prop :=
  (∀ (home : PkgId) (t : Nat) (a : Applied) (r : CmdRec), r.torn = true →
    a.cmd home t r = { a with out := a.out ++ [(r.part.val, resultEntry (recOp r.bytes) Err.TORN 0 r.stamp 0 0 a.s.step.id 0)] }) ∧
  (∀ (home : PkgId) (t : Nat) (a : Applied) (r : CmdRec), r.torn = false → (payloadUsed (recOp r.bytes)).isSome = true → reservedZero r.bytes = false →
    a.cmd home t r =
      { a with out := a.out ++ [(r.part.val, resultEntry (recOp r.bytes) Err.PARAM (BitVec.ofNat 32 (recHandle r.bytes)) r.stamp 0 (recTag r.bytes) a.s.step.id 0)] }) ∧
  ∀ (home : PkgId) (t : Nat) (r : CmdRec) (s : State),
    let b := r.bytes
    let part := r.part.val
    let op := recOp b
    (op = 0x00 → s.runCmd home t r = (s, some (answerAs b Err.OK))) ∧
    (payloadUsed op = none → s.runCmd home t r = (s, some (answerAs b Err.BAD_OPCODE))) ∧
    ([0x02, 0x03, 0x04, 0x05, 0x07].contains op = true → s.lookup home part (recHandle b) = none →
      s.runCmd home t r = (s, some (answerAs b Err.NO_SEQUENCE))) ∧
    ([0x20, 0x21, 0x22, 0x24].contains op = true → r.admin = false →
      s.runCmd home t r = (s, some (answerAs b Err.MODEL_DENIED))) ∧
    (op = 0x01 → (s.client (clientKey home (fieldAt b 0x14 2))).owner ≠ part →
      s.runCmd home t r = (s, some { code := Err.CLIENT_DENIED, handle := 0, flags := 0, detail := 0 })) ∧
    (op = 0x06 → fieldAt b 0x18 4 ≠ 0 → (s.client (clientKey home (fieldAt b 0x10 2))).owner = part →
      ∃ u, s.runCmd home t r = (u, some (answerAs b Err.OK)) ∧ u = { s with clients := u.clients } ∧
        (u.client (clientKey home (fieldAt b 0x10 2))).rate = fieldAt b 0x14 4 ∧ (u.client (clientKey home (fieldAt b 0x10 2))).burst = fieldAt b 0x18 4 ∧
        ∀ k, k ≠ clientKey home (fieldAt b 0x10 2) → u.client k = s.client k) ∧
    (op = 0x10 → (s.slot (fieldAt b 0x10 1)).st ≠ .ready → fieldAt b 0x10 1 ≤ 63 → s.runCmd home t r = (s, some (answerAs b Err.IMAGE_NOT_READY))) ∧
    (op = 0x21 → r.admin = true → fieldAt b 0x10 1 ≤ 63 → (s.slot (fieldAt b 0x10 1)).st = .ready →
      ∃ u, s.runCmd home t r = (u, some (answerAs b Err.OK)) ∧ (u.slot (fieldAt b 0x10 1)).st = .draining ∧ u.table = s.table ∧ u.cellar = s.cellar) ∧
    (op = 0x22 → r.admin = true → fieldAt b 0x10 1 ≤ 63 → (s.slot (fieldAt b 0x10 1)).st = .ready →
      (s.slotRefs (fieldAt b 0x10 1) ≠ 0 ∨ s.seated = some (fieldAt b 0x10 1)) → s.runCmd home t r = (s, some (answerAs b Err.SLOT_BUSY))) ∧
    (op = 0x24 → r.admin = true → fieldAt b 0x10 1 ≤ 63 → (s.slot (fieldAt b 0x10 1)).st = .evicted →
      s.runCmd home t r = (s, some (answerAs b Err.SLOT_STATE))) ∧
    (op = 0x23 → fieldAt b 0x10 1 ≤ 63 → fieldAt b 0x18 8 % 64 = 0 → home = s.me → s.hostOpen = true → (r.part, r.stamp) ∉ s.pcie.failed →
      ∃ bytes, bytes.length = 64 ∧ s.runCmd home t r = (s.emit (.hostWrite (fieldAt b 0x18 8) bytes), some { answerAs b Err.OK with detail := 64 })) ∧
    (op = 0x20 → r.admin = true → fieldAt b 0x10 8 % 64 ≠ 0 →
      s.runCmd home t r = (s, some { code := Err.PARAM, handle := 0, flags := 0, detail := 0 })) ∧
    ∀ e, s.lookup home part (recHandle b) = some e →
      (op = 0x02 → ∃ u c, s.runCmd home t r = (u, some (answerAs b c)) ∧ (u.seq e).st = .free ∧ (u.seq e).gen = ((s.seq e).gen + 1) % 65536 ∧
        ∀ x, x ≠ e → u.seq x = s.seq x) ∧
      (op = 0x03 → (s.seq e).st ≠ .expired → (s.seq e).st ≠ .errored →
        (86400 < fieldAt b 0x10 4 → s.runCmd home t r = (s, some (answerAs b Err.PARAM))) ∧
        (fieldAt b 0x10 4 ≤ 86400 → ∃ u f, s.runCmd home t r = (u, some (answerAs b Err.OK f)) ∧ (u.seq e).st = .paused ∧
          (u.seq e).ttlEnd = t + (if fieldAt b 0x10 4 = 0 then s.rd SEQ_LOFT_TTL.DEFAULT_S else fieldAt b 0x10 4) * 1000000000 ∧
          ∀ x, x ≠ e → u.seq x = s.seq x)) ∧
      (op = 0x04 → (s.seq e).st ≠ .expired → (s.seq e).st ≠ .errored → (s.seq e).st ≠ .paused →
        s.runCmd home t r = (s, some (answerAs b Err.NOT_PAUSED))) ∧
      (op = 0x05 → (s.seq e).st ≠ .expired → (s.seq e).st ≠ .errored →
        ∃ u f, s.runCmd home t r = (u, some (answerAs b Err.OK f)) ∧
          u.seq e = { s.seq e with prio := min (s.rd SEQ_PART_CTLn.PRIO_MAX 0 part) (fieldAt b 0x10 1) } ∧ ∀ x, x ≠ e → u.seq x = s.seq x) ∧
      (op = 0x07 → fieldAt b 0x10 8 % 64 = 0 → home = s.me →
        (s.hostOpen = true → (r.part, r.stamp) ∉ s.pcie.failed → s.runCmd home t r =
          (s.emit (.hostWrite (fieldAt b 0x10 8) (s.seq e).bytes), some { answerAs b Err.OK with detail := 128 })) ∧
        ((s.hostOpen = false ∨ (r.part, r.stamp) ∈ s.pcie.failed) → s.runCmd home t r = (s, some (answerAs b Err.QUERY_WRITE))))

/-! Results (R277, R283 to R299). -/

/-- What R287 writes of a batch of `n` entries, in its order: everything after the header, with Relaxed Ordering allowed, the header without its phase word,
and the phase word last. -/
def Sys2Proof.Claims.batchWrites (s : State) (p : Nat) (b : Batch) (n : Nat) (more held : Bool) : List Out :=
  let i := (s.ring p).prod.toNat
  let body := (recordsBlock b).take 32 :: (recordsBlock b).drop 32 ::
    ((b.entries.take n).map entryBytes ++ if n % 2 = 1 then [List.replicate 32 0] else [])
  ((List.range body.length).zip body).map (fun k => .hostWrite (s.slotBus p (i + 2 + k.1)) k.2 true) ++
    [.hostWrite (s.slotBus p i) (batchHeader b n more held), .hostWrite (s.slotBus p i + 0x3C) (leBytes 4 ((i / s.ringSize p + 1) % 2))]

/-- The reset bits that a write of POR_CTL carries as a row of the two resets. -/
def Sys2Proof.Claims.resetRows (q : Requester) (p : Part) (v : Word) : List (Instr × Bool × Bool) :=
  [(.ringReset q p v, true, v.getLsbD 2), (.porchReset q p v, v.getLsbD 3, true)]

/-- A turn of the result writes takes the oldest batch of the next partition that has one: a batch that fits is written whole, its phase word last, and the
last of all takes the deferred entries that fit; a longer one is written as far as whole entries fit, with MORE; with the ring off, no way to the host, or
fewer than six slots free, everything is held; a read confirms the batches up to its step once none of the step is held; the vector held back goes out when
its time is over; the resets act on a disabled ring and porch alone (R267, R277, R287, R289, R292, R293, R296, R298, R299).
What no rule states in it is the model's choice or reading: notes/assumptions/5.md, notes/assumptions/24.md, notes/assumptions/74.md,
notes/assumptions/82.md, notes/assumptions/127.md and notes/assumptions/128.md. -/
def Obligations.ResultsReach : Prop :=
  (∀ s : State, (∀ p < 16, s.hasResult p = false) → Does .resultBatchWrite s fun t => t = s) ∧
  (∀ (p : Part) (b : Batch) (hs ds : List Batch) (s : State), nextTurn s.resultTurn s.hasResult = some p.val → b.entries ≠ [] → b.alone = false →
    (((s.ring p.val).held = b :: hs ∧ (s.ring p.val).ready = ds) ∨ ((s.ring p.val).held = [] ∧ hs = [] ∧ (s.ring p.val).ready = b :: ds)) →
    let r := s.ring p.val
    let free := s.ringFree p.val
    let opened := s.ringOn p.val = true ∧ s.hostOpen = true
    let joins := if hs ++ ds ++ r.later = [] then (s.deferredOf p.val).take (free - 4 - b.entries.length) else []
    let c : Batch := { b with entries := b.entries ++ joins.map (·.entry) }
    (opened → batchSlots b.entries.length ≤ free → Does .resultBatchWrite s fun t =>
      (t.ring p.val).due = ds ++ r.later ∧ (t.ring p.val).held = hs ∧ (t.ring p.val).prod = r.prod + BitVec.ofNat 32 (batchSlots c.entries.length) ∧
      (t.ring p.val).unconfirmed = r.unconfirmed ++ [c] ∧ t.deferred = s.deferred.filter (fun d => !joins.contains d) ∧
      (∃ l, t.out = s.out ++ Claims.batchWrites s p.val c c.entries.length (moreOf b.stepId (hs ++ ds ++ r.later)) (decide (hs ≠ [])) ++ l) ∧ t.resultTurn = p.val ∧
      (∀ n, n ≠ p.val → t.ring n = s.ring n) ∧
      t = { s with rings := t.rings, out := t.out, pcie := t.pcie, deferred := t.deferred, resultTurn := t.resultTurn }) ∧
    (opened → free < batchSlots b.entries.length → 6 ≤ free → Does .resultBatchWrite s fun t =>
      (t.ring p.val).due = r.later ∧ (t.ring p.val).held = { b with entries := b.entries.drop (free - 4) } :: hs ++ keptBatches ds ∧
      (t.ring p.val).prod = r.prod + BitVec.ofNat 32 (batchSlots (free - 4)) ∧
      (t.ring p.val).unconfirmed = r.unconfirmed ++ [{ b with entries := b.entries.take (free - 4) }] ∧
      (∃ l, t.out = s.out ++ Claims.batchWrites s p.val b (free - 4) true true ++ l) ∧ t.resultTurn = p.val ∧
      (∀ n, n ≠ p.val → t.ring n = s.ring n) ∧ t = { s with rings := t.rings, out := t.out, pcie := t.pcie, resultTurn := t.resultTurn }) ∧
    ((¬ opened ∨ (free < batchSlots b.entries.length ∧ free < 6)) → Does .resultBatchWrite s fun t =>
      t.ring p.val = { r with due := r.later, held := keptBatches (r.held ++ r.ready) } ∧ t.resultTurn = p.val ∧ (∀ n, n ≠ p.val → t.ring n = s.ring n) ∧
      t = { s with rings := t.rings, out := t.out, pcie := t.pcie, resultTurn := t.resultTurn })) ∧
  (∀ (p : Part) (s : State),
    let r := s.ring p.val
    let us := s.rd POR_IRQ_MOD.TIME_US p.val
    let key := 4096 * (p.val + 1) + 3
    let masked := s.hostOpen = false ∨ (SMap.get (msixDefault key) s.pcie.msix key).toNat % 2 = 1
    ((r.unsignalled = 0 ∨ us = 0 ∨ s.rackTime < r.firstUnsignalled + 1000 * us) → Does (.irqModerationTimeout p) s fun t => t = s) ∧
    (r.unsignalled ≠ 0 → us ≠ 0 → r.firstUnsignalled + 1000 * us ≤ s.rackTime → Does (.irqModerationTimeout p) s fun t =>
      t.ring p.val = { r with unsignalled := 0 } ∧ (∀ n, n ≠ p.val → t.ring n = s.ring n) ∧
      (¬ masked → t.out = s.out ++ [.msix (p.val + 1) 0]) ∧ (masked → t.out = s.out ∧ (p.val + 1, 0) ∈ t.pcie.pba))) ∧
  (∀ (p : Part) (step : DWord) (s : State),
    let r := s.ring p.val
    (((∀ b ∈ r.unconfirmed, b.stepId ≠ step) ∨ ∃ b ∈ r.held ++ r.due, b.stepId = step) → Does (.batchConfirm p step false) s fun t => t = s) ∧
    ((∃ b ∈ r.unconfirmed, b.stepId = step) → (∀ b ∈ r.held ++ r.due, b.stepId ≠ step) → Does (.batchConfirm p step false) s fun t =>
      t = { s with rings := t.rings, out := s.out ++ [.confirmed p step] } ∧ (t.ring p.val).confirmed = step ∧
      (t.ring p.val).unconfirmed = r.unconfirmed.filter (fun b => decide (b.part ≠ p) || decide (step.toNat < b.stepId.toNat)) ∧
      (t.ring p.val).held = r.held ∧ (t.ring p.val).due = r.due ∧ ∀ n, n ≠ p.val → t.ring n = s.ring n) ∧
    Does (.batchConfirm p step true) s fun t =>
      t = { s with pair := t.pair } ∧ (∀ b ∈ t.pair.partnerDue, b ∈ s.pair.partnerDue ∧ (b.part = p → step.toNat < b.stepId.toNat)) ∧
      (∀ m ∈ t.pair.mirrored, ∀ b ∈ m.held ++ m.unconfirmed, b.part = p → step.toNat < b.stepId.toNat)) ∧
  ∀ (q : Requester) (p : Part) (v : Word) (s : State), s.takes q .por p.val = true → ∀ k ∈ Claims.resetRows q p v,
    (k.2.1 = true → s.ringOn p.val = true → Does k.1 s fun t => Claims.onlyRegs (Claims.touched s q) t ∧ Claims.conflictShows t (Block.por.page p.val) 0x100 Err.RING_LIVE) ∧
    ((k.2.1 = false ∨ s.ringOn p.val = false) → k.2.2 = true → s.on POR_CTL.PORCH_ENABLE p.val = true →
      Does k.1 s fun t => Claims.onlyRegs (Claims.touched s q) t ∧ Claims.conflictShows t (Block.por.page p.val) 0x100 Err.PORCH_LIVE) ∧
    ((k.2.1 = false ∨ s.ringOn p.val = false) → (k.2.2 = false ∨ s.on POR_CTL.PORCH_ENABLE p.val = false) → Does k.1 s fun t =>
      (k.2.1 = true → (t.ring p.val).prod = 0 ∧ (t.ring p.val).cons = 0) ∧
      (k.2.1 = false → (t.ring p.val).prod = (s.ring p.val).prod ∧ (t.ring p.val).cons = (s.ring p.val).cons) ∧
      (t.ring p.val).held = (s.ring p.val).held ∧ (t.ring p.val).due = (s.ring p.val).due ∧ t.rd POR_CTL.RING_ENABLE p.val = v.toNat / 2 % 2 ∧
      t.rd POR_CTL.PORCH_ENABLE p.val = v.toNat % 2 ∧ (t.porch p.val).mem = (s.porch p.val).mem ∧ (k.2.2 = true → t.rd POR_TORN.COUNT p.val = 0) ∧
      (v.getLsbD 0 = false → (k.2.2 = true → (t.porch p.val).next = 1) ∧ (k.2.2 = false → (t.porch p.val).next = (s.porch p.val).next) ∧
        (t.porch p.val).tornFrom = none ∧ t = { Claims.touched s q with porches := t.porches, regs := t.regs, rings := t.rings }) ∧
      ∀ n, n ≠ p.val → t.ring n = s.ring n ∧ t.porch n = s.porch n)

/-! Loads and repairs (R305 to R330, R352). -/

/-- This package's report of a load phase of a slot stands with a code (R315). -/
def Sys2Proof.Claims.reports (t : State) (n phase : Nat) (code : Code) : Prop := ∃ r, (t.slot n).report = some r ∧ r.slot = n ∧ r.phase = phase ∧ r.code = code

/-- Nothing but slot `n` differs. -/
def Sys2Proof.Claims.onlySlot (s t : State) (n : Nat) : Prop := t = { s with slots := t.slots } ∧ ∀ m, m ≠ n → t.slot m = s.slot m

/-- The cellar holds `b` from `a` up, and is as before elsewhere. -/
def Sys2Proof.Claims.cellarNow (s t : State) (a : Nat) (b : Bytes) : Prop := Claims.cellarHas s t a b.length fun i => b.getD i 0

/-- The bytes that stand in the cellar for shard `k` of slot `n` once `b` has arrived for it: `b` with the relocated fields moved to the footprint (R308, R330). -/
def Sys2Proof.Claims.shardBytes (s : State) (n k : Nat) (b : Bytes) : Bytes := s.relocShard n k (s.slotBase n) b

/-- What this package asks for to have shard `k` of slot `n`: its partner's copy, the peer's, for which it names the shard as its manifest has it, or a read of
the host, which a link that carries no traffic carries not (R272, R316, R317). -/
def Sys2Proof.Claims.askedFor (s : State) (n k : Nat) : List Out :=
  let e := manShard (s.slot n).manifest k
  if s.readsShard k = false then [.askShard s.partner n k]
  else if (s.slot n).peer = true then [.askPeer (s.peerOf n) (s.slot n).modelId (s.slot n).version k (manShardBytes (s.slot n).manifest k)]
  else if s.hostOpen = true then [.hostRead (s.rd64 MDL_HOST_BASE_LO.ADDRESS + e.source) e.len]
  else []

/-- No memory, core or sequence differs, nor any slot but `n`. -/
def Sys2Proof.Claims.slotWork (s t : State) (n : Nat) : Prop :=
  t.cellar = s.cellar ∧ t.cores = s.cores ∧ t.table = s.table ∧ t.step = s.step ∧ ∀ j, j ≠ n → t.slot j = s.slot j

/-- Work sends `ws`, after what rising from Glow sends (R470). -/
def Sys2Proof.Claims.sends (s t : State) (ws : List Out) : Prop := ∃ l, t.out = s.out ++ l ++ ws ∧ (s.power.fire = .burning → l = [])

/-- The manifest `b` of slot `n` is held, in the slot and in the manifest area of the cellar (R302, R315). -/
def Sys2Proof.Claims.manifestHeld (s t : State) (n : Nat) (b : Bytes) : Prop :=
  t = { s with slots := t.slots, cellar := t.cellar, cel := t.cel, out := t.out } ∧ (∀ m, m ≠ n → t.slot m = s.slot m) ∧
    (t.slot n).manifest = b ∧ (t.slot n).modelId = (s.slot n).modelId ∧ Claims.reports t n 0 Err.OK ∧ Claims.cellarNow s t (s.manifestAddr n) b

/-- A load's phases: the home reads, checks and sends the manifest, which every member holds in its manifest area and of which it checks the signature again; a
shard is written once its root holds, asked for again at its first failure, and reported at its second; VERIFYING reports the first check that fails; a
re-check of the next shard marks a bad one, asks the partner for it and hands the work over; a repair writes a good copy, or asks for the next one; a failing
block whose shard is sound is a fault of the stream, unless its context was stopped, and a restart that waited for the re-hash goes on (R272, R302, R305 to R319, R329, R330, R352).
What no rule states in it is the model's choice or reading: notes/assumptions/25.md, notes/assumptions/80.md and notes/assumptions/125.md. -/
def Obligations.Loads : Prop :=
  (∀ (m : SlotIdx) (x : Option Bytes) (fields : List DWord) (s : State),
    (((s.slot m.toNat).st ≠ .loadManifest ∨ (s.slot m.toNat).report.isSome = true) →
      Does (.manifestReadComplete m x fields) s (fun t => t = s) ∧ ∀ b, Does (.manifestReceive m b) s fun t => t = s) ∧
    ((s.slot m.toNat).home ≠ s.me → Does (.manifestReadComplete m x fields) s fun t => t = s)) ∧
  (∀ (m : SlotIdx) (fields : List DWord) (s : State),
    let n := m.toNat
    (s.slot n).st = .loadManifest → (s.slot n).report = none →
      (∀ b, (s.manSigOk b = false → Does (.manifestReceive m b) s fun t => Claims.onlySlot s t n ∧ Claims.reports t n 0 Err.MANIFEST_SIG) ∧
        (s.manSigOk b = true → Does (.manifestReceive m b) s fun t => Claims.manifestHeld s t n b ∧ t.out = s.out)) ∧
      ((s.slot n).home = s.me →
        (Does (.manifestReadComplete m none fields) s fun t => Claims.onlySlot s t n ∧ Claims.reports t n 0 Err.LOAD_SOURCE) ∧
        ∀ b,
          let formed := b.length = (s.slot n).manifestLen ∧ manFormatOk b = true ∧ manRelocsOk b fields = true
          (¬ formed → Does (.manifestReadComplete m (some b) fields) s fun t => Claims.onlySlot s t n ∧ Claims.reports t n 0 Err.MANIFEST_FORMAT) ∧
          (formed → s.manSigOk b = false → Does (.manifestReadComplete m (some b) fields) s fun t =>
            Claims.onlySlot s t n ∧ Claims.reports t n 0 Err.MANIFEST_SIG) ∧
          (formed → s.manSigOk b = true → manPairs b ≠ s.pairs → Does (.manifestReadComplete m (some b) fields) s fun t =>
            Claims.onlySlot s t n ∧ Claims.reports t n 0 Err.PAIRS_MISMATCH) ∧
          (formed → s.manSigOk b = true → manPairs b = s.pairs → Does (.manifestReadComplete m (some b) fields) s fun t =>
            Claims.manifestHeld s t n b ∧ t.out = s.out ++ s.others.map fun d => .sendManifest d n))) ∧
  (∀ (m : SlotIdx) (k o a : Nat) (s : State),
    let n := m.toNat
    s.shardPlace n k = some (o, a) →
    (((s.slot n).st ≠ .loadShards ∨ (s.slot n).done.contains k = true ∨ (s.slot n).report.isSome = true) → ∀ d, Does (.shardArrival m k d) s fun t => t = s) ∧
    ((s.slot n).st = .loadShards → (s.slot n).done.contains k = false → (s.slot n).report = none →
      (∀ (d : Option Bytes), (∀ b ∈ d, s.arrivalGood n k b = false) →
        let key := 2 * k + if d.isSome = true then 1 else 0
        let code := if d.isSome = true then Err.SHARD_DIGEST else Err.LOAD_SOURCE
        ((s.slot n).failedOnce.contains key = true → Does (.shardArrival m k d) s fun t =>
          Claims.slotWork s t n ∧ Claims.reports t n 2 code) ∧
        ((s.slot n).failedOnce.contains key = false → Does (.shardArrival m k d) s fun t =>
          Claims.slotWork s t n ∧ Claims.sends s t (Claims.askedFor s n k) ∧
          t.slot n = { s.slot n with failedOnce := (s.slot n).failedOnce ++ [key] })) ∧
      ∀ b, s.arrivalGood n k b = true → Does (.shardArrival m k (some b)) s fun t =>
        Claims.cellarNow s t a b ∧ k ∈ (t.slot n).done ∧ t.cores = s.cores ∧ t.table = s.table ∧ (∀ j, j ≠ n → t.slot j = s.slot j) ∧
        Claims.sends s t (if s.readsShard k = true ∧ s.survivor = false then [.sendShard s.partner n k] else []) ∧
        ((∀ j ∈ s.slotShards n, j = k ∨ j ∈ (s.slot n).done) → Claims.reports t n 2 Err.OK) ∧
        ((∃ j ∈ s.slotShards n, j ≠ k ∧ j ∉ (s.slot n).done) → (t.slot n).report = none))) ∧
  (∀ (m : SlotIdx) (s : State),
    let n := m.toNat
    (((s.slot n).st ≠ .verifying ∨ (s.slot n).report.isSome = true) → Does (.objectVerifyComplete m) s fun t => t = s) ∧
    ((s.slot n).st = .verifying → (s.slot n).report = none →
      (∀ c, s.verifyCode n = some c → Does (.objectVerifyComplete m) s fun t => Claims.onlySlot s t n ∧ Claims.reports t n 3 c) ∧
      (s.verifyCode n = none → Does (.objectVerifyComplete m) s fun t =>
        t = { s with slots := t.slots, cellar := t.cellar } ∧ Claims.reports t n 3 Err.OK ∧ ∀ j, j ≠ n → t.slot j = s.slot j))) ∧
  (∀ (m : SlotIdx) (k : Nat) (es : Errs) (s : State),
    let n := m.toNat
    let found := (s.sweepWake.hashShard n k es).1
    ((s.recheckNext (n, k) = false ∨ s.sweepMay = false) → Does (.shardRecheck m k es) s fun t => t = s) ∧
    (∀ o a, s.shardPlace n k = some (o, a) → Claims.noInjection s → es = [] → s.celBad a (manShard (s.slot n).manifest k).len = false →
      found = some (s.shardGood n k)) ∧
    (s.recheckNext (n, k) = true → s.sweepMay = true →
      (found = none → Does (.shardRecheck m k es) s fun t => t.cellar = s.cellar ∧ t.slots = s.slots ∧ t.table = s.table) ∧
      (found = some true → Does (.shardRecheck m k es) s fun t =>
        Claims.slotWork s t n ∧ SMap.get 0 (t.slot n).checkedAt k = s.rackTime ∧ k ∉ (t.slot n).recheckFirst) ∧
      (found = some false → Does (.shardRecheck m k es) s fun t =>
        k ∈ (t.slot n).bad ∧ t.rd MDL_REPAIR.BAD = min (s.rd MDL_REPAIR.BAD + 1) (2 ^ MDL_REPAIR.BAD.width - 1) ∧ t.cellar = s.cellar ∧
        .askShard s.partner n k ∈ t.out ∧ (s.pair.member = .paired → t.pair.member = .out) ∧
        (s.pair.member = .alone → t.pair.member = .alone ∧ Claims.reports t n 4 Err.SHARD_DIGEST)))) ∧
  (∀ (m : SlotIdx) (k o a : Nat) (copy : Option Bytes) (s : State),
    let n := m.toNat
    let i := SMap.get 0 (s.slot n).tried k
    let j := if 4 ≤ i then 1 else i + 1
    let e := manShard (s.slot n).manifest k
    ((s.slot n).bad.contains k = false → Does (.shardRepair m k copy) s fun t => t = s) ∧
    ((s.slot n).bad.contains k = true → s.shardPlace n k = some (o, a) →
      ((∀ b ∈ copy, s.arrivalGood n k b = false) → Does (.shardRepair m k copy) s fun t =>
        (t.slot n).noCopy = ((s.slot n).noCopy || decide (4 ≤ i)) ∧ SMap.get 0 (t.slot n).tried k = j ∧ k ∈ (t.slot n).bad ∧ t.cellar = s.cellar ∧
        t.pair = s.pair ∧ (∀ x, x ≠ n → t.slot x = s.slot x) ∧
        ∃ l, t.out = s.out ++ l ++ (if s.ownRead k j = false then [.askShard s.partner n k]
          else if s.hostOpen = true then [.hostRead (s.rd64 MDL_HOST_BASE_LO.ADDRESS + e.source) e.len] else [])) ∧
      ∀ b, copy = some b → s.arrivalGood n k b = true → Does (.shardRepair m k copy) s fun t =>
        Claims.cellarNow s t a (Claims.shardBytes s n k b) ∧ k ∉ (t.slot n).bad ∧
        (t.slot n).noCopy = ((s.slot n).noCopy && decide ((s.slot n).bad.filter (· ≠ k) ≠ [])) ∧
        SMap.get 0 (t.slot n).checkedAt k = s.rackTime ∧
        t.rd MDL_REPAIR.REPAIRED = min (s.rd MDL_REPAIR.REPAIRED + 1) (2 ^ MDL_REPAIR.REPAIRED.width - 1) ∧ (∀ x, x ≠ n → t.slot x = s.slot x) ∧
        (s.pair.member = .alone →
          ((s.slot n).bad.filter (· ≠ k) = [] → Claims.reports t n 4 Err.OK) ∧
          ((s.slot n).bad.filter (· ≠ k) ≠ [] → (t.slot n).report = (s.slot n).report)))) ∧
  ∀ (c : CoreId) (x : CtxId) (es : Errs) (s : State),
    ((∀ r ∈ (s.core c).rehash, r.ctx ≠ x.toNat) → Does (.streamShardRehash c x es) s fun t => t = s) ∧
    ∀ r, (s.core c).rehash.find? (fun r => decide (r.ctx = x.toNat)) = some r →
      let rest := (s.core c).rehash.filter fun q => decide (q ≠ r)
      let found := (s.hashShard r.slot r.shard es).1
      let faulted := ((s.core c).ctx x).st = .faulted ∧ r.gone = false
      (∀ o a, s.shardPlace r.slot r.shard = some (o, a) → Claims.noInjection s → es = [] →
        s.celBad a (manShard (s.slot r.slot).manifest r.shard).len = false → found = some (s.shardGood r.slot r.shard)) ∧
      (s.step.restartDue = false →
        (found = some true → ¬ faulted → Does (.streamShardRehash c x es) s fun t =>
          s.otherCores t c ∧ t.core c = { s.core c with rehash := rest } ∧ t.cellar = s.cellar ∧ t.slots = s.slots ∧ t.step = s.step) ∧
        (found = some true → faulted → Does (.streamShardRehash c x es) s fun t =>
          (t.ctxOf c x).st = .faulted ∧ (t.core c).rehash = rest ∧ s.otherCores t c ∧ t.cellar = s.cellar ∧ t.slots = s.slots) ∧
        (found ≠ some true → Does (.streamShardRehash c x es) s fun t =>
          r.shard ∈ (t.slot r.slot).bad ∧ (t.core c).rehash = rest ∧ t.cellar = s.cellar ∧ (s.pair.member = .paired → t.pair.member = .out))) ∧
      (s.step.restartDue = true → found = some true → ¬ faulted → SMap.wf Core.reset s.cores = true →
        (((∃ y, y ≠ c.toNat ∧ (s.core y).rehash ≠ []) ∨ rest ≠ []) → Does (.streamShardRehash c x es) s fun t =>
          s.otherCores t c ∧ t.core c = { s.core c with rehash := rest } ∧ t.cellar = s.cellar ∧ t.slots = s.slots ∧ t.step = s.step) ∧
        ((∀ y, y ≠ c.toNat → (s.core y).rehash = []) → rest = [] → s.step.active = true → s.step.attempt < 7 → Does (.streamShardRehash c x es) s fun t =>
          t.step.attempt = s.step.attempt + 1 ∧ t.step.restartDue = false ∧ t.step.id = s.step.id))

/-! Heartbeats and losing a partner (R418 to R437). -/

/-- TAKEOVER has gone to every member in ascending order, this package among them, with its check and the survivor's values (R390, R430). -/
def Sys2Proof.Claims.tookOver (s t : State) (reason : Nat) : Prop :=
  ∃ b l, takeoverOk b = true ∧ fieldAt b 1 1 = reason ∧ fieldAt b 2 1 = s.pairNum % 256 ∧ fieldAt b 3 1 = (s.step.attempt + 1) % 256 ∧
    fieldAt b 4 1 = s.me.toNat ∧ fieldAt b 5 1 = s.partner.toNat ∧ fieldAt b 8 8 = s.step.id % 2 ^ 64 ∧
    t.out = s.out ++ l ++ s.pair.members.map (fun d => .chimney d b)

/-- Work stops where it is: no memory, table or slot differs (R433, R436). -/
def Sys2Proof.Claims.storesKept (s t : State) : Prop :=
  t.cellar = s.cellar ∧ t.table = s.table ∧ t.kv = s.kv ∧ t.slots = s.slots ∧ t.porches = s.porches ∧ t.kept.serial = s.kept.serial

/-- The same, and no result either. -/
def Sys2Proof.Claims.memoriesKept (s t : State) : Prop := Claims.storesKept s t ∧ t.rings = s.rings

/-- The package has gone OUT with no step in hand; its accepted records and its results are its partner's now (R22, R435, R436). -/
def Sys2Proof.Claims.wentOut (s t : State) : Prop :=
  t.pair.member = .out ∧ t.step.active = false ∧ t.step.descs = [] ∧ Claims.storesKept s t ∧ t.accepted = [] ∧ t.deferred = [] ∧
    ∀ p, (t.ring p).due = [] ∧ (t.ring p).held = [] ∧ (t.ring p).unconfirmed = [] ∧ (t.ring p).prod = (s.ring p).prod

/-- The household has halted for this member, which has told the others (R433). -/
def Sys2Proof.Claims.haltedHere (s t : State) : Prop :=
  t.pair.member = .halted ∧ t.step.active = false ∧ Claims.memoriesKept s t ∧
    ∃ b, abortOk b = true ∧ fieldAt b 2 2 = Err.HOUSEHOLD_HALT.toNat ∧ ∀ d ∈ s.others, .chimney d b ∈ t.out

/-- The partner of a PAIRED package is declared lost (R428): a claim to the arbiter of a larger household; in a household of one pair position 0 takes over and position 1
goes OUT. -/
def Sys2Proof.Claims.declared (s t : State) : Prop :=
  (s.pairs ≤ 1 → s.position = 0 → Claims.tookOver s t 1 ∧ t.pair.member = .paired) ∧ (s.pairs ≤ 1 → s.position = 1 → Claims.wentOut s t) ∧
    ∀ a, 1 < s.pairs → s.arbiter s.pairNum = some a →
      t.pair = { s.pair with claimAt := some s.rackTime, linkDown := t.pair.linkDown } ∧ t.step = s.step ∧
        ∃ l, t.out = s.out ++ l ++ [.claim a s.pairNum s.step.attempt]

/-- A heartbeat goes out and PAIR_ALIVE toggles every 10 µs in the states that beat; either is heard; a silent link with a living partner goes to the survivor of
position 0 and silence on both is a claim; a silent PAIR_ALIVE beside a heard link is a fault of the wire alone; an ALONE member hears its REJOINING partner, sends it the copy, and stops
copying when it falls silent; after a wake nothing is silent until the link has had its
time to retrain (R420, R421, R427, R428, R473).
What no rule states in it is the model's choice or reading: notes/assumptions/47.md and notes/assumptions/103.md. -/
def Obligations.Heartbeats : Prop :=
  (∀ s : State,
    (s.beats = true → s.resting = false → 8 ≤ s.pairLanes → s.silenced = false → Does .heartbeatSend s fun t => t = s.emit .heartbeat) ∧
    ((s.beats = false ∨ s.resting = true ∨ s.pairLanes < 8 ∨ s.silenced = true) → Does .heartbeatSend s fun t => t = s) ∧
    (s.resting = false → (s.pair.member ≠ .alone ∨ s.pair.copying = true) → Does .heartbeatReceive s fun t =>
      t.pair = { s.pair with lastHb := s.rackTime + 1, linkDown := false } ∧ t.step = s.step ∧ t.cores = s.cores ∧ Claims.memoriesKept s t ∧
      ((s.beats = false ∨ s.aliveHeard = true) → t = { s with pair := t.pair })) ∧
    (s.resting = false → s.pair.member = .alone → s.pair.copying = false → Does .heartbeatReceive s fun t =>
      t = { s with pair := t.pair, out := s.out ++ [.rejoinCopy (s.rejoinCopy [] true)] } ∧
      t.pair = { s.pair with lastHb := s.rackTime + 1, linkDown := false, copying := true, aliveFrom := s.rackTime + 1 }) ∧
    (s.resting = true → Does .heartbeatReceive s fun t => t = s) ∧
    (s.beats = true → s.silenced = false → Does .pairAliveToggle s fun t =>
      t = { s with pair := { s.pair with aliveOut := !s.pair.aliveOut }, out := s.out ++ [.pin "PAIR_ALIVE_OUT" (!s.pair.aliveOut)] }) ∧
    (s.beats = true → s.silenced = true → Does .pairAliveToggle s fun t =>
      Claims.onlyRegs s t ∧ t.rd PG_PTB_STS.LEFT (Block.pair.page 0) = s.rd PG_PTB_STS.LEFT (Block.pair.page 0) - 1) ∧
    (s.beats = false → Does .pairAliveToggle s fun t => t = s) ∧
    Does .pairAliveEdge s fun t => t = { s with pair := { s.pair with lastAlive := s.rackTime + 1 }, mgmt := t.mgmt } ∧ t.aliveHeard = true) ∧
  (∀ s : State,
    let copies := s.pair.member = .alone ∧ s.pair.copying = true
    ((s.resting = true ∨ s.retraining = true ∨ s.linkHeard = true ∨ (s.pair.member ≠ .paired ∧ s.pair.member ≠ .rejoining ∧ ¬ copies)) →
      Does .pairLinkSilent s fun t => t = s) ∧
    (s.resting = false → s.retraining = false → s.linkHeard = false → copies →
      (s.aliveHeard = true → Does .pairLinkSilent s fun t =>
        t.pair = { s.pair with copying := false, linkDown := true } ∧ t.step = s.step ∧ t.cores = s.cores ∧ Claims.memoriesKept s t) ∧
      (s.aliveHeard = false → Does .pairLinkSilent s fun t => t = { s with pair := { s.pair with copying := false } })) ∧
    (s.resting = false → s.retraining = false → s.linkHeard = false → s.pair.member = .paired →
      (s.aliveHeard = true → s.position = 1 → Does .pairLinkSilent s fun t => Claims.wentOut s t ∧ t.pair.linkDown = true) ∧
      (s.aliveHeard = true → s.position = 0 → Does .pairLinkSilent s fun t =>
        Claims.tookOver s t 3 ∧ t.pair.member = .paired ∧ t.pair.linkDown = true ∧ Claims.memoriesKept s t) ∧
      (s.aliveHeard = false → s.pair.claimAt = none → Does .pairLinkSilent s fun t => Claims.declared s t) ∧
      (s.aliveHeard = false → s.pair.claimAt.isSome = true → Does .pairLinkSilent s fun t => t = s)) ∧
    (s.resting = false → s.retraining = false → s.linkHeard = false → s.pair.member = .rejoining →
      (s.aliveHeard = true → Does .pairLinkSilent s fun t => Claims.wentOut s t) ∧
      (s.aliveHeard = false → Does .pairLinkSilent s fun t => Claims.haltedHere s t))) ∧
  (∀ s : State,
    let copies := s.pair.member = .alone ∧ s.pair.copying = true
    (s.aliveHeard = true → Does .pairAliveSilent s fun t => t = s) ∧
    (s.aliveHeard = false →
      (s.power.fire ≠ .ember → s.power.fire ≠ .banked → (s.retraining = true ∨ (s.pair.member ≠ .paired ∧ s.pair.member ≠ .rejoining ∧ ¬ copies)) →
        Does .pairAliveSilent s fun t => t = s) ∧
      (s.power.fire ≠ .ember → s.power.fire ≠ .banked → s.retraining = false →
        (s.linkHeard = true → (s.pair.member = .paired ∨ s.pair.member = .rejoining ∨ copies) → Does .pairAliveSilent s fun t =>
          t.pair = s.pair ∧ t.step = s.step ∧ t.cores = s.cores ∧ Claims.memoriesKept s t) ∧
        (s.linkHeard = false → s.pair.member = .paired → s.pair.claimAt = none → Does .pairAliveSilent s fun t => Claims.declared s t) ∧
        (s.linkHeard = false → s.pair.member = .rejoining → Does .pairAliveSilent s fun t => Claims.haltedHere s t) ∧
        (s.linkHeard = false → copies → Does .pairAliveSilent s fun t => t = { s with pair := { s.pair with copying := false } })) ∧
      ((s.power.fire = .ember ∨ s.power.fire = .banked) → (s.pair.member = .paired ∨ s.pair.member = .alone) → Does .pairAliveSilent s fun t =>
        t.power.fire = .glow ∧ t.rd PWR_STATE_STS.LAST_WAKE = 6 ∧ t.pair = { s.pair with idleFrom := [], wokeAt := some s.rackTime } ∧ t.cellar = s.cellar ∧
        t.step = s.step))) ∧
  ∀ s : State,
    ((8 ≤ s.pairLanes ∨ s.retraining = true) → Does .pairLinkDown s fun t => t = s) ∧
    (s.pairLanes < 8 → s.retraining = false →
      (s.resting = true → Does .pairLinkDown s fun t => t = { s with pair := { s.pair with linkDown := true } }) ∧
      (s.resting = false → s.pair.member = .paired → s.aliveHeard = true →
        (s.position = 1 → Does .pairLinkDown s fun t => Claims.wentOut s t ∧ t.pair.linkDown = true) ∧
        (s.position = 0 → Does .pairLinkDown s fun t => Claims.tookOver s t 3 ∧ t.pair.member = .paired ∧ t.pair.linkDown = true)) ∧
      (s.resting = false → s.pair.member = .alone → Does .pairLinkDown s fun t =>
        t.pair = { s.pair with linkDown := true, copying := false } ∧ t.step = s.step ∧ t.cores = s.cores ∧ Claims.memoriesKept s t) ∧
      (s.resting = false → s.pair.member = .paired → s.aliveHeard = false →
        (s.pair.claimAt = none → Does .pairLinkDown s fun t => Claims.declared s t ∧ t.pair.linkDown = true) ∧
        (s.pair.claimAt.isSome = true → Does .pairLinkDown s fun t => t = { s with pair := { s.pair with linkDown := true } })))

/-- The attempt has restarted (R431, R534): the same list under the next attempt, the epoch moved on, the message units empty, the barriers at phase 0. -/
def Sys2Proof.Claims.restarted (s t : State) : Prop :=
  t.step.attempt = s.step.attempt + 1 ∧ t.step.id = s.step.id ∧ t.step.items = s.step.items ∧ t.pair.epoch = (s.pair.epoch + 1) % 256 ∧
    t.kv = { s.kv with slots := [] } ∧ t.table = s.table ∧ t.cellar = s.cellar ∧
    (∀ b, t.barrier b = { Barrier.reset with count := (s.barrier b).count }) ∧
    ∀ c, (t.core c).dmas = [] ∧ (t.core c).sends = [] ∧ (t.core c).rqs = [] ∧ (t.core c).held = []

/-- One claim is granted for a pair in an attempt; a grant sends TAKEOVER, a denial or 100 µs of silence puts the claimant OUT; a hand-over by either side is taken up
or halts the household; a TAKEOVER is applied once, gives the lost home's sequences to the survivor and makes it serve ALONE, or halts a household that has
lost a pair; a STEP_ABORT of the attempt in progress is acknowledged and restarts it, once no shard waits to be re-hashed, and one of the household's halt halts
this member; the partner's MIRROR_MISMATCH counts here too; an unacknowledged STEP_ABORT goes out again after 20 µs; FORCE acts only in an OUT position 1 of
one pair, and reads 1 until its takeover is made; MGT_MAINT.HANDOVER acts only in PAIRED (R10, R11, R425, R428 to R434, R496, R533, R534).
What no rule states in it is the model's choice or reading: notes/assumptions/31.md and notes/assumptions/47.md. -/
def Obligations.ClaimsAndTakeovers : Prop :=
  (∀ (frm : PkgId) (pair attempt : Nat) (s : State),
    (s.arbiter pair ≠ some s.me ∨ (s.pair.member ≠ .paired ∧ s.pair.member ≠ .alone) → Does (.claim frm pair attempt) s fun t => t = s) ∧
    (s.arbiter pair = some s.me → (s.pair.member = .paired ∨ s.pair.member = .alone) →
      ((pair, attempt) ∉ s.pair.grants → Does (.claim frm pair attempt) s fun t =>
        t = { s with pair := { s.pair with grants := s.pair.grants ++ [(pair, attempt)] }, out := s.out ++ [.claimAnswer frm true] }) ∧
      ((pair, attempt) ∈ s.pair.grants → Does (.claim frm pair attempt) s fun t => t = s.emit (.claimAnswer frm false)))) ∧
  (∀ s : State,
    (s.pair.claimAt = none → Does .claimGrant s (fun t => t = s) ∧ Does .claimDeny s (fun t => t = s) ∧ Does .claimTimeout s fun t => t = s) ∧
    ∀ a, s.pair.claimAt = some a → s.pair.member = .paired →
      (Does .claimGrant s fun t => Claims.tookOver s t 1 ∧ t.pair = { s.pair with claimAt := none } ∧ Claims.memoriesKept s t) ∧
      (Does .claimDeny s fun t => Claims.wentOut s t ∧ t.pair.claimAt = none) ∧
      (s.rackTime < a + 100000 → Does .claimTimeout s fun t => t = s) ∧
      (a + 100000 ≤ s.rackTime → Does .claimTimeout s fun t => Claims.wentOut s t ∧ t.pair.claimAt = none)) ∧
  (∀ (code : Code) (s : State),
    (s.beats = false → Does (.handover code) s fun t => t = s) ∧
    ((s.pair.member = .paired ∨ s.pair.member = .rejoining) → Does (.handover code) s fun t =>
      Claims.wentOut s t ∧ ∃ l, t.out = s.out ++ l ∧ (s.pair.member = .paired → .handover ∈ l)) ∧
    (s.pair.member = .alone → Does (.handover code) s fun t => Claims.haltedHere s t)) ∧
  (∀ s : State,
    (s.pair.member = .paired → Does .handoverReceive s fun t => Claims.tookOver s t 2 ∧ t.pair = s.pair ∧ Claims.memoriesKept s t) ∧
    ((s.pair.member = .out ∨ s.pair.member = .rejoining) → Does .handoverReceive s fun t => Claims.haltedHere s t) ∧
    ((s.pair.member = .outside ∨ s.pair.member = .alone ∨ s.pair.member = .halted) → Does .handoverReceive s fun t => t = s)) ∧
  (∀ (b : Bytes) (s : State),
    (takeoverOk b = false → Does (.takeover b) s fun t => t.pair = s.pair ∧ t.step = s.step ∧ t.cores = s.cores ∧ Claims.memoriesKept s t) ∧
    (takeoverOk b = true →
      ((s.pair.member = .outside ∨ s.pair.member = .halted ∨ (fieldAt b 2 1, fieldAt b 8 8, fieldAt b 3 1) ∈ s.pair.takeovers) →
        Does (.takeover b) s fun t => t = s) ∧
      (s.pair.member ≠ .outside → s.pair.member ≠ .halted → (fieldAt b 2 1, fieldAt b 8 8, fieldAt b 3 1) ∉ s.pair.takeovers → s.step.attempt < 7 →
        let survivor : PkgId := BitVec.ofNat 7 (fieldAt b 4 1)
        let lost : PkgId := BitVec.ofNat 7 (fieldAt b 5 1)
        let left := (s.pair.lost.filter fun x => decide (x ≠ survivor) && decide (x ≠ lost)) ++ [lost]
        Does (.takeover b) s fun t =>
          t.pair.lost = left ∧ (fieldAt b 2 1, fieldAt b 8 8, fieldAt b 3 1) ∈ t.pair.takeovers ∧ t.cellar = s.cellar ∧
          (∀ e, (s.seq e).st ≠ .free → t.seq e = { s.seq e with home := if (s.seq e).home = lost then survivor else (s.seq e).home }) ∧
          ((∃ p ∈ s.pair.members, p ∈ left ∧ p ^^^ 2 ∈ left) → t.pair.member = .halted) ∧
          ((∀ p ∈ s.pair.members, p ∈ left → p ^^^ 2 ∉ left) → s.step.heldList = none →
            (survivor = s.me → t.pair.member = .alone ∧ t.rd PAIR_STS.TAKEOVERS = min (s.rd PAIR_STS.TAKEOVERS + 1) 0xFFFF) ∧
            (survivor ≠ s.me → lost = s.me → s.pair.member = .paired → t.pair.member = .out ∨ t.pair.member = .rejoining) ∧
            (survivor ≠ s.me → lost ≠ s.me → s.pair.member ≠ .out → t.pair.member = s.pair.member))))) ∧
  (∀ (b : Bytes) (s : State),
    let origin : PkgId := BitVec.ofNat 7 (fieldAt b 4 1)
    let code := fieldAt b 2 2
    let named := fieldAt b 8 8 = s.step.id ∧ fieldAt b 1 1 = s.step.attempt
    let mine := s.step.active = true ∧ named ∧ code ≠ Err.HOUSEHOLD_HALT.toNat
    let acks := if origin = s.me then [] else [Out.abortAck origin]
    let noted := code = Err.MIRROR_MISMATCH.toNat ∧ origin = s.partner ∧ s.step.mirrorAt ≠ some (s.step.id, s.step.attempt)
    (abortOk b = false → Does (.stepAbort b) s fun t => t.pair = s.pair ∧ t.step = s.step ∧ t.cores = s.cores ∧ Claims.memoriesKept s t) ∧
    (abortOk b = true →
      (s.pair.member = .outside → Does (.stepAbort b) s fun t => t = s) ∧
      (s.pair.member ≠ .outside → (¬ named ∨ (¬ mine ∧ code ≠ Err.HOUSEHOLD_HALT.toNat)) → Does (.stepAbort b) s fun t =>
        t = { s with out := s.out ++ acks }) ∧
      (s.pair.member ≠ .outside → s.pair.member ≠ .halted → named → code = Err.HOUSEHOLD_HALT.toNat → origin ∈ s.pair.members → Does (.stepAbort b) s fun t =>
        t.pair.member = .halted ∧ t.step.active = false ∧ Claims.memoriesKept s t ∧ ∃ l, t.out = s.out ++ acks ++ l) ∧
      (s.pair.member = .paired → mine → noted → s.mirrorMine = true → Does (.stepAbort b) s fun t => Claims.wentOut s t) ∧
      (s.pair.member = .paired → mine → noted → Does (.stepAbort b) s fun t =>
        t.rd PAIR_MIRROR.MISMATCHES = min (s.rd PAIR_MIRROR.MISMATCHES + 1) (2 ^ PAIR_MIRROR.MISMATCHES.width - 1)) ∧
      ((s.pair.member = .paired ∨ s.pair.member = .alone) → mine → ¬ noted →
        (s.cores.any (fun k => decide (k.2.rehash ≠ [])) = true → Does (.stepAbort b) s fun t =>
          t = { s with step := { s.step with restartDue := true, remoteAborts := t.step.remoteAborts }, out := s.out ++ acks }) ∧
        (s.cores.any (fun k => decide (k.2.rehash ≠ [])) = false → s.step.attempt < 7 → s.seated = some s.step.modelSlot → s.step.seating = [] →
          s.step.heldList = none → SMap.wf Barrier.reset s.barriers = true → Does (.stepAbort b) s fun t =>
          Claims.restarted s t ∧ (origin ≠ s.me → ∃ l, t.out = s.out ++ .abortAck origin :: l))))) ∧
  (∀ (d : PkgId) (s : State),
    (s.pair.lastAbort ≠ [] → d ∈ s.others → s.pair.abortAt + 20000 ≤ s.rackTime → Does (.stepAbortResend d) s fun t =>
      t = s.emit (.chimney d s.pair.lastAbort)) ∧
    ((s.pair.lastAbort = [] ∨ d ∉ s.others ∨ s.rackTime < s.pair.abortAt + 20000) → Does (.stepAbortResend d) s fun t => t = s)) ∧
  (∀ (q : Requester) (s : State), s.takes q .pair = true →
    (s.pairs = 1 → s.position = 1 → s.pair.member = .out → s.on PAIR_MAINT.FORCE = false → Does (.force q) s fun t =>
      Claims.tookOver s t 1 ∧ t.pair = s.pair ∧ t.rd PAIR_MAINT.FORCE = 1) ∧
    ((s.pairs ≠ 1 ∨ s.position ≠ 1 ∨ s.pair.member ≠ .out ∨ s.on PAIR_MAINT.FORCE = true) → Does (.force q) s fun t => t = Claims.touched s q)) ∧
  ∀ (q : Requester) (s : State), s.takes q .mgt = true →
    (s.pair.member = .paired → Does (.mgtHandover q) s fun t => Claims.wentOut s t) ∧
    (s.pair.member ≠ .paired → Does (.mgtHandover q) s fun t => Claims.onlyRegs (Claims.touched s q) t ∧ Claims.conflictShows t 2 0x10C Err.HANDOVER_STATE)

/-! Membership (R423, R433, R436, R437, R519 to R522). -/

/-- The lanes that a plan names have all taken an outcome (R520). -/
def Sys2Proof.Claims.lanesSettled (s : State) : Prop := ∀ l < 88, s.on PAIR_PLANn.VALID 0 l = true → s.rd PAIR_PEERn.OUTCOME 0 l ≠ 0

/-- REJOIN is refused but for an OUT package with no repair open that must come first, whose partner serves alone under the same ABI; a complete copy makes the
state the partner's, unless a slot is LOADING or the partner's digest is another; LEAVE is for OUT and HALTED; GO starts formation and the report goes to every package of the mask once the lanes have settled; a report is
held, one that asks to join is judged by the leader, and the verdict is taken; a second without a report ends it (R10, R269, R433, R436, R437, R489, R519 to
R522).
What no rule states in it is the model's choice or reading: notes/assumptions/33.md, notes/assumptions/81.md and notes/assumptions/123.md. -/
def Obligations.Membership : Prop :=
  (∀ (q : Requester) (s : State), s.takes q .pair = true →
    ((s.pair.member ≠ .out ∨ s.partnerAlone = false ∨ s.mustRepair = true) →
      Does (.rejoin q) s fun t => Claims.onlyRegs (Claims.touched s q) t ∧ Claims.conflictShows t 7 0x108 Err.REJOIN_STATE) ∧
    (s.pair.member = .out → s.partnerAlone = true → s.mustRepair = false →
      (s.hhAbi ≠ s.pair.hhAbi → Does (.rejoin q) s fun t => Claims.onlyRegs (Claims.touched s q) t ∧ Claims.conflictShows t 7 0x108 Err.FW_ABI) ∧
      (s.hhAbi = s.pair.hhAbi → Does (.rejoin q) s fun t =>
        t.pair.member = .rejoining ∧ t.pair.copyDone = false ∧ t.rd PAIR_MAINT.REJOIN = 1 ∧ Claims.memoriesKept s t ∧ ∃ l, t.out = s.out ++ .rejoinStart :: l)) ∧
    ((s.pair.member = .out ∨ s.pair.member = .halted) → Does (.leave q) s fun t =>
      t.pair.member = .outside ∧ t.pair.members = [] ∧ t.table = [] ∧ t.slots = [] ∧ t.kv = KvSt.empty ∧ t.step = StepSt.reset ∧
      t.rd SEQ_HH_CTL.FORMED = 0 ∧ t.rd SEQ_CFG_COMMIT.GO = 0 ∧ t.cellar = s.cellar) ∧
    (s.pair.member = .outside → Does (.leave q) s fun t => t = Claims.touched s q) ∧
    ((s.pair.member = .paired ∨ s.pair.member = .alone ∨ s.pair.member = .rejoining) →
      Does (.leave q) s fun t => Claims.onlyRegs (Claims.touched s q) t ∧ Claims.conflictShows t 7 0x108 Err.PAIR_LIVE)) ∧
  (∀ (k : RejoinCopy) (s : State),
    ((s.pair.member ≠ .rejoining ∨ s.pair.copyDone = true) → Does (.rejoinCopyComplete k) s fun t => t = s) ∧
    (s.pair.member = .rejoining → s.pair.copyDone = false →
      (s.copyGood k = false → Does (.rejoinCopyComplete k) s fun t => t = s.emit .rejoinStart) ∧
      (s.copyGood k = true → (k.digest ≠ k.peerDigest ∨ k.loading = true) → Does (.rejoinCopyComplete k) s fun t => t = s) ∧
      (s.copyGood k = true → k.digest = k.peerDigest → k.loading = false → (k.table.map (·.1)).Nodup → (k.slots.map (·.1)).Nodup →
        Does (.rejoinCopyComplete k) s fun t =>
          t.pair.copyDone = true ∧ t.step.id = k.step ∧ t.step.items = k.items ∧ t.step.digest = k.digest ∧ t.step.attempt = k.attempt ∧
          t.pair.epoch = k.epoch ∧ (∀ m, k.mirror = some m → t.pair.mirrored = some m) ∧ t.cel.badLines = [] ∧ t.seated = none ∧
          t.cores = s.cores ∧ (∀ e ∈ k.table, t.seq e.1 = e.2) ∧ (∀ e, (∀ x ∈ k.table, x.1 ≠ e) → t.seq e = SeqEntry.blank) ∧
          (∀ e ∈ k.slots, t.slot e.1 = e.2) ∧
          (k.shards = [] → (k.cells.map (·.1)).Nodup → (∀ c ∈ k.cells, Memory.byte t.cellar c.1 = c.2) ∧
            ∀ a, (∀ c ∈ k.cells, c.1 ≠ a) → Memory.byte t.cellar a = Memory.byte s.cellar a)))) ∧
  (∀ (q : Requester) (s : State), s.takes q .hal = true →
    ((s.rd HAL_BOOT_STS.STAGE ≠ 6 ∨ s.on HAL_BOOT_STS.FAIL = true ∨ s.kept.condemned = true ∨ s.pair.member ≠ .outside) →
      Does (.go q) s fun t => Claims.onlyRegs (Claims.touched s q) t ∧ Claims.conflictShows t 1 0x108 Err.FORM_STATE) ∧
    (s.rd HAL_BOOT_STS.STAGE = 6 → s.on HAL_BOOT_STS.FAIL = false → s.kept.condemned = false → s.pair.member = .outside →
      (s.pair.goAt.isSome = true → Does (.go q) s fun t => t = Claims.touched s q) ∧
      (s.pair.goAt = none → (∀ r ∈ s.pair.forming, r.1.src ≠ s.me) →
        (¬ Claims.lanesSettled s → Does (.go q) s fun t =>
          t.pair = { s.pair with goAt := some s.rackTime, formReady := false } ∧ t.rd HAL_FORM.FORMING = 1 ∧ t.rd HAL_FORM.GO = 1 ∧ t.rd HAL_FORM.CODE = 0 ∧
          t.out = s.out) ∧
        (Claims.lanesSettled s → Does (.go q) s fun t =>
          ∃ r l, r.src = s.me ∧ r.mask = s.formMask ∧ r.ready = true ∧ r.rackTime = s.rackTime ∧ r.pairNum = s.pairNum ∧ r.cfgDigest = s.configDigest ∧
            r.verdict = none ∧ t.out = s.out ++ (s.formMask.filter fun p => decide (p ≠ s.me)).map (fun p => .form p r) ++ l)))) ∧
  (∀ (r : FormReport) (s : State),
    (s.pair.member = .outside → s.pair.goAt = none → r.verdict = none → Does (.form r) s fun t =>
      t = { s with pair := { s.pair with forming := (s.pair.forming.filter fun x => decide (x.1.src ≠ r.src)) ++ [(r, s.rackTime)] } }) ∧
    (∀ c, s.pair.member = .outside → r.verdict = some c →
      (s.pair.goAt = none → Does (.form r) s fun t => t = s) ∧
      (s.pair.goAt.isSome = true → c ≠ Err.OK → Does (.form r) s fun t =>
        t.pair = { s.pair with forming := [], goAt := none, formReady := false } ∧ t.rd HAL_FORM.CODE = c.toNat ∧ t.rd HAL_FORM.GO = 0) ∧
      (s.pair.goAt.isSome = true → c = Err.OK → Does (.form r) s fun t =>
        t.pair.members = r.mask ∧ t.pair.lost = r.lost ∧ t.pair.epoch = r.epoch ∧ t.rd SEQ_HH_CTL.FORMED = 1 ∧ (t.pair.member = .out ∨ t.pair.member = .rejoining))) ∧
    ((s.pair.member = .paired ∨ s.pair.member = .alone) →
      ((s.joins r = false ∨ s.leader ≠ s.me) → Does (.form r) s fun t => t = s) ∧
      (s.joins r = true → s.leader = s.me → Does (.form r) s fun t =>
        ∃ x, t = s.emit (.form r.src x) ∧ x.verdict = some (s.joinVerdict r) ∧ x.mask = s.pair.members ∧ x.lost = s.pair.lost ∧ x.epoch = s.pair.epoch)) ∧
    ((s.pair.member = .out ∨ s.pair.member = .rejoining ∨ s.pair.member = .halted) → Does (.form r) s fun t => t = s)) ∧
  ∀ s : State,
    ((s.pair.goAt = none ∨ s.pair.formReady = true) → Does .formTimeout s fun t => t = s) ∧
    ∀ a, s.pair.goAt = some a → s.pair.formReady = false →
      (s.rackTime < a + 1000000000 → Does .formTimeout s fun t => t = s) ∧
      (a + 1000000000 ≤ s.rackTime → Does .formTimeout s fun t =>
        t.pair = { s.pair with forming := [], goAt := none, formReady := false } ∧ t.rd HAL_FORM.CODE = Err.FORM_TIMEOUT.toNat ∧ t.rd HAL_FORM.GO = 0 ∧
        t.rd HAL_FORM.FORMING = 0 ∧ t.cores = s.cores ∧ Claims.memoriesKept s t)

/-! Bring-up and resets (R496, R511 to R518, R523 to R527). -/

/-- The package has come up to stage 4 with its running image: nothing is left of what volatile state held, and the fuses and the flash keep theirs (R511,
R523). -/
def Sys2Proof.Claims.cameUp (s t : State) (cause : Nat) : Prop :=
  t.rd HAL_BOOT_STS.STAGE = 4 ∧ t.rd HAL_BOOT_STS.CAUSE = cause ∧ t.rd HAL_BOOT_STS.FAIL = 0 ∧ t.mgmt.image = s.kept.flashImage.take (imageLen s.kept.flashImage) ∧
    t.rd PWR_OP_STS.POINT = 0 ∧ t.power.rail = 5500 ∧ t.power.fire = .glow ∧ t.pair.member = .outside ∧ t.cores = [] ∧ t.cellar = [] ∧ t.table = [] ∧
    t.slots = [] ∧ t.lanes = [] ∧ t.kept.serial = s.kept.serial ∧ t.kept.orderingA = s.kept.orderingA ∧ t.kept.svnMin = s.kept.svnMin ∧
    t.kept.ownerDigest = s.kept.ownerDigest ∧ t.kept.remaps = s.kept.remaps

/-- A partition as an endpoint reset leaves it (R517): its porch and ring at their reset values, with what it holds and owes kept. -/
def Sys2Proof.Claims.partitionReset (s t : State) (p : Nat) : Prop :=
  (t.porch p).next = 1 ∧ (t.porch p).mem = [] ∧ (t.porch p).tornFrom = none ∧ (t.porch p).accepted = (s.porch p).accepted ∧ (t.ring p).prod = 0 ∧
    (t.ring p).cons = 0 ∧ t.rd POR_CTL.PORCH_ENABLE p = 0 ∧ t.rd POR_CTL.RING_ENABLE p = 0

/-- What an endpoint reset leaves: only the endpoint and the partitions' pages are reset, the latches of those pages with them (notes/assumptions/112.md), and no
result or accepted record is lost (R517). -/
def Sys2Proof.Claims.endpointFresh (s t : State) : Prop :=
  let kept (n : Nat) : Bool := !(List.range 16).any fun p => decide (n % 2 ^ 27 / 0x1000 = Block.por.page p)
  t.pcie.msix = [] ∧ t.pcie.pba = [] ∧ t.pcie.bme = false ∧ t.latch = s.latch.filter (fun e => kept e.1) ∧
    t.heldLow = s.heldLow.filter (fun e => kept e.1) ∧ t.accepted = s.accepted ∧ t.table = s.table ∧ t.cellar = s.cellar ∧ t.cores = s.cores ∧
    t.step = s.step ∧ t.out = s.out ∧
    ∀ p < 16, Claims.partitionReset s t p ∧ (t.ring p).held = (s.ring p).held ∧ (t.ring p).due = (s.ring p).due ∧
      (t.ring p).unconfirmed = (s.ring p).unconfirmed

/-- A power-up comes to stage 4 with a valid image and to recovery without one, and does nothing when up; a package reset needs OUTSIDE, OUT or HALTED; a wing reset
OUTSIDE or OUT, and what it completes is READY once the lanes that were enabled have trained; the endpoint resets clear the endpoint alone, and a partition's its records and results; the maintenance commands keep their conditions; a link
out of Flit mode carries nothing, and one that comes up sends the vectors that waited for it (R272, R484, R490, R495, R496, R511 to R518, R523 to R527).
What no rule states in it is the model's choice or reading: notes/assumptions/36.md, notes/assumptions/39.md, notes/assumptions/40.md, notes/assumptions/45.md, notes/assumptions/93.md,
notes/assumptions/112.md, notes/assumptions/124.md and notes/assumptions/127.md. -/
def Obligations.Resets : Prop :=
  (∀ (b : BringUp) (s : State), b.fault = none → b.failedCores = [] → b.failedSpares = [] → b.slot.toNat ≤ 35 →
    ((s.rd HAL_BOOT_STS.STAGE ≠ 0 ∨ s.power.fire = .smoored) → Does (.powerUp b) s fun t => t = s) ∧
    (s.rd HAL_BOOT_STS.STAGE = 0 → s.power.fire ≠ .smoored →
      (s.imageOk s.kept.flashImage = true → Does (.powerUp b) s fun t =>
        Claims.cameUp s t 0 ∧ t.rackTime = 0 ∧ t.pair.rack = b.rack ∧ t.pair.slot = b.slot.toNat ∧ (s.cel.markedRows = [] → t.mgmt.log = s.kept.flashLog) ∧
        ∀ w < 4, ∀ y < 32, ∀ c, (c = 31 ∨ c = 32) →
          SMap.get 0 t.kept.wear (ledgerKey w y c) = SMap.get 0 s.kept.wearSaved (ledgerKey w y c) + 3840 * stressSecond) ∧
      (s.imageOk s.kept.flashImage = false → Does (.powerUp b) s fun t =>
        t.rd HAL_BOOT_STS.STAGE = 7 ∧ t.mgmt.mode = .recovery ∧ t.mgmt.image = [] ∧ t.mgmt.recoveryFrom = some 0 ∧ t.cores = [] ∧
        (∀ i < 4, (t.lane (72 + i)).carrying = true) ∧
        ∃ l, t.out = s.out ++ l ++ [.recoveryRequest]))) ∧
  (∀ (q : Requester) (s : State), s.takes q .hal = true →
    ((s.pair.member = .paired ∨ s.pair.member = .alone ∨ s.pair.member = .rejoining) →
      Does (.package q) s fun t => Claims.onlyRegs (Claims.touched s q) t ∧ Claims.conflictShows t 1 0x104 Err.RESET_STATE) ∧
    ((s.pair.member = .outside ∨ s.pair.member = .out ∨ s.pair.member = .halted) → s.imageOk s.kept.flashImage = true → s.pair.slot ≤ 35 →
      s.kept.faulty = none → s.retest = {} → Does (.package q) s fun t => Claims.cameUp s t 1 ∧ t.kept.wear = s.kept.wear ∧ (s.pins.refclkOk = true → t.rackTime = s.rackTime))) ∧
  (∀ (q : Requester) (w : Wing) (s : State), s.takes q .hal = true →
    ((s.pair.member ≠ .outside ∧ s.pair.member ≠ .out) →
      Does (.wing q w) s fun t => Claims.onlyRegs (Claims.touched s q) t ∧ Claims.conflictShows t 1 0x104 Err.RESET_STATE) ∧
    ((s.pair.member = .outside ∨ s.pair.member = .out) → Does (.wing q w) s fun t =>
      (t.wing w.val).resetting = true ∧ t.rd HAL_RESET.WING / 2 ^ w.val % 2 = 1 ∧ (∀ v, v ≠ w.val → t.wing v = s.wing v) ∧
      (∀ c, wingOf c ≠ w.val → t.core c = s.core c) ∧ t.cellar = s.cellar ∧ t.table = s.table)) ∧
  (∀ (w : Wing) (s : State),
    ((s.wing w.val).resetting = false → Does (.wingResetComplete w) s fun t => t = s) ∧
    ((s.wing w.val).resetting = true → Does (.wingResetComplete w) s fun t =>
      (∀ v, v ≠ w.val → t.wing v = s.wing v) ∧ (∀ c, wingOf c = w.val → t.core c = Core.reset) ∧
      (∀ c, wingOf c ≠ w.val → t.core c = s.core c) ∧ t.seated = none ∧ t.rd FAB_CTL.ENABLE w.val = 0 ∧ t.rd LAR_CTL.ENABLE w.val = 0 ∧
      (∀ k, SMap.get [] t.stewards k = if k < 8 ∧ k / 2 = w.val then [] else SMap.get [] s.stewards k) ∧ t.cellar = s.cellar ∧ t.table = s.table ∧
      (s.retest = {} → t.kept.condemned = s.kept.condemned ∧ t.kept.remaps = s.kept.remaps) ∧
      (s.on FAB_CTL.ENABLE w.val = false → t.wing w.val = WingSt.reset ∧ t.rd HAL_RESET.WING / 2 ^ w.val % 2 = 0) ∧
      (s.on FAB_CTL.ENABLE w.val = true → (∃ i < 18, s.mappedOut (18 * w.val + i) = false) →
        t.wing w.val = { WingSt.reset with retraining := true } ∧ t.rd HAL_RESET.WING = s.rd HAL_RESET.WING ∧
        ∀ i < 18, s.mappedOut (18 * w.val + i) = false → (t.lane (18 * w.val + i)).training = true))) ∧
  (∀ s : State,
    (Does .perstAssert s fun t => Claims.endpointFresh s t ∧ t.pcie.perst = true ∧ t.pcie.up = false) ∧
    (Does .perstDeassert s fun t => t = { s with pcie := { s.pcie with perst := false } }) ∧
    Does .pfFlr s fun t => Claims.endpointFresh s t ∧ t.pcie.perst = s.pcie.perst ∧ t.pcie.up = s.pcie.up) ∧
  (∀ (p : Part) (s : State), Does (.vfFlr p) s fun t =>
    Claims.partitionReset s t p.val ∧ (t.ring p.val).due = [] ∧ (t.ring p.val).held = [] ∧ (t.ring p.val).unconfirmed = [] ∧
    (∀ n, n ≠ p.val → t.ring n = s.ring n ∧ t.porch n = s.porch n) ∧ t.table = s.table ∧ t.cellar = s.cellar ∧ t.cores = s.cores ∧
    (∀ d, d ∈ t.deferred ↔ d ∈ s.deferred ∧ d.part ≠ p) ∧
    (s.me ∈ s.pair.members → (t.ring p.val).discarding = true ∧ (t.ring p.val).resetLeft = t.accepted.length) ∧
    ∃ l, t.accepted = s.accepted ++ l ∧ (∀ r ∈ l, r.part = p ∧ recOp r.bytes = 0x02) ∧
      l.length = (s.liveSeqs.filter fun e => decide ((s.seq e).home = s.me) && decide ((s.seq e).part = p.val)).length) ∧
  (∀ (q : Requester) (v : Word) (s : State), s.takes q .mgt = true →
    ((s.pair.member = .out ∨ s.pair.member = .outside) → Does (.retire q v) s fun t =>
      t.rd MGT_MAINT.CORE = v.toNat % 2 ^ 12 ∧ v.toNat % 2 ^ 12 ∈ t.pair.failedCores ∧ (∀ c ∈ s.pair.failedCores, c ∈ t.pair.failedCores) ∧
      t = { Claims.touched s q with regs := t.regs, pair := { s.pair with failedCores := t.pair.failedCores } }) ∧
    (s.pair.member ≠ .out → s.pair.member ≠ .outside →
      Does (.retire q v) s fun t => Claims.onlyRegs (Claims.touched s q) t ∧ Claims.conflictShows t 2 0x10C Err.REMAP_STATE)) ∧
  (∀ (q : Requester) (s : State), s.takes q .sec = true →
    (s.mgmt.bootAt + 86400000000000 ≤ (s.rackTime : Int) → Does (.commit q) s fun t =>
      t = { Claims.touched s q with kept := { s.kept with svnMin := fieldAt s.mgmt.image 6 1 } }) ∧
    ((s.rackTime : Int) < s.mgmt.bootAt + 86400000000000 →
      Does (.commit q) s fun t => Claims.onlyRegs (Claims.touched s q) t ∧ Claims.conflictShows t 3 0x10C Err.SVN_EARLY)) ∧
  (∀ (g w : Nat) (bme : Bool) (s : State),
    ((s.pcie.perst = true ∨ s.rd HAL_BOOT_STS.STAGE < 2) → Does (.pcieLinkTraining g w bme) s fun t => t = s) ∧
    (s.pcie.perst = false → 2 ≤ s.rd HAL_BOOT_STS.STAGE →
      (64 ≤ g → Does (.pcieLinkTraining g w bme) s fun t =>
        let masked (v : Nat × Nat) : Prop := (SMap.get (msixDefault (4096 * v.1 + 4 * v.2 + 3)) s.pcie.msix (4096 * v.1 + 4 * v.2 + 3)).toNat % 2 = 1
        t = { s with pcie := { s.pcie with up := true, gtps := g, width := w, bme := bme, pba := t.pcie.pba, l1 := t.pcie.l1 }, out := t.out } ∧
        (bme = false → t.out = s.out ∧ ∀ v, v ∈ t.pcie.pba ↔ v ∈ s.pcie.pba) ∧
        (bme = true → (∀ v, v ∈ t.pcie.pba ↔ v ∈ s.pcie.pba ∧ masked v) ∧ ∀ v ∈ s.pcie.pba, ¬ masked v → .msix v.1 v.2 ∈ t.out)) ∧
      (g < 64 → Does (.pcieLinkTraining g w bme) s fun t => t.pcie.up = false ∧ t.pcie.gtps = g ∧ t.cores = s.cores ∧ Claims.memoriesKept s t))) ∧
  ∀ (a : BitVec 7) (s : State), Does (.entdaa a) s fun t => 
    t = { s with regs := t.regs, out := t.out } ∧ t.rd MGT_MCTP.I3C_DA = a.toNat ∧ Claims.keepsWords s t (fun x => x = MGT_MCTP.WORD.base) ∧
    ∃ b : Bytes, t.out = s.out ++ [.reply .i3c "ENTDAA" b] ∧ b.length = 6 ∧ leNat b % 128 = s.me.toNat

/-! Wainil (R480 to R510, R573). -/

/-- What goes out with a packet on a binding: on I3C an in-band interrupt says that it is pending (R484). -/
def Sys2Proof.Claims.leaves (b : Binding) (o : Out) : List Out := if b = .i3c then [o, .inBand] else [o]

/-- The command changes nothing of the package but what it answers. -/
def Sys2Proof.Claims.replies (s t : State) (b : Binding) (name : String) (v : Bytes) : Prop := t = { s with out := s.out ++ Claims.leaves b (.reply b name v) }

/-- The same, with the values given, each in 8 bytes. -/
def Sys2Proof.Claims.answers (s t : State) (b : Binding) (name : String) (vals : List Nat) : Prop := Claims.replies s t b name (vals.flatMap (leBytes 8))

/-- The command is answered, and nothing else of the package differs; what the standard puts in the answer is not modelled (notes/assumptions/41.md). -/
def Sys2Proof.Claims.answered (s t : State) (b : Binding) : Prop := ∃ name v, Claims.replies s t b name v

/-- The binding on which a request to Wainil comes. -/
def Sys2Proof.Claims.bindingOf : Instr → Option Binding
  | .setEndpointId b _ | .getEndpointId b | .getEndpointUuid b | .getMctpVersionSupport b | .getMessageTypeSupport b | .mctpUnsupportedType b _ => some b
  | .getTid b | .setTid b _ | .getPldmVersion b | .getPldmTypes b | .getPldmCommands b | .getPdrRepositoryInfo b | .getPdr b _ => some b
  | .getSensorReading b _ | .getStateSensorReadings b _ | .setEventReceiver b _ | .pollForPlatformEventMessage b => some b
  | .queryDeviceIdentifiers b | .getFirmwareParameters b | .requestUpdate b _ | .passComponentTable b | .updateComponent b _ => some b
  | .requestFirmwareDataResponse b _ | .activateFirmware b | .getStatus b | .cancelUpdateComponent b | .cancelUpdate b => some b
  | .getVersion b | .getCapabilities b | .negotiateAlgorithms b | .getDigests b | .getCertificate b _ _ | .challenge b _ => some b
  | .getMeasurements b _ _ | .spdmUnsupportedRequest b _ => some b
  | _ => none

/-- A sensor's number and its reading at the last refresh: its state, 0 enabled, 1 unavailable and 2 failed, and its value (R485). -/
def Sys2Proof.Claims.sensorVals (s : State) (id : Nat) : List Nat :=
  match s.mgmt.readings.find? fun e => decide (e.1 = id) with
  | some e => [id, e.2.1, (e.2.2 % 2 ^ 64).toNat]
  | none => [id, 1, 0]

/-- The control and monitoring commands: endpoint IDs and TID by binding, message types 0, 1 and 5, PLDM types 0, 2 and 5, readings of the last refresh, events kept
to 64 and polled oldest first, three resends at 250 ms; a PDR gives a sensor's kind, quantity, resolution and junction thresholds; what goes out on I3C raises an
in-band interrupt; nothing on a PCIe binding whose link carries no traffic (R272); the test port's boundary instructions only OUTSIDE in Glow or Burning, and its private ones only
under a grant (R484 to R486, R506, R573).
What no rule states in it is the model's choice or reading: notes/assumptions/41.md. -/
def Obligations.SidebandQueries : Prop :=
  (∀ (b : Binding) (s : State), s.hearsOn b = true →
    (∀ eid, Does (.setEndpointId b eid) s fun t =>
      t.rd (eidField b) = eid.toNat ∧ Claims.answers { s with regs := t.regs } t b "SetEndpointID" [eid.toNat] ∧
      ∀ c, c ≠ b → t.rd (eidField c) = s.rd (eidField c)) ∧
    (Does (.getEndpointId b) s fun t => Claims.answers s t b "GetEndpointID" [s.rd (eidField b)]) ∧
    (Does (.getEndpointUuid b) s fun t => Claims.replies s t b "GetEndpointUUID" (Config.endpointUuid s.kept.serial.toNat)) ∧
    (Does (.getMctpVersionSupport b) s fun t => Claims.answered s t b) ∧
    (Does (.getMessageTypeSupport b) s fun t => Claims.answers s t b "GetMessageTypeSupport" [0, 1, 5]) ∧
    (∀ k, Does (.mctpUnsupportedType b k) s fun t => t = s) ∧
    (Does (.getTid b) s fun t => Claims.answers s t b "GetTID" [s.mgmt.tid]) ∧
    (∀ tid, Does (.setTid b tid) s fun t => Claims.answers { s with mgmt := { s.mgmt with tid := tid.toNat } } t b "SetTID" []) ∧
    (Does (.getPldmVersion b) s fun t => Claims.answered s t b) ∧
    (Does (.getPldmTypes b) s fun t => Claims.answers s t b "GetPLDMTypes" [0, 2, 5]) ∧
    (Does (.getPldmCommands b) s fun t => Claims.answered s t b) ∧
    (Does (.getPdrRepositoryInfo b) s fun t => Claims.answers s t b "GetPDRRepositoryInfo" [92]) ∧
    (∀ n, (n < 92 → Does (.getPdr b n) s fun t => ∃ id, (numericSensors ++ stateSensors)[n]? = some id ∧
        Claims.answers s t b ("GetPDR: " ++ (sensorKind id).1) ([n, id, (sensorKind id).2.1, (sensorKind id).2.2] ++
          if 0x100 ≤ id ∧ id < 0x200 then [95, 105, 115] else [])) ∧
      (92 ≤ n → Does (.getPdr b n) s fun t => Claims.answered s t b)) ∧
    (∀ id : BitVec 16,
      (id.toNat ∈ numericSensors → Does (.getSensorReading b id) s fun t => Claims.answers s t b "GetSensorReading" (Claims.sensorVals s id.toNat)) ∧
      (id.toNat ∈ stateSensors → Does (.getStateSensorReadings b id) s fun t =>
        Claims.answers s t b "GetStateSensorReadings" (Claims.sensorVals s id.toNat)) ∧
      (id.toNat ∉ numericSensors → Does (.getSensorReading b id) s fun t => Claims.answered s t b) ∧
      (id.toNat ∉ stateSensors → Does (.getStateSensorReadings b id) s fun t => Claims.answered s t b)) ∧
    (∀ eid, Does (.setEventReceiver b eid) s fun t =>
      Claims.answers { s with mgmt := { s.mgmt with receiver := some (b, eid) } } t b "SetEventReceiver" []) ∧
    (∀ e r, s.mgmt.events = e :: r → Does (.pollForPlatformEventMessage b) s fun t =>
      Claims.answers { s with mgmt := { s.mgmt with events := r } } t b "PollForPlatformEventMessage" [e.sensor, (e.value % 2 ^ 64).toNat]) ∧
    (s.mgmt.events = [] → Does (.pollForPlatformEventMessage b) s fun t => Claims.answered s t b)) ∧
  (∀ (b : Binding) (k : Instr) (s : State), Claims.bindingOf k = some b → s.hearsOn b = false → Does k s fun t => t = s) ∧
  (∀ (temps : List Int) (s : State), Does (.pldmSensorRefresh temps) s fun t =>
    (∀ id, id ∈ numericSensors ++ stateSensors → t.sensor id = s.senseNow temps id) ∧ t.mgmt.events.length ≤ max 64 s.mgmt.events.length ∧
    t = { s with mgmt := t.mgmt, out := t.out }) ∧
  (∀ (n : Nat) (e : PldmEvent) (s : State), s.mgmt.events[n]? = some e →
    (s.rackTime < e.sentAt + 250000000 → Does (.platformEventResend n) s fun t => t = s) ∧
    (∀ r, s.mgmt.receiver = some r → s.hearsOn r.1 = true → e.sentAt + 250000000 ≤ s.rackTime → 0 < e.tries → e.tries < 4 → Does (.platformEventResend n) s fun t =>
      t.mgmt.events = s.mgmt.events.set n { e with tries := e.tries + 1, sentAt := s.rackTime } ∧
      t.out = s.out ++ Claims.leaves r.1 (.platformEvent r.1 { e with tries := e.tries + 1, sentAt := s.rackTime })) ∧
    (e.sentAt + 250000000 ≤ s.rackTime → e.tries = 4 → Does (.platformEventResend n) s fun t =>
      t.mgmt.events = s.mgmt.events.set n { e with tries := 5, sentAt := s.rackTime } ∧ t.cores = s.cores ∧ Claims.memoriesKept s t)) ∧
  ∀ s : State,
    let may := s.pair.member = .outside ∧ (s.power.fire = .glow ∨ s.power.fire = .burning)
    (may → Does .jtagExtest s (fun t => t = s.emit (.jtag "EXTEST" 0)) ∧ Does .jtagExtestPulse s (fun t => t = s.emit (.jtag "EXTEST_PULSE" 0)) ∧
      Does .jtagExtestTrain s fun t => t = s.emit (.jtag "EXTEST_TRAIN" 0)) ∧
    (¬ may → ∀ k ∈ [Instr.jtagExtest, Instr.jtagExtestPulse, Instr.jtagExtestTrain], Does k s fun t => t = s.emit (.jtag "BYPASS" 0)) ∧
    (Does .jtagIdcode s fun t => ∃ v, t = s.emit (.jtag "IDCODE" v) ∧ v.toNat / 2 ^ 12 = 0xB5A47) ∧
    ((∀ g, s.mgmt.grant = some g → g.1 / 2 % 2 = 0) → Does .jtagPrivateInstruction s fun t => t = s.emit (.jtag "BYPASS" 0)) ∧
    ∀ g, s.mgmt.grant = some g → g.1 / 2 % 2 = 1 → Does .jtagPrivateInstruction s fun t => t = s.emit (.jtag "PRIVATE" 0)

/-- A binding that does not hold the update is refused, and nothing else happens. -/
def Sys2Proof.Claims.notInUpdate (s : State) (b : Binding) (i : Instr) : Prop :=
  s.mgmt.updBinding ≠ some b → Does i s fun t => Claims.answered s t b

/-- No update is in hand, its buffer gone (R494). -/
def Sys2Proof.Claims.updateOver (t : State) : Prop := t.mgmt.updBinding = none ∧ t.mgmt.updBuf = [] ∧ t.mgmt.updVerified = false

/-- A firmware update: one at a time, by the binding that asked; pieces of the agreed size of at most 4,096 bytes; a complete image that verifies is applied and one
that does not ends the update; no second transfer begins within one; after apply it waits for activation, at once out of service and else at the next reset; 120 s of silence cancel it before
apply; in recovery the partner's image, and after 2 s the one that the host has written to the update buffer, is checked, programmed and booted (R488, R490 to R494).
What no rule states in it is the model's choice or reading: notes/assumptions/41.md, notes/assumptions/45.md, notes/assumptions/89.md and notes/assumptions/90.md. -/
def Obligations.FirmwareUpdate : Prop :=
  (∀ (b : Binding) (s : State), s.hearsOn b = true →
    (Does (.queryDeviceIdentifiers b) s fun t => Claims.answered s t b) ∧
    (Does (.getFirmwareParameters b) s fun t =>
      Claims.answers s t b "GetFirmwareParameters" [0x000A, 0x0001, s.rd MGT_FW_VER.VERSION, s.rd MGT_FW_PEND.VERSION]) ∧
    (s.mgmt.updBinding ≠ some b → Does (.getStatus b) s fun t => Claims.answered s t b) ∧
    (s.mgmt.updBinding = some b → Does (.getStatus b) s fun t => Claims.answered { s with mgmt := { s.mgmt with updLast := s.rackTime } } t b) ∧
    (∀ n, s.mgmt.updBinding.isSome = true → Does (.requestUpdate b n) s fun t => Claims.answers s t b "RequestUpdate: ALREADY_IN_UPDATE_MODE" []) ∧
    (∀ n, s.mgmt.updBinding = none → s.mgmt.recoveryFrom = none → s.rd HAL_BOOT_STS.STAGE ≠ 7 → Does (.requestUpdate b n) s fun t =>
      t.mgmt.updBinding = some b ∧ t.mgmt.updTransfer = min n 4096 ∧ t.mgmt.updBuf = [] ∧ t.mgmt.mode = .update ∧ t.mgmt.updLast = s.rackTime ∧
      t.cores = s.cores ∧ t.kept = s.kept) ∧
    Claims.notInUpdate s b (.passComponentTable b) ∧ (∀ n, Claims.notInUpdate s b (.updateComponent b n)) ∧
    Claims.notInUpdate s b (.cancelUpdateComponent b) ∧ Claims.notInUpdate s b (.cancelUpdate b) ∧
    (s.mgmt.updBinding = some b →
      (Does (.passComponentTable b) s fun t => t.mgmt = { s.mgmt with updLast := s.rackTime } ∧ t.kept = s.kept) ∧
      (∀ n, s.mgmt.updVerified = false → s.mgmt.updSize ≠ 0 → Does (.updateComponent b n) s fun t =>
        Claims.answers { s with mgmt := { s.mgmt with updLast := s.rackTime } } t b "UpdateComponent: INVALID_STATE_FOR_COMMAND" []) ∧
      (∀ n, s.mgmt.updVerified = false → s.mgmt.updSize = 0 → 0 < n → n ≤ 12 * 2 ^ 20 → Does (.updateComponent b n) s fun t =>
        t.mgmt = { s.mgmt with updBuf := [], updSize := n, updLast := s.rackTime } ∧ t.kept = s.kept ∧
        ∃ l, t.out = s.out ++ l ++ Claims.leaves b (.reply b "RequestFirmwareData" (leBytes 8 0 ++ leBytes 8 (min s.mgmt.updTransfer n)))) ∧
      (s.mgmt.updVerified = false → Does (.cancelUpdateComponent b) s fun t =>
        t.mgmt = { s.mgmt with updBuf := [], updSize := 0, updLast := s.rackTime } ∧ t.kept = s.kept) ∧
      (s.mgmt.mode = .applying → Does (.cancelUpdate b) s fun t => t = { s with mgmt := { s.mgmt with cancelWaits := some b } }) ∧
      (s.mgmt.mode ≠ .applying → Does (.cancelUpdate b) s fun t => Claims.updateOver t ∧ t.kept = s.kept ∧ t.cores = s.cores) ∧
      (∀ d : Bytes, s.mgmt.updVerified = false → s.mgmt.updBuf.length < s.mgmt.updSize →
        let want := min s.mgmt.updTransfer (s.mgmt.updSize - s.mgmt.updBuf.length)
        let img := s.mgmt.updBuf ++ d.take want
        (img.length < s.mgmt.updSize → Does (.requestFirmwareDataResponse b d) s fun t =>
          t.mgmt = { s.mgmt with updBuf := img, updLast := s.rackTime } ∧ t.kept = s.kept ∧
          t.out = s.out ++
            Claims.leaves b (.reply b "RequestFirmwareData" (leBytes 8 img.length ++ leBytes 8 (min s.mgmt.updTransfer (s.mgmt.updSize - img.length))))) ∧
        (s.mgmt.updSize ≤ img.length → s.imageOk img = true → Does (.requestFirmwareDataResponse b d) s fun t =>
          t.mgmt.updVerified = true ∧ t.mgmt.mode = .applying ∧ t.mgmt.updBuf = img ∧ t.kept.flashImage = [] ∧ t.mgmt.image = s.mgmt.image ∧
          t.mgmt.pendingAct = false ∧ t.rd MGT_FW_PEND.VERSION = 0) ∧
        (s.mgmt.updSize ≤ img.length → s.imageOk img = false → s.rd HAL_BOOT_STS.STAGE ≠ 7 → Does (.requestFirmwareDataResponse b d) s fun t =>
          Claims.updateOver t ∧ t.mgmt.mode = .running ∧ t.kept = s.kept))) ∧
    (s.mgmt.pendingAct = false → Does (.activateFirmware b) s fun t => Claims.answered s t b) ∧
    (s.mgmt.pendingAct = true → (s.pair.member = .paired ∨ s.pair.member = .alone ∨ s.pair.member = .rejoining) → Does (.activateFirmware b) s fun t =>
      t.mgmt.pendingAct = true ∧ t.cores = s.cores ∧ t.kept = s.kept ∧ (s.mgmt.updBinding = some b → s.mgmt.updVerified = true → Claims.updateOver t) ∧
      ((s.mgmt.updBinding ≠ some b ∨ s.mgmt.updVerified = false) → t.mgmt = s.mgmt)) ∧
    (s.mgmt.pendingAct = true → (s.pair.member = .outside ∨ s.pair.member = .out ∨ s.pair.member = .halted) → s.imageOk s.kept.flashImage = true →
      s.pair.slot ≤ 35 → s.kept.faulty = none → s.retest = {} → Does (.activateFirmware b) s fun t => Claims.cameUp s t 2)) ∧
  (∀ s : State,
    (s.mgmt.updBinding.isSome = true →
      (s.mgmt.updVerified = false → s.mgmt.updLast + 120000000000 ≤ s.rackTime → Does .fwUpdateTimeout s fun t =>
        Claims.updateOver t ∧ t.kept.flashImage = s.kept.flashImage ∧ t.cores = s.cores) ∧
      ((s.mgmt.updVerified = true ∨ s.rackTime < s.mgmt.updLast + 120000000000) → Does .fwUpdateTimeout s fun t => t = s) ∧
      (s.mgmt.mode = .applying → s.mgmt.cancelWaits = none → s.rd HAL_BOOT_STS.STAGE ≠ 7 →
        (Does (.applyComplete true) s fun t =>
          t.kept.flashImage = s.mgmt.updBuf ∧ t.mgmt.pendingAct = true ∧ t.mgmt.mode = .update ∧ t.rd MGT_FW_PEND.VERSION = fieldAt s.mgmt.updBuf 8 4 ∧
          t.mgmt.image = s.mgmt.image ∧ t.cores = s.cores) ∧
        Does (.applyComplete false) s fun t => Claims.updateOver t ∧ t.mgmt.pendingAct = s.mgmt.pendingAct ∧ t.kept.flashImage = s.kept.flashImage) ∧
      ∀ c g, s.mgmt.mode = .applying → s.mgmt.cancelWaits = some c → Does (.applyComplete g) s fun t =>
        .reply c "CancelUpdate: NOT_IN_UPDATE_MODE" [] ∈ t.out) ∧
    (s.mgmt.updBinding = none → Does .fwUpdateTimeout s (fun t => t = s) ∧ ∀ g, Does (.applyComplete g) s fun t => t = s)) ∧
  (∀ s : State,
    (s.rd HAL_BOOT_STS.STAGE ≠ 7 → s.mgmt.image ≠ [] → Does .recoveryRequest s fun t => t = s.emit (.recoveryImage s.mgmt.image)) ∧
    (s.rd HAL_BOOT_STS.STAGE = 7 → Does .recoveryRequest s fun t => t = s) ∧
    (s.mgmt.recoveryFrom = none → Does .recoveryPartnerTimeout s fun t => t = s) ∧
    ∀ a, s.mgmt.recoveryFrom = some a →
      (s.rackTime < a + 2000000000 → Does .recoveryPartnerTimeout s fun t => t = s) ∧
      (a + 2000000000 ≤ s.rackTime → Does .recoveryPartnerTimeout s fun t => t = { s with mgmt := { s.mgmt with recoveryFrom := none } })) ∧
  ∀ (q : Requester) (img : Bytes) (good : Bool) (s : State),
    ((s.rd HAL_BOOT_STS.STAGE ≠ 7 ∨ s.mgmt.recoveryFrom = none) → Does (.recoveryImageReceive img good) s fun t => t = s) ∧
    (s.takes q .mgt = true → (s.rd HAL_BOOT_STS.STAGE ≠ 7 ∨ s.mgmt.recoveryFrom ≠ none ∨ s.mgmt.mode = .applying) → Does (.recoveryGo q good) s fun t => t = Claims.touched s q) ∧
    ∀ k b, (k = Instr.recoveryImageReceive img good ∧ s.mgmt.recoveryFrom ≠ none ∧ b = img ∨
        k = Instr.recoveryGo q good ∧ s.takes q .mgt = true ∧ s.mgmt.recoveryFrom = none ∧ s.mgmt.mode ≠ .applying ∧
          b = s.windowImage (s.rd MGT_RECOVERY.LENGTH)) →
      s.rd HAL_BOOT_STS.STAGE = 7 →
      (s.imageOk b = false → Does k s fun t =>
        t.rd MGT_STS.RECOVERY_TRIES = min (s.rd MGT_STS.RECOVERY_TRIES + 1) 0xFF ∧ t.mgmt.recoveryFrom = some s.rackTime ∧
        t.out = s.out ++ [.recoveryRequest] ∧ t.kept = s.kept) ∧
      (s.imageOk b = true → good = true → s.pair.slot ≤ 35 → s.kept.faulty = none → s.retest = {} → Does k s fun t => Claims.cameUp { s with kept := { s.kept with flashImage := b } } t 3) ∧
      (s.imageOk b = true → good = false → Does k s fun t => t.kept.flashImage = [] ∧ t.rd HAL_BOOT_STS.STAGE = 7 ∧ t.cores = s.cores)

/-- A submitted record of TYPE `ty` is refused by the first check that fails, which changes nothing but what shows (R501). -/
def Sys2Proof.Claims.recordRefused (s : State) (q : Requester) (i : Instr) (ty : Nat) : Prop :=
  s.takes q .mgt = true → s.on MGT_REC_CTL.BUSY = false → fieldAt s.recordWin 4 1 = ty → s.recordResult s.recordWin ≠ 0 → Does i s fun t =>
    t.kept = s.kept ∧ t.mgmt = { s.mgmt with record := some (s.recordResult s.recordWin) } ∧ t.rd MGT_REC_CTL.BUSY = 1 ∧ t.rd MGT_REC_CTL.SUBMIT = 1 ∧
      Claims.onlyRegs (Claims.touched s q) { t with mgmt := s.mgmt }

/-- SPDM in its order of VERSION, CAPABILITIES and ALGORITHMS; a nonce makes the answer signed under a fresh one; owner records are judged by the checks of R501 in
their order, and an accepted one fuses the owner once, stores a key with its sequence, or grants debug; a nonce is used once; a grant ends when revoked or
past its time (R498 to R507). The order in which SPDM requests are refused is the model's (notes/assumptions/43.md).
What no rule states in it is the model's choice or reading: notes/assumptions/42.md, notes/assumptions/45.md and notes/assumptions/105.md. -/
def Obligations.Trust : Prop :=
  (∀ (b : Binding) (s : State), s.hearsOn b = true →
    let at_ := s.spdmAt b
    (Does (.getVersion b) s fun t => t.spdmAt b = 1 ∧ t.out = s.out ++ Claims.leaves b (.reply b "VERSION" (leBytes 8 0x13)) ∧ ∀ c, c ≠ b → t.spdmAt c = s.spdmAt c) ∧
    (1 ≤ at_ → Does (.getCapabilities b) s fun t => t.spdmAt b = 2 ∧ t.cores = s.cores ∧ ∀ c, c ≠ b → t.spdmAt c = s.spdmAt c) ∧
    (2 ≤ at_ → Does (.negotiateAlgorithms b) s fun t => t.spdmAt b = 3 ∧ t.cores = s.cores ∧ ∀ c, c ≠ b → t.spdmAt c = s.spdmAt c) ∧
    (3 ≤ at_ →
      (Does (.getDigests b) s fun t => Claims.replies s t b "DIGESTS" (sha512 (Config.certChain 0))) ∧
      (∀ o n, Does (.getCertificate b o n) s fun t => Claims.replies s t b "CERTIFICATE" (((Config.certChain 0).drop o).take n)) ∧
      (∀ x, Does (.challenge b x) s fun t => t.mgmt = { s.mgmt with draws := s.mgmt.draws + 2 } ∧ Claims.answered { s with mgmt := t.mgmt } t b) ∧
      (∀ i : Byte, i.toNat ≤ 6 ∨ i = 255 → Does (.getMeasurements b i []) s fun t => ∃ v, Claims.replies s t b "MEASUREMENTS" v ∧ (i = 0 → v = [6]) ∧
        (i = 6 → v.length = 8 ∧ v.getD 3 0 = 0xB0)) ∧
      (∀ (i : Byte) x, i.toNat ≤ 6 ∨ i = 255 → x ≠ [] → Does (.getMeasurements b i x) s fun t =>
        t.mgmt = { s.mgmt with draws := s.mgmt.draws + 2 } ∧ Claims.answered { s with mgmt := t.mgmt } t b)) ∧
    (at_ < 3 → ∀ k, (k = Instr.getDigests b ∨ (∃ o n, k = Instr.getCertificate b o n) ∨ (∃ x, k = Instr.challenge b x) ∨ ∃ i x, k = Instr.getMeasurements b i x) →
      Does k s fun t => Claims.answers s t b "ERROR: UnexpectedRequest" []) ∧
    ∀ k : Byte, Does (.spdmUnsupportedRequest b k) s fun t => Claims.answers s t b "ERROR: UnsupportedRequest" [k.toNat]) ∧
  (∀ (q : Requester) (s : State),
    Claims.recordRefused s q (.ownerRecord q) 1 ∧ Claims.recordRefused s q (.modelKeyRecord q) 2 ∧ Claims.recordRefused s q (.debugAuthRecord q) 3 ∧
    (s.takes q .mgt = true → s.on MGT_REC_CTL.BUSY = false → s.recordResult s.recordWin = 0 →
      let r := s.recordWin
      (fieldAt r 4 1 = 1 → Does (.ownerRecord q) s fun t =>
        s.kept.ownerDigest = none ∧ t.kept = { s.kept with ownerDigest := some (sha512 (recOwnerKey r)) } ∧ t.rd MGT_REC_CTL.BUSY = 1 ∧
        t.rd MGT_REC_CTL.SUBMIT = 1) ∧
      (fieldAt r 4 1 = 2 → Does (.modelKeyRecord q) s fun t =>
        s.kept.ownerDigest = some (sha512 (recOwnerKey r)) ∧ SMap.get 0 t.kept.mkeySeq (fieldAt r 5 1) = fieldAt r 0x28 4 ∧
        SMap.get 0 s.kept.mkeySeq (fieldAt r 5 1) < fieldAt r 0x28 4 ∧ t.kept.ownerDigest = s.kept.ownerDigest ∧
        (s.pair.members ≠ [] → t.kept.mkeys = s.kept.mkeys) ∧
        (s.pair.members = [] → s.kept.mkeysDue = [] →
          SMap.get none t.kept.mkeys (fieldAt r 5 1) = if leNat (recSubject r) = 0 then none else some (recSubject r))) ∧
      (fieldAt r 4 1 = 3 → Does (.debugAuthRecord q) s fun t =>
        s.kept.ownerDigest = some (sha512 (recOwnerKey r)) ∧ t.mgmt.nonce = none ∧ (∀ n < 4, t.rd SEC_NONCEn.NONCE 0 n = 0) ∧
        (((s.pair.member = .outside ∨ s.pair.member = .out ∨ s.pair.member = .halted) ∨ fieldAt r 5 1 / 4 % 2 = 1) →
          t.mgmt.grant = some (fieldAt r 5 1, fieldAt r 0x20 8)) ∧
        ((s.pair.member = .paired ∨ s.pair.member = .alone ∨ s.pair.member = .rejoining) → fieldAt r 5 1 / 4 % 2 = 0 → t.mgmt.grant = none))) ∧
    (s.takes q .mgt = true → s.on MGT_REC_CTL.BUSY = true →
      ∀ k, (k = Instr.ownerRecord q ∧ fieldAt s.recordWin 4 1 = 1 ∨ k = Instr.modelKeyRecord q ∧ fieldAt s.recordWin 4 1 = 2 ∨
          k = Instr.debugAuthRecord q ∧ fieldAt s.recordWin 4 1 = 3) →
        Does k s fun t => Claims.onlyRegs (Claims.touched s q) t ∧ Claims.conflictShows t 2 0x180 Err.RECORD_BUSY)) ∧
  (∀ s : State,
    (s.mgmt.record = none → Does .recordCheckComplete s fun t => t = s) ∧
    (∀ c, s.mgmt.record = some c → Does .recordCheckComplete s fun t =>
      t.mgmt = { s.mgmt with record := none } ∧ t.rd MGT_REC_CTL.BUSY = 0 ∧ t.rd MGT_REC_CTL.SUBMIT = 0 ∧ t.rd MGT_REC_CTL.RESULT = c.toNat ∧ t.kept = s.kept) ∧
    ((∀ g, s.mgmt.grant = some g → g.2 = 0 ∨ s.rackTime < g.2) → Does .debugGrantExpire s fun t => t = s) ∧
    ∀ g, s.mgmt.grant = some g → g.2 ≠ 0 → g.2 ≤ s.rackTime → Does .debugGrantExpire s fun t => t.mgmt.grant = none ∧ t.cores = s.cores) ∧
  ∀ (q : Requester) (s : State), s.takes q .sec = true →
    (Does (.gen q) s fun t =>
      t.mgmt = { s.mgmt with nonce := t.mgmt.nonce, draws := s.mgmt.draws + 1 } ∧ (∃ n, t.mgmt.nonce = some n ∧ n.length = 16) ∧ t.kept = s.kept ∧
      ∃ n, t.mgmt.nonce = some n ∧ ∀ k < 4, t.rd SEC_NONCEn.NONCE 0 k = fieldAt n (4 * k) 4) ∧
    (s.mgmt.grant = none → Does (.revoke q) s fun t => t = Claims.touched s q) ∧
    ∀ g, s.mgmt.grant = some g → Does (.revoke q) s fun t =>
      t.mgmt.grant = none ∧ t.rd64 SEC_DEBUG_END_LO.NOT_AFTER = 0 ∧ t.cores = s.cores ∧ ∀ x ∈ s.ptbPages, t.rd PG_PTB_CTL.ENABLE x = 0

/-! The machine as a whole. -/

/-- A step runs the command at the front of the queue with the queue's rest. On an empty queue it is the 10 ns of rack time that
notes/assumptions/6.md chooses: pace tokens are counted from the present handshakes, the link of a package in Banked is in L1, and nothing else changes while no
switch of the kindling column settles, no rail moves, nothing waits on the fabric and no lane has a NAK or credits to send (R98, R391, R413, R448, R461, R475;
notes/assumptions/130.md and notes/assumptions/148.md). -/
def Obligations.StepRunsFront : Prop :=
  (∀ (c : Instr) (rest : List Instr) (s : State), step { s with pending := c :: rest } = exec c { s with pending := rest }) ∧
  ∀ s : State, s.pending = [] → s.kind.settling = [] → s.fab.transits = [] → s.fab.chimney = [] → s.fab.bulk = [] → s.fab.seen = s.out.length →
    (∀ e ∈ s.lanes, e.2.nak = false ∧ ∀ n ∈ e.2.owed, n = 0) → (s.railsHeld = true → s.power.rail = 10 * opMv.getD s.targetOp 0) →
    step s = .next { s with
      rackTime := s.rackTime + (10 - min 10 s.heldBack), heldBack := s.heldBack - min 10 s.heldBack
      power := { s.power with paced := if s.on PWR_PACE.ENABLE = true then s.cores.map fun e => (e.1, e.2.hsCnt) else [] }
      pcie := { s.pcie with l1 := s.pcie.l1 || decide (s.power.fire = .banked) } }

/-- The mapping of a cellar byte address to its stack, pseudo-channel, unit and byte is one to one over the larger part's mapped addresses
(R360, R361). -/
def Obligations.CelHashOneToOne : Prop :=
  ∀ a b : Nat, a < 8583 * 2 ^ 26 → b < 8583 * 2 ^ 26 → (celHash a).1 = (celHash b).1 → (celHash a).2.1 = (celHash b).2.1 →
    (celHash a).2.2.2 = (celHash b).2.2.2 → a % 256 = b % 256 → a = b

/-- After reset every byte memory of the package has its canonical form, the queue is empty, every register field reads its reset value, every
context is HALTED, every sequence entry FREE, every model slot EVICTED, and the package OUTSIDE (R68, R234, R421, R511).
What no rule states in it is the model's choice or reading: notes/assumptions/3.md and notes/assumptions/4.md. -/
def Obligations.ResetInvariant : Prop :=
  State.reset.memOk = true ∧ State.reset.pending = [] ∧ (∀ (f : Fld) (i j : Nat), State.reset.rd f i j = bitsN (f.word % 2 ^ 32) f.hi f.lo) ∧
    (∀ c x, (State.reset.ctxOf c x).st = .halted) ∧ (∀ e, (State.reset.seq e).st = .free) ∧ (∀ n, (State.reset.slot n).st = .evicted) ∧
    State.reset.pair.member = .outside

/-- Every step keeps the canonical form of every byte memory: the cellar, each core's local store and instruction memory, the porches and the
stewards' stores. -/
def Obligations.StepKeepsMemories : Prop :=
  ∀ s t : State, s.memOk = true → step s = .next t → t.memOk = true

/-- Every command completes, from any state; none changes the waiting queue, the fused ordering code and serial, or an owner digest once fused (R2,
R490, R502). -/
def Obligations.EveryCommandCompletes : Prop :=
  ∀ (i : Instr) (s : State), Does i s fun t =>
    t.pending = s.pending ∧ t.kept.orderingA = s.kept.orderingA ∧ t.kept.serial = s.kept.serial ∧
      ∀ d, s.kept.ownerDigest = some d → t.kept.ownerDigest = some d
end

