-- ==== Sys2Proof/Laws/Fabric.lean ====
section
/-!
SUPPORT. What a turn of the fabric can change: the fabric's own state, the lanes, the pair link, the gateways' transfers and what has been sent.
-/
namespace Sys2Proof.Machine

/-- The fabric, the lanes, the pair link, the gateways' transfers and the outputs are all that differs. -/
def FabricOnly (s t : State) : Prop := t = { s with fab := t.fab, lanes := t.lanes, pair := t.pair, wings := t.wings, out := t.out }

theorem FabricOnly.refl (s : State) : FabricOnly s s := by unfold FabricOnly; rfl

theorem FabricOnly.trans {s t u : State} (h : FabricOnly s t) (k : FabricOnly t u) : FabricOnly s u := by
  unfold FabricOnly at *; rw [k, h]

theorem FabricOnly.foldl {α : Type} (f : State → α → State) (h : ∀ s a, FabricOnly s (f s a)) (l : List α) (s : State) : FabricOnly s (l.foldl f s) := by
  induction l generalizing s with
  | nil => exact rfl
  | cons a l ih => exact FabricOnly.trans (h s a) (ih _)

theorem State.sendCodeword_fabricOnly (s : State) (l : Nat) (d : Bool) (q : Nat) : FabricOnly s (s.sendCodeword l d q) := by unfold FabricOnly; rfl

theorem State.onLane_fabricOnly (s : State) (l : Nat) (f : LaneSt → LaneSt) : FabricOnly s (s.onLane l f) :=
  FabricOnly.trans (t := s.updLane l f) (by unfold FabricOnly; rfl) (FabricOnly.foldl _ (fun q i => State.sendCodeword_fabricOnly q _ _ _) _ _)

theorem State.putFlit_fabricOnly (s : State) (g : Grant) : FabricOnly s (s.putFlit g) := by
  have pair (q : State) (l : Nat) : FabricOnly q (if (q.lane l).slots = 0 then q.updPair fun p => { p with stripe := (l - 72 + 1) % 16 } else q) := by
    unfold FabricOnly; split <;> rfl
  unfold State.putFlit
  simp only
  split <;> try split
  all_goals first
    | exact FabricOnly.refl _
    | exact State.onLane_fabricOnly _ _ _
    | (split <;> first | exact FabricOnly.refl _ | exact State.onLane_fabricOnly _ _ _ | exact FabricOnly.trans (State.onLane_fabricOnly _ _ _) (pair _ _))

theorem State.sendChimney_fabricOnly (s : State) : FabricOnly s s.sendChimney := by
  refine FabricOnly.foldl _ (fun s e => ?_) _ s
  unfold FabricOnly; simp only; split <;> rfl

theorem State.sendHall_fabricOnly (s : State) : FabricOnly s s.sendHall := by
  refine FabricOnly.foldl _ (fun s e => ?_) _ s
  unfold FabricOnly; simp only
  split
  · rfl
  · split
    · split <;> rfl
    · rfl

theorem State.linkIdle_fabricOnly (s : State) : FabricOnly s s.linkIdle := by
  refine FabricOnly.foldl _ (fun s e => ?_) _ s
  split
  · exact State.sendCodeword_fabricOnly _ _ _ _
  · exact FabricOnly.refl _

theorem State.fabricDone_fabricOnly (s : State) : FabricOnly s s.fabricDone := by
  refine FabricOnly.foldl _ (fun s t => ?_) _ s
  unfold FabricOnly; simp only; split <;> rfl

/-- A turn of the fabric touches no core, no memory and no register (R384 to R396). -/
theorem State.fabricTurn_fabricOnly (s : State) : FabricOnly s s.fabricTurn := by
  have a : FabricOnly s s.takeSent.sendChimney.sendHall.linkIdle :=
    (((FabricOnly.trans (t := s.takeSent) (by unfold FabricOnly; rfl) (State.sendChimney_fabricOnly _)).trans (State.sendHall_fabricOnly _)).trans
      (State.linkIdle_fabricOnly _))
  have b (f : FabricSt) (q : State) : FabricOnly q { q with fab := f } := by unfold FabricOnly; rfl
  unfold State.fabricTurn
  simp only
  split
  · exact a
  · exact ((a.trans (FabricOnly.foldl _ State.putFlit_fabricOnly _ _)).trans (b _ _)).trans (State.fabricDone_fabricOnly _)

end Sys2Proof.Machine
end

