-- ==== Sys2Proof/Laws/Map.lean ====
section
/-!
SUPPORT. Laws of sparse maps and byte memories: a read after a write, and that every operation keeps the canonical form. Reads need no
premise on the map.
-/
namespace Sys2Proof.Machine

variable {α : Type}

/-! Reads. -/

theorem SMap.get_drop (d : α) (m : SMap α) (i j : Nat) : SMap.get d (SMap.drop m i) j = if j = i then d else SMap.get d m j := by
  induction m with
  | nil => simp [SMap.drop, SMap.get]
  | cons e m ih =>
    obtain ⟨k, v⟩ := e
    simp only [SMap.drop] at ih ⊢
    by_cases hk : k = i
    · subst hk
      rw [List.filter_cons_of_neg (by simp), ih]
      by_cases hj : j = k <;> simp [SMap.get, hj]
    · rw [List.filter_cons_of_pos (by simpa using hk)]
      simp only [SMap.get, ih]
      by_cases hj : j = k <;> simp [hj, hk]

theorem SMap.get_ins (d : α) (m : SMap α) (i : Nat) (x : α) (j : Nat) (h : ∀ e ∈ m, e.1 ≠ i) :
    SMap.get d (SMap.ins i x m) j = if j = i then x else SMap.get d m j := by
  induction m with
  | nil => simp [SMap.ins, SMap.get]
  | cons e m ih =>
    obtain ⟨k, v⟩ := e
    have hk : k ≠ i := h _ (List.mem_cons_self ..)
    have := ih fun e he => h e (List.mem_cons_of_mem _ he)
    simp only [SMap.ins]
    split <;> simp only [SMap.get]
    simp only [this]
    by_cases hj : j = k <;> simp_all

/-- A read after a write. -/
theorem SMap.get_set [DecidableEq α] (d : α) (m : SMap α) (i j : Nat) (x : α) :
    SMap.get d (SMap.set d m i x) j = if j = i then x else SMap.get d m j := by
  unfold SMap.set
  split
  · rename_i h; rw [SMap.get_drop, h]
  · rw [SMap.get_ins, SMap.get_drop]
    · split <;> rfl
    · intro e he; simpa [SMap.drop] using (List.mem_filter.mp he).2

@[simp] theorem SMap.get_set_same [DecidableEq α] (d : α) (m : SMap α) (i : Nat) (x : α) : SMap.get d (SMap.set d m i x) i = x := by
  simp [SMap.get_set]

theorem SMap.get_set_ne [DecidableEq α] (d : α) (m : SMap α) {i j : Nat} (x : α) (h : j ≠ i) :
    SMap.get d (SMap.set d m i x) j = SMap.get d m j := by simp [SMap.get_set, h]

@[simp] theorem SMap.get_upd_same [DecidableEq α] (d : α) (m : SMap α) (i : Nat) (f : α → α) :
    SMap.get d (SMap.upd d m i f) i = f (SMap.get d m i) := by simp [SMap.upd]

theorem SMap.get_upd [DecidableEq α] (d : α) (m : SMap α) (i j : Nat) (f : α → α) :
    SMap.get d (SMap.upd d m i f) j = if j = i then f (SMap.get d m i) else SMap.get d m j := by simp [SMap.upd, SMap.get_set]

theorem SMap.get_upd_ne [DecidableEq α] (d : α) (m : SMap α) {i j : Nat} (f : α → α) (h : j ≠ i) :
    SMap.get d (SMap.upd d m i f) j = SMap.get d m j := by simp [SMap.get_upd, h]

@[simp] theorem SMap.get_nil (d : α) (i : Nat) : SMap.get d [] i = d := rfl

/-- A read after a range was cleared. -/
theorem SMap.get_dropRange (d : α) (m : SMap α) (lo n j : Nat) :
    SMap.get d (SMap.dropRange m lo n) j = if lo ≤ j ∧ j < lo + n then d else SMap.get d m j := by
  induction m with
  | nil => simp [SMap.dropRange, SMap.get]
  | cons e m ih =>
    obtain ⟨k, v⟩ := e
    simp only [SMap.dropRange] at ih ⊢
    by_cases hk : k < lo ∨ lo + n ≤ k
    · rw [List.filter_cons_of_pos (by simpa using hk)]
      simp only [SMap.get, ih]
      by_cases hj : j = k
      · subst hj
        have : ¬ (lo ≤ j ∧ j < lo + n) := by omega
        simp [this]
      · simp [hj]
    · rw [List.filter_cons_of_neg (by simpa using hk), ih]
      by_cases hj : j = k
      · subst hj
        have : lo ≤ j ∧ j < lo + n := by omega
        simp [this]
      · simp [SMap.get, hj]

/-- A read through entries that do not list the key. -/
theorem SMap.get_append_right (d : α) (m k : SMap α) (j : Nat) (h : ∀ e ∈ m, e.1 ≠ j) : SMap.get d (m ++ k) j = SMap.get d k j := by
  induction m with
  | nil => rfl
  | cons e m ih =>
    rw [List.cons_append, SMap.get, if_neg fun hj => h e (List.mem_cons_self ..) hj.symm]
    exact ih fun x hx => h x (List.mem_cons_of_mem _ hx)

theorem SMap.get_append_left (d : α) (m k : SMap α) (j : Nat) (h : ∀ e ∈ k, e.1 ≠ j) : SMap.get d (m ++ k) j = SMap.get d m j := by
  induction m with
  | nil => rw [List.nil_append, ← List.append_nil k, SMap.get_append_right d k [] j h]
  | cons e m ih => simp only [List.cons_append, SMap.get, ih]

/-- A read of the entries whose keys hold a property. -/
theorem SMap.get_filter (d : α) (m : SMap α) (p : Nat → Bool) (j : Nat) :
    SMap.get d (m.filter fun e => p e.1) j = if p j = true then SMap.get d m j else d := by
  induction m with
  | nil => simp [SMap.get]
  | cons e m ih =>
    obtain ⟨k, v⟩ := e
    by_cases hk : p k = true
    · rw [List.filter_cons_of_pos (by exact hk)]
      simp only [SMap.get, ih]
      by_cases hj : j = k
      · subst hj; simp [hk]
      · simp [hj]
    · rw [List.filter_cons_of_neg (by exact hk), ih]
      by_cases hj : j = k
      · subst hj; simp [hk]
      · simp [SMap.get, hj]

/-- A read of entries that all hold one value. -/
theorem SMap.get_const (d v : α) (f : Nat → Nat) (l : List Nat) (j : Nat) :
    SMap.get d (l.map fun k => (f k, v)) j = if ∃ k ∈ l, f k = j then v else d := by
  induction l with
  | nil => simp
  | cons k l ih =>
    by_cases hj : f k = j
    · simp [SMap.get, hj]
    · have : j ≠ f k := fun h => hj h.symm
      simp [SMap.get, ih, hj, this]

/-! The canonical form. -/

section
variable [DecidableEq α] {d : α}

theorem SMap.okFrom_mono {m : SMap α} {a b : Nat} (h : SMap.okFrom d b m) (hab : a ≤ b) : SMap.okFrom d a m := by
  cases m with
  | nil => rfl
  | cons e m => simp only [SMap.okFrom, Bool.and_eq_true, decide_eq_true_eq] at h ⊢; exact ⟨⟨by omega, h.1.2⟩, h.2⟩

theorem SMap.okFrom_filter {m : SMap α} (p : Nat × α → Bool) : ∀ {lo : Nat}, SMap.okFrom d lo m → SMap.okFrom d lo (m.filter p) := by
  induction m with
  | nil => intro _ h; exact h
  | cons e m ih =>
    intro lo h
    simp only [SMap.okFrom, Bool.and_eq_true, decide_eq_true_eq] at h
    have h2 := ih h.2
    simp only [List.filter]
    split
    · simp only [SMap.okFrom, Bool.and_eq_true, decide_eq_true_eq]; exact ⟨h.1, h2⟩
    · exact SMap.okFrom_mono h2 (by omega)

theorem SMap.okFrom_ins {m : SMap α} {i : Nat} {x : α} (hx : x ≠ d) :
    ∀ {lo : Nat}, lo ≤ i → (∀ e ∈ m, e.1 ≠ i) → SMap.okFrom d lo m → SMap.okFrom d lo (SMap.ins i x m) := by
  induction m with
  | nil => intro lo hl _ _; simp [SMap.ins, SMap.okFrom, hl, hx]
  | cons e m ih =>
    intro lo hl hne h
    have hk := hne _ (List.mem_cons_self ..)
    simp only [SMap.okFrom, Bool.and_eq_true, decide_eq_true_eq] at h
    simp only [SMap.ins]
    split <;> simp only [SMap.okFrom, Bool.and_eq_true, decide_eq_true_eq]
    · exact ⟨⟨hl, hx⟩, ⟨by omega, h.1.2⟩, h.2⟩
    · exact ⟨h.1, ih (by omega) (fun e he => hne e (List.mem_cons_of_mem _ he)) h.2⟩

/-- A write keeps the canonical form. -/
theorem SMap.wf_set {m : SMap α} (h : SMap.wf d m) (i : Nat) (x : α) : SMap.wf d (SMap.set d m i x) := by
  unfold SMap.set SMap.wf at *
  split
  · exact SMap.okFrom_filter _ h
  · refine SMap.okFrom_ins (by assumption) (Nat.zero_le _) ?_ (SMap.okFrom_filter _ h)
    intro e he; simpa [SMap.drop] using (List.mem_filter.mp he).2

/-- A change of one key keeps the canonical form. -/
theorem SMap.wf_upd {m : SMap α} (h : SMap.wf d m) (i : Nat) (f : α → α) : SMap.wf d (SMap.upd d m i f) := SMap.wf_set h i _

/-- Two canonical parts, every key of the first below `b`, make a canonical whole. -/
theorem SMap.okFrom_append {m k : SMap α} {b : Nat} (hk : SMap.okFrom d b k) :
    ∀ {lo : Nat}, lo ≤ b → SMap.okFrom d lo m → (∀ e ∈ m, e.1 < b) → SMap.okFrom d lo (m ++ k) := by
  induction m with
  | nil => intro lo hl _ _; exact SMap.okFrom_mono hk hl
  | cons e m ih =>
    intro lo _ h hb
    simp only [List.cons_append, SMap.okFrom, Bool.and_eq_true] at h ⊢
    exact ⟨h.1, ih (hb e (List.mem_cons_self ..)) h.2 fun x hx => hb x (List.mem_cons_of_mem _ hx)⟩

/-- The entries from a key up stand from that key up. -/
theorem SMap.okFrom_above {m : SMap α} (b : Nat) : ∀ {lo : Nat}, SMap.okFrom d lo m → SMap.okFrom d b (m.filter fun e => decide (b ≤ e.1)) := by
  induction m with
  | nil => intro _ _; rfl
  | cons e m ih =>
    intro lo h
    simp only [SMap.okFrom, Bool.and_eq_true, decide_eq_true_eq] at h
    by_cases hb : b ≤ e.1
    · rw [List.filter_cons_of_pos (by simpa using hb)]
      simp only [SMap.okFrom, Bool.and_eq_true, decide_eq_true_eq]
      exact ⟨⟨hb, h.1.2⟩, SMap.okFrom_filter _ h.2⟩
    · rw [List.filter_cons_of_neg (by simpa using hb)]
      exact ih h.2

/-- Clearing a range keeps the canonical form. -/
theorem SMap.wf_dropRange {m : SMap α} (h : SMap.wf d m) (lo n : Nat) : SMap.wf d (SMap.dropRange m lo n) := SMap.okFrom_filter _ h

end

/-! Byte memories. -/

/-- A byte read after a byte written. -/
theorem Memory.byte_setByte (m : Memory) (a b : Nat) (v : Byte) :
    Memory.byte (Memory.setByte m a v) b = if b = a then v else Memory.byte m b := SMap.get_set ..

/-- A byte read after a string written: inside the string its byte, outside the byte before. -/
theorem Memory.byte_write (m : Memory) (a : Nat) (bs : Bytes) (b : Nat) :
    Memory.byte (Memory.write m a bs) b = if a ≤ b ∧ b < a + bs.length then bs.getD (b - a) 0 else Memory.byte m b := by
  induction bs generalizing m a with
  | nil => rw [if_neg (by simp only [List.length_nil]; omega)]; rfl
  | cons v bs ih =>
    rw [Memory.write, ih, Memory.byte_setByte]
    by_cases h : b = a
    · subst h
      rw [if_neg (by omega), if_pos rfl, if_pos (by simp)]
      simp
    · simp only [h, if_false, List.length_cons]
      by_cases h2 : a + 1 ≤ b ∧ b < a + 1 + bs.length
      · have h3 : a ≤ b ∧ b < a + (bs.length + 1) := by omega
        obtain ⟨k, hk⟩ : ∃ k, b - a = k + 1 := ⟨b - a - 1, by omega⟩
        rw [if_pos h2, if_pos h3, hk, show b - (a + 1) = k by omega]; rfl
      · have h3 : ¬ (a ≤ b ∧ b < a + (bs.length + 1)) := by omega
        rw [if_neg h2, if_neg h3]

/-- A byte read after a range was cleared. -/
theorem Memory.byte_zero (m : Memory) (a n b : Nat) :
    Memory.byte (Memory.zero m a n) b = if a ≤ b ∧ b < a + n then 0 else Memory.byte m b := SMap.get_dropRange ..

/-- A byte read after a range was filled with zero packs: 63 zero bytes and the tag 0x02 (R31). -/
theorem Memory.byte_zeroPacks (m : Memory) (a n b : Nat) (h : n % 64 = 0) :
    Memory.byte (Memory.zeroPacks m a n) b =
      if a ≤ b ∧ b < a + n then (if (b - a) % 64 = 63 then 0x02 else 0) else Memory.byte m b := by
  have packs := SMap.get_const (0 : Byte) 0x02 (fun k => a + 64 * k + 63) (List.range (n / 64)) b
  have inside : (∃ k ∈ List.range (n / 64), a + 64 * k + 63 = b) ↔ a ≤ b ∧ b < a + n ∧ (b - a) % 64 = 63 := by
    constructor
    · rintro ⟨k, hk, rfl⟩; have := List.mem_range.mp hk; omega
    · rintro ⟨h1, h2, h3⟩; exact ⟨(b - a) / 64, List.mem_range.mpr (by omega), by omega⟩
  simp only [inside] at packs
  unfold Memory.byte Memory.zeroPacks
  by_cases low : b < a
  · rw [SMap.get_append_left, SMap.get_append_left, SMap.get_filter 0 m (fun k => decide (k < a)), if_pos (decide_eq_true low), if_neg (by omega)]
    · intro e he hb
      obtain ⟨k, _, rfl⟩ := List.mem_map.mp he
      simp only at hb; omega
    · intro e he hb
      have : a + n ≤ e.1 := by simpa using (List.mem_filter.mp he).2
      omega
  · rw [List.append_assoc, SMap.get_append_right]
    · by_cases high : a + n ≤ b
      · rw [SMap.get_append_right, SMap.get_filter 0 m (fun k => decide (a + n ≤ k)), if_pos (decide_eq_true high), if_neg (by omega)]
        · intro e he hb
          obtain ⟨k, hk, rfl⟩ := List.mem_map.mp he
          have := List.mem_range.mp hk
          simp only at hb; omega
      · rw [SMap.get_append_left, packs]
        · simp [show a ≤ b by omega, show b < a + n by omega]
        · intro e he hb
          have : a + n ≤ e.1 := by simpa using (List.mem_filter.mp he).2
          omega
    · intro e he hb
      have : e.1 < a := by simpa using (List.mem_filter.mp he).2
      omega

theorem Memory.wf_setByte {m : Memory} (h : Memory.wf m) (a : Nat) (v : Byte) : Memory.wf (Memory.setByte m a v) := SMap.wf_set h a v

theorem Memory.wf_write {m : Memory} (h : Memory.wf m) (a : Nat) (bs : Bytes) : Memory.wf (Memory.write m a bs) := by
  induction bs generalizing m a with
  | nil => exact h
  | cons v bs ih => exact ih (Memory.wf_setByte h a v) _

theorem Memory.wf_zero {m : Memory} (h : Memory.wf m) (a n : Nat) : Memory.wf (Memory.zero m a n) := SMap.wf_dropRange h a n

theorem Memory.okFrom_packs (n : Nat) : ∀ a, SMap.okFrom (0 : Byte) a ((List.range n).map fun k => (a + 64 * k + 63, (0x02 : Byte))) := by
  induction n with
  | zero => intro _; rfl
  | succ n ih =>
    intro a
    rw [List.range_succ_eq_map, List.map_cons, List.map_map]
    simp only [SMap.okFrom, Bool.and_eq_true, decide_eq_true_eq]
    refine ⟨⟨by omega, by decide⟩, ?_⟩
    have e : ((fun k => (a + 64 * k + 63, (0x02 : Byte))) ∘ Nat.succ) = fun k => (a + 64 + 64 * k + 63, (0x02 : Byte)) := by
      funext k; simp only [Function.comp_apply, Prod.mk.injEq, and_true]; omega
    rw [e]
    exact SMap.okFrom_mono (ih (a + 64)) (by omega)

theorem Memory.wf_zeroPacks {m : Memory} (h : Memory.wf m) (a n : Nat) : Memory.wf (Memory.zeroPacks m a n) := by
  have low : ∀ e ∈ m.filter (fun e => decide (e.1 < a)), e.1 < a := fun e he => by simpa using (List.mem_filter.mp he).2
  have mid : ∀ e ∈ (List.range (n / 64)).map (fun k => (a + 64 * k + 63, (0x02 : Byte))), e.1 < a + n := by
    intro e he
    obtain ⟨k, hk, rfl⟩ := List.mem_map.mp he
    have := List.mem_range.mp hk
    show a + 64 * k + 63 < a + n
    omega
  rw [Memory.wf, Memory.zeroPacks, List.append_assoc]
  refine SMap.okFrom_append (b := a) ?_ (Nat.zero_le _) (SMap.okFrom_filter _ h) low
  exact SMap.okFrom_append (b := a + n) (SMap.okFrom_above _ h) (by omega) (Memory.okFrom_packs ..) mid

@[simp] theorem Memory.length_read (m : Memory) (a n : Nat) : (Memory.read m a n).length = n := by simp [Memory.read]

end Sys2Proof.Machine
end

