-- ==== Sys2Proof/Laws/State.lean ====
section
/-!
SUPPORT. What each named update of the package changes and leaves, field by field: every other field is as before. All by rfl.
-/
namespace Sys2Proof.Machine

section
variable (s : State) (c : Nat) (f : Core → Core)
@[simp] theorem State.updCore_pending : (s.updCore c f).pending = s.pending := rfl
@[simp] theorem State.updCore_out : (s.updCore c f).out = s.out := rfl
@[simp] theorem State.updCore_freeCtr : (s.updCore c f).freeCtr = s.freeCtr := rfl
@[simp] theorem State.updCore_rackTime : (s.updCore c f).rackTime = s.rackTime := rfl
@[simp] theorem State.updCore_heldBack : (s.updCore c f).heldBack = s.heldBack := rfl
@[simp] theorem State.updCore_rtimeSeen : (s.updCore c f).rtimeSeen = s.rtimeSeen := rfl
@[simp] theorem State.updCore_regs : (s.updCore c f).regs = s.regs := rfl
@[simp] theorem State.updCore_latch : (s.updCore c f).latch = s.latch := rfl
@[simp] theorem State.updCore_heldLow : (s.updCore c f).heldLow = s.heldLow := rfl
@[simp] theorem State.updCore_cores : (s.updCore c f).cores = SMap.upd Core.reset s.cores c f := rfl
@[simp] theorem State.updCore_barriers : (s.updCore c f).barriers = s.barriers := rfl
@[simp] theorem State.updCore_wings : (s.updCore c f).wings = s.wings := rfl
@[simp] theorem State.updCore_cellar : (s.updCore c f).cellar = s.cellar := rfl
@[simp] theorem State.updCore_cel : (s.updCore c f).cel = s.cel := rfl
@[simp] theorem State.updCore_table : (s.updCore c f).table = s.table := rfl
@[simp] theorem State.updCore_kv : (s.updCore c f).kv = s.kv := rfl
@[simp] theorem State.updCore_clients : (s.updCore c f).clients = s.clients := rfl
@[simp] theorem State.updCore_cliChanges : (s.updCore c f).cliChanges = s.cliChanges := rfl
@[simp] theorem State.updCore_porches : (s.updCore c f).porches = s.porches := rfl
@[simp] theorem State.updCore_accepted : (s.updCore c f).accepted = s.accepted := rfl
@[simp] theorem State.updCore_rings : (s.updCore c f).rings = s.rings := rfl
@[simp] theorem State.updCore_porchTurn : (s.updCore c f).porchTurn = s.porchTurn := rfl
@[simp] theorem State.updCore_resultTurn : (s.updCore c f).resultTurn = s.resultTurn := rfl
@[simp] theorem State.updCore_deferred : (s.updCore c f).deferred = s.deferred := rfl
@[simp] theorem State.updCore_promptReady : (s.updCore c f).promptReady = s.promptReady := rfl
@[simp] theorem State.updCore_moved : (s.updCore c f).moved = s.moved := rfl
@[simp] theorem State.updCore_movedFailed : (s.updCore c f).movedFailed = s.movedFailed := rfl
@[simp] theorem State.updCore_resumed : (s.updCore c f).resumed = s.resumed := rfl
@[simp] theorem State.updCore_resumeFailed : (s.updCore c f).resumeFailed = s.resumeFailed := rfl
@[simp] theorem State.updCore_slots : (s.updCore c f).slots = s.slots := rfl
@[simp] theorem State.updCore_seated : (s.updCore c f).seated = s.seated := rfl
@[simp] theorem State.updCore_ptbSteps : (s.updCore c f).ptbSteps = s.ptbSteps := rfl
@[simp] theorem State.updCore_staged : (s.updCore c f).staged = s.staged := rfl
@[simp] theorem State.updCore_step : (s.updCore c f).step = s.step := rfl
@[simp] theorem State.updCore_pair : (s.updCore c f).pair = s.pair := rfl
@[simp] theorem State.updCore_lanes : (s.updCore c f).lanes = s.lanes := rfl
@[simp] theorem State.updCore_power : (s.updCore c f).power = s.power := rfl
@[simp] theorem State.updCore_mgmt : (s.updCore c f).mgmt = s.mgmt := rfl
@[simp] theorem State.updCore_kept : (s.updCore c f).kept = s.kept := rfl
@[simp] theorem State.updCore_kind : (s.updCore c f).kind = s.kind := rfl
@[simp] theorem State.updCore_sweepRound : (s.updCore c f).sweepRound = s.sweepRound := rfl
@[simp] theorem State.updCore_stewards : (s.updCore c f).stewards = s.stewards := rfl
@[simp] theorem State.updCore_pcie : (s.updCore c f).pcie = s.pcie := rfl
@[simp] theorem State.updCore_pins : (s.updCore c f).pins = s.pins := rfl
@[simp] theorem State.updCore_fab : (s.updCore c f).fab = s.fab := rfl
end

section
variable (s : State) (w : Nat) (f : WingSt → WingSt)
@[simp] theorem State.updWing_pending : (s.updWing w f).pending = s.pending := rfl
@[simp] theorem State.updWing_out : (s.updWing w f).out = s.out := rfl
@[simp] theorem State.updWing_freeCtr : (s.updWing w f).freeCtr = s.freeCtr := rfl
@[simp] theorem State.updWing_rackTime : (s.updWing w f).rackTime = s.rackTime := rfl
@[simp] theorem State.updWing_heldBack : (s.updWing w f).heldBack = s.heldBack := rfl
@[simp] theorem State.updWing_rtimeSeen : (s.updWing w f).rtimeSeen = s.rtimeSeen := rfl
@[simp] theorem State.updWing_regs : (s.updWing w f).regs = s.regs := rfl
@[simp] theorem State.updWing_latch : (s.updWing w f).latch = s.latch := rfl
@[simp] theorem State.updWing_heldLow : (s.updWing w f).heldLow = s.heldLow := rfl
@[simp] theorem State.updWing_cores : (s.updWing w f).cores = s.cores := rfl
@[simp] theorem State.updWing_barriers : (s.updWing w f).barriers = s.barriers := rfl
@[simp] theorem State.updWing_wings : (s.updWing w f).wings = SMap.upd WingSt.reset s.wings w f := rfl
@[simp] theorem State.updWing_cellar : (s.updWing w f).cellar = s.cellar := rfl
@[simp] theorem State.updWing_cel : (s.updWing w f).cel = s.cel := rfl
@[simp] theorem State.updWing_table : (s.updWing w f).table = s.table := rfl
@[simp] theorem State.updWing_kv : (s.updWing w f).kv = s.kv := rfl
@[simp] theorem State.updWing_clients : (s.updWing w f).clients = s.clients := rfl
@[simp] theorem State.updWing_cliChanges : (s.updWing w f).cliChanges = s.cliChanges := rfl
@[simp] theorem State.updWing_porches : (s.updWing w f).porches = s.porches := rfl
@[simp] theorem State.updWing_accepted : (s.updWing w f).accepted = s.accepted := rfl
@[simp] theorem State.updWing_rings : (s.updWing w f).rings = s.rings := rfl
@[simp] theorem State.updWing_porchTurn : (s.updWing w f).porchTurn = s.porchTurn := rfl
@[simp] theorem State.updWing_resultTurn : (s.updWing w f).resultTurn = s.resultTurn := rfl
@[simp] theorem State.updWing_deferred : (s.updWing w f).deferred = s.deferred := rfl
@[simp] theorem State.updWing_promptReady : (s.updWing w f).promptReady = s.promptReady := rfl
@[simp] theorem State.updWing_moved : (s.updWing w f).moved = s.moved := rfl
@[simp] theorem State.updWing_movedFailed : (s.updWing w f).movedFailed = s.movedFailed := rfl
@[simp] theorem State.updWing_resumed : (s.updWing w f).resumed = s.resumed := rfl
@[simp] theorem State.updWing_resumeFailed : (s.updWing w f).resumeFailed = s.resumeFailed := rfl
@[simp] theorem State.updWing_slots : (s.updWing w f).slots = s.slots := rfl
@[simp] theorem State.updWing_seated : (s.updWing w f).seated = s.seated := rfl
@[simp] theorem State.updWing_ptbSteps : (s.updWing w f).ptbSteps = s.ptbSteps := rfl
@[simp] theorem State.updWing_staged : (s.updWing w f).staged = s.staged := rfl
@[simp] theorem State.updWing_step : (s.updWing w f).step = s.step := rfl
@[simp] theorem State.updWing_pair : (s.updWing w f).pair = s.pair := rfl
@[simp] theorem State.updWing_lanes : (s.updWing w f).lanes = s.lanes := rfl
@[simp] theorem State.updWing_power : (s.updWing w f).power = s.power := rfl
@[simp] theorem State.updWing_mgmt : (s.updWing w f).mgmt = s.mgmt := rfl
@[simp] theorem State.updWing_kept : (s.updWing w f).kept = s.kept := rfl
@[simp] theorem State.updWing_kind : (s.updWing w f).kind = s.kind := rfl
@[simp] theorem State.updWing_sweepRound : (s.updWing w f).sweepRound = s.sweepRound := rfl
@[simp] theorem State.updWing_stewards : (s.updWing w f).stewards = s.stewards := rfl
@[simp] theorem State.updWing_pcie : (s.updWing w f).pcie = s.pcie := rfl
@[simp] theorem State.updWing_pins : (s.updWing w f).pins = s.pins := rfl
@[simp] theorem State.updWing_fab : (s.updWing w f).fab = s.fab := rfl
end

section
variable (s : State) (e : Nat) (f : SeqEntry → SeqEntry)
@[simp] theorem State.updSeq_pending : (s.updSeq e f).pending = s.pending := rfl
@[simp] theorem State.updSeq_out : (s.updSeq e f).out = s.out := rfl
@[simp] theorem State.updSeq_freeCtr : (s.updSeq e f).freeCtr = s.freeCtr := rfl
@[simp] theorem State.updSeq_rackTime : (s.updSeq e f).rackTime = s.rackTime := rfl
@[simp] theorem State.updSeq_heldBack : (s.updSeq e f).heldBack = s.heldBack := rfl
@[simp] theorem State.updSeq_rtimeSeen : (s.updSeq e f).rtimeSeen = s.rtimeSeen := rfl
@[simp] theorem State.updSeq_regs : (s.updSeq e f).regs = s.regs := rfl
@[simp] theorem State.updSeq_latch : (s.updSeq e f).latch = s.latch := rfl
@[simp] theorem State.updSeq_heldLow : (s.updSeq e f).heldLow = s.heldLow := rfl
@[simp] theorem State.updSeq_cores : (s.updSeq e f).cores = s.cores := rfl
@[simp] theorem State.updSeq_barriers : (s.updSeq e f).barriers = s.barriers := rfl
@[simp] theorem State.updSeq_wings : (s.updSeq e f).wings = s.wings := rfl
@[simp] theorem State.updSeq_cellar : (s.updSeq e f).cellar = s.cellar := rfl
@[simp] theorem State.updSeq_cel : (s.updSeq e f).cel = s.cel := rfl
@[simp] theorem State.updSeq_table : (s.updSeq e f).table = SMap.upd SeqEntry.blank s.table e f := rfl
@[simp] theorem State.updSeq_kv : (s.updSeq e f).kv = s.kv := rfl
@[simp] theorem State.updSeq_clients : (s.updSeq e f).clients = s.clients := rfl
@[simp] theorem State.updSeq_cliChanges : (s.updSeq e f).cliChanges = s.cliChanges := rfl
@[simp] theorem State.updSeq_porches : (s.updSeq e f).porches = s.porches := rfl
@[simp] theorem State.updSeq_accepted : (s.updSeq e f).accepted = s.accepted := rfl
@[simp] theorem State.updSeq_rings : (s.updSeq e f).rings = s.rings := rfl
@[simp] theorem State.updSeq_porchTurn : (s.updSeq e f).porchTurn = s.porchTurn := rfl
@[simp] theorem State.updSeq_resultTurn : (s.updSeq e f).resultTurn = s.resultTurn := rfl
@[simp] theorem State.updSeq_deferred : (s.updSeq e f).deferred = s.deferred := rfl
@[simp] theorem State.updSeq_promptReady : (s.updSeq e f).promptReady = s.promptReady := rfl
@[simp] theorem State.updSeq_moved : (s.updSeq e f).moved = s.moved := rfl
@[simp] theorem State.updSeq_movedFailed : (s.updSeq e f).movedFailed = s.movedFailed := rfl
@[simp] theorem State.updSeq_resumed : (s.updSeq e f).resumed = s.resumed := rfl
@[simp] theorem State.updSeq_resumeFailed : (s.updSeq e f).resumeFailed = s.resumeFailed := rfl
@[simp] theorem State.updSeq_slots : (s.updSeq e f).slots = s.slots := rfl
@[simp] theorem State.updSeq_seated : (s.updSeq e f).seated = s.seated := rfl
@[simp] theorem State.updSeq_ptbSteps : (s.updSeq e f).ptbSteps = s.ptbSteps := rfl
@[simp] theorem State.updSeq_staged : (s.updSeq e f).staged = s.staged := rfl
@[simp] theorem State.updSeq_step : (s.updSeq e f).step = s.step := rfl
@[simp] theorem State.updSeq_pair : (s.updSeq e f).pair = s.pair := rfl
@[simp] theorem State.updSeq_lanes : (s.updSeq e f).lanes = s.lanes := rfl
@[simp] theorem State.updSeq_power : (s.updSeq e f).power = s.power := rfl
@[simp] theorem State.updSeq_mgmt : (s.updSeq e f).mgmt = s.mgmt := rfl
@[simp] theorem State.updSeq_kept : (s.updSeq e f).kept = s.kept := rfl
@[simp] theorem State.updSeq_kind : (s.updSeq e f).kind = s.kind := rfl
@[simp] theorem State.updSeq_sweepRound : (s.updSeq e f).sweepRound = s.sweepRound := rfl
@[simp] theorem State.updSeq_stewards : (s.updSeq e f).stewards = s.stewards := rfl
@[simp] theorem State.updSeq_pcie : (s.updSeq e f).pcie = s.pcie := rfl
@[simp] theorem State.updSeq_pins : (s.updSeq e f).pins = s.pins := rfl
@[simp] theorem State.updSeq_fab : (s.updSeq e f).fab = s.fab := rfl
end

section
variable (s : State) (f : KvSt → KvSt)
@[simp] theorem State.updKv_pending : (s.updKv f).pending = s.pending := rfl
@[simp] theorem State.updKv_out : (s.updKv f).out = s.out := rfl
@[simp] theorem State.updKv_freeCtr : (s.updKv f).freeCtr = s.freeCtr := rfl
@[simp] theorem State.updKv_rackTime : (s.updKv f).rackTime = s.rackTime := rfl
@[simp] theorem State.updKv_heldBack : (s.updKv f).heldBack = s.heldBack := rfl
@[simp] theorem State.updKv_rtimeSeen : (s.updKv f).rtimeSeen = s.rtimeSeen := rfl
@[simp] theorem State.updKv_regs : (s.updKv f).regs = s.regs := rfl
@[simp] theorem State.updKv_latch : (s.updKv f).latch = s.latch := rfl
@[simp] theorem State.updKv_heldLow : (s.updKv f).heldLow = s.heldLow := rfl
@[simp] theorem State.updKv_cores : (s.updKv f).cores = s.cores := rfl
@[simp] theorem State.updKv_barriers : (s.updKv f).barriers = s.barriers := rfl
@[simp] theorem State.updKv_wings : (s.updKv f).wings = s.wings := rfl
@[simp] theorem State.updKv_cellar : (s.updKv f).cellar = s.cellar := rfl
@[simp] theorem State.updKv_cel : (s.updKv f).cel = s.cel := rfl
@[simp] theorem State.updKv_table : (s.updKv f).table = s.table := rfl
@[simp] theorem State.updKv_kv : (s.updKv f).kv = f s.kv := rfl
@[simp] theorem State.updKv_clients : (s.updKv f).clients = s.clients := rfl
@[simp] theorem State.updKv_cliChanges : (s.updKv f).cliChanges = s.cliChanges := rfl
@[simp] theorem State.updKv_porches : (s.updKv f).porches = s.porches := rfl
@[simp] theorem State.updKv_accepted : (s.updKv f).accepted = s.accepted := rfl
@[simp] theorem State.updKv_rings : (s.updKv f).rings = s.rings := rfl
@[simp] theorem State.updKv_porchTurn : (s.updKv f).porchTurn = s.porchTurn := rfl
@[simp] theorem State.updKv_resultTurn : (s.updKv f).resultTurn = s.resultTurn := rfl
@[simp] theorem State.updKv_deferred : (s.updKv f).deferred = s.deferred := rfl
@[simp] theorem State.updKv_promptReady : (s.updKv f).promptReady = s.promptReady := rfl
@[simp] theorem State.updKv_moved : (s.updKv f).moved = s.moved := rfl
@[simp] theorem State.updKv_movedFailed : (s.updKv f).movedFailed = s.movedFailed := rfl
@[simp] theorem State.updKv_resumed : (s.updKv f).resumed = s.resumed := rfl
@[simp] theorem State.updKv_resumeFailed : (s.updKv f).resumeFailed = s.resumeFailed := rfl
@[simp] theorem State.updKv_slots : (s.updKv f).slots = s.slots := rfl
@[simp] theorem State.updKv_seated : (s.updKv f).seated = s.seated := rfl
@[simp] theorem State.updKv_ptbSteps : (s.updKv f).ptbSteps = s.ptbSteps := rfl
@[simp] theorem State.updKv_staged : (s.updKv f).staged = s.staged := rfl
@[simp] theorem State.updKv_step : (s.updKv f).step = s.step := rfl
@[simp] theorem State.updKv_pair : (s.updKv f).pair = s.pair := rfl
@[simp] theorem State.updKv_lanes : (s.updKv f).lanes = s.lanes := rfl
@[simp] theorem State.updKv_power : (s.updKv f).power = s.power := rfl
@[simp] theorem State.updKv_mgmt : (s.updKv f).mgmt = s.mgmt := rfl
@[simp] theorem State.updKv_kept : (s.updKv f).kept = s.kept := rfl
@[simp] theorem State.updKv_kind : (s.updKv f).kind = s.kind := rfl
@[simp] theorem State.updKv_sweepRound : (s.updKv f).sweepRound = s.sweepRound := rfl
@[simp] theorem State.updKv_stewards : (s.updKv f).stewards = s.stewards := rfl
@[simp] theorem State.updKv_pcie : (s.updKv f).pcie = s.pcie := rfl
@[simp] theorem State.updKv_pins : (s.updKv f).pins = s.pins := rfl
@[simp] theorem State.updKv_fab : (s.updKv f).fab = s.fab := rfl
end

section
variable (s : State) (p : Nat) (f : Porch → Porch)
@[simp] theorem State.updPorch_pending : (s.updPorch p f).pending = s.pending := rfl
@[simp] theorem State.updPorch_out : (s.updPorch p f).out = s.out := rfl
@[simp] theorem State.updPorch_freeCtr : (s.updPorch p f).freeCtr = s.freeCtr := rfl
@[simp] theorem State.updPorch_rackTime : (s.updPorch p f).rackTime = s.rackTime := rfl
@[simp] theorem State.updPorch_heldBack : (s.updPorch p f).heldBack = s.heldBack := rfl
@[simp] theorem State.updPorch_rtimeSeen : (s.updPorch p f).rtimeSeen = s.rtimeSeen := rfl
@[simp] theorem State.updPorch_regs : (s.updPorch p f).regs = s.regs := rfl
@[simp] theorem State.updPorch_latch : (s.updPorch p f).latch = s.latch := rfl
@[simp] theorem State.updPorch_heldLow : (s.updPorch p f).heldLow = s.heldLow := rfl
@[simp] theorem State.updPorch_cores : (s.updPorch p f).cores = s.cores := rfl
@[simp] theorem State.updPorch_barriers : (s.updPorch p f).barriers = s.barriers := rfl
@[simp] theorem State.updPorch_wings : (s.updPorch p f).wings = s.wings := rfl
@[simp] theorem State.updPorch_cellar : (s.updPorch p f).cellar = s.cellar := rfl
@[simp] theorem State.updPorch_cel : (s.updPorch p f).cel = s.cel := rfl
@[simp] theorem State.updPorch_table : (s.updPorch p f).table = s.table := rfl
@[simp] theorem State.updPorch_kv : (s.updPorch p f).kv = s.kv := rfl
@[simp] theorem State.updPorch_clients : (s.updPorch p f).clients = s.clients := rfl
@[simp] theorem State.updPorch_cliChanges : (s.updPorch p f).cliChanges = s.cliChanges := rfl
@[simp] theorem State.updPorch_porches : (s.updPorch p f).porches = SMap.upd Porch.reset s.porches p f := rfl
@[simp] theorem State.updPorch_accepted : (s.updPorch p f).accepted = s.accepted := rfl
@[simp] theorem State.updPorch_rings : (s.updPorch p f).rings = s.rings := rfl
@[simp] theorem State.updPorch_porchTurn : (s.updPorch p f).porchTurn = s.porchTurn := rfl
@[simp] theorem State.updPorch_resultTurn : (s.updPorch p f).resultTurn = s.resultTurn := rfl
@[simp] theorem State.updPorch_deferred : (s.updPorch p f).deferred = s.deferred := rfl
@[simp] theorem State.updPorch_promptReady : (s.updPorch p f).promptReady = s.promptReady := rfl
@[simp] theorem State.updPorch_moved : (s.updPorch p f).moved = s.moved := rfl
@[simp] theorem State.updPorch_movedFailed : (s.updPorch p f).movedFailed = s.movedFailed := rfl
@[simp] theorem State.updPorch_resumed : (s.updPorch p f).resumed = s.resumed := rfl
@[simp] theorem State.updPorch_resumeFailed : (s.updPorch p f).resumeFailed = s.resumeFailed := rfl
@[simp] theorem State.updPorch_slots : (s.updPorch p f).slots = s.slots := rfl
@[simp] theorem State.updPorch_seated : (s.updPorch p f).seated = s.seated := rfl
@[simp] theorem State.updPorch_ptbSteps : (s.updPorch p f).ptbSteps = s.ptbSteps := rfl
@[simp] theorem State.updPorch_staged : (s.updPorch p f).staged = s.staged := rfl
@[simp] theorem State.updPorch_step : (s.updPorch p f).step = s.step := rfl
@[simp] theorem State.updPorch_pair : (s.updPorch p f).pair = s.pair := rfl
@[simp] theorem State.updPorch_lanes : (s.updPorch p f).lanes = s.lanes := rfl
@[simp] theorem State.updPorch_power : (s.updPorch p f).power = s.power := rfl
@[simp] theorem State.updPorch_mgmt : (s.updPorch p f).mgmt = s.mgmt := rfl
@[simp] theorem State.updPorch_kept : (s.updPorch p f).kept = s.kept := rfl
@[simp] theorem State.updPorch_kind : (s.updPorch p f).kind = s.kind := rfl
@[simp] theorem State.updPorch_sweepRound : (s.updPorch p f).sweepRound = s.sweepRound := rfl
@[simp] theorem State.updPorch_stewards : (s.updPorch p f).stewards = s.stewards := rfl
@[simp] theorem State.updPorch_pcie : (s.updPorch p f).pcie = s.pcie := rfl
@[simp] theorem State.updPorch_pins : (s.updPorch p f).pins = s.pins := rfl
@[simp] theorem State.updPorch_fab : (s.updPorch p f).fab = s.fab := rfl
end

section
variable (s : State) (p : Nat) (f : Ring → Ring)
@[simp] theorem State.updRing_pending : (s.updRing p f).pending = s.pending := rfl
@[simp] theorem State.updRing_out : (s.updRing p f).out = s.out := rfl
@[simp] theorem State.updRing_freeCtr : (s.updRing p f).freeCtr = s.freeCtr := rfl
@[simp] theorem State.updRing_rackTime : (s.updRing p f).rackTime = s.rackTime := rfl
@[simp] theorem State.updRing_heldBack : (s.updRing p f).heldBack = s.heldBack := rfl
@[simp] theorem State.updRing_rtimeSeen : (s.updRing p f).rtimeSeen = s.rtimeSeen := rfl
@[simp] theorem State.updRing_regs : (s.updRing p f).regs = s.regs := rfl
@[simp] theorem State.updRing_latch : (s.updRing p f).latch = s.latch := rfl
@[simp] theorem State.updRing_heldLow : (s.updRing p f).heldLow = s.heldLow := rfl
@[simp] theorem State.updRing_cores : (s.updRing p f).cores = s.cores := rfl
@[simp] theorem State.updRing_barriers : (s.updRing p f).barriers = s.barriers := rfl
@[simp] theorem State.updRing_wings : (s.updRing p f).wings = s.wings := rfl
@[simp] theorem State.updRing_cellar : (s.updRing p f).cellar = s.cellar := rfl
@[simp] theorem State.updRing_cel : (s.updRing p f).cel = s.cel := rfl
@[simp] theorem State.updRing_table : (s.updRing p f).table = s.table := rfl
@[simp] theorem State.updRing_kv : (s.updRing p f).kv = s.kv := rfl
@[simp] theorem State.updRing_clients : (s.updRing p f).clients = s.clients := rfl
@[simp] theorem State.updRing_cliChanges : (s.updRing p f).cliChanges = s.cliChanges := rfl
@[simp] theorem State.updRing_porches : (s.updRing p f).porches = s.porches := rfl
@[simp] theorem State.updRing_accepted : (s.updRing p f).accepted = s.accepted := rfl
@[simp] theorem State.updRing_rings : (s.updRing p f).rings = SMap.upd Ring.reset s.rings p f := rfl
@[simp] theorem State.updRing_porchTurn : (s.updRing p f).porchTurn = s.porchTurn := rfl
@[simp] theorem State.updRing_resultTurn : (s.updRing p f).resultTurn = s.resultTurn := rfl
@[simp] theorem State.updRing_deferred : (s.updRing p f).deferred = s.deferred := rfl
@[simp] theorem State.updRing_promptReady : (s.updRing p f).promptReady = s.promptReady := rfl
@[simp] theorem State.updRing_moved : (s.updRing p f).moved = s.moved := rfl
@[simp] theorem State.updRing_movedFailed : (s.updRing p f).movedFailed = s.movedFailed := rfl
@[simp] theorem State.updRing_resumed : (s.updRing p f).resumed = s.resumed := rfl
@[simp] theorem State.updRing_resumeFailed : (s.updRing p f).resumeFailed = s.resumeFailed := rfl
@[simp] theorem State.updRing_slots : (s.updRing p f).slots = s.slots := rfl
@[simp] theorem State.updRing_seated : (s.updRing p f).seated = s.seated := rfl
@[simp] theorem State.updRing_ptbSteps : (s.updRing p f).ptbSteps = s.ptbSteps := rfl
@[simp] theorem State.updRing_staged : (s.updRing p f).staged = s.staged := rfl
@[simp] theorem State.updRing_step : (s.updRing p f).step = s.step := rfl
@[simp] theorem State.updRing_pair : (s.updRing p f).pair = s.pair := rfl
@[simp] theorem State.updRing_lanes : (s.updRing p f).lanes = s.lanes := rfl
@[simp] theorem State.updRing_power : (s.updRing p f).power = s.power := rfl
@[simp] theorem State.updRing_mgmt : (s.updRing p f).mgmt = s.mgmt := rfl
@[simp] theorem State.updRing_kept : (s.updRing p f).kept = s.kept := rfl
@[simp] theorem State.updRing_kind : (s.updRing p f).kind = s.kind := rfl
@[simp] theorem State.updRing_sweepRound : (s.updRing p f).sweepRound = s.sweepRound := rfl
@[simp] theorem State.updRing_stewards : (s.updRing p f).stewards = s.stewards := rfl
@[simp] theorem State.updRing_pcie : (s.updRing p f).pcie = s.pcie := rfl
@[simp] theorem State.updRing_pins : (s.updRing p f).pins = s.pins := rfl
@[simp] theorem State.updRing_fab : (s.updRing p f).fab = s.fab := rfl
end

section
variable (s : State) (n : Nat) (f : Slot → Slot)
@[simp] theorem State.updSlotRaw_pending : (s.updSlotRaw n f).pending = s.pending := rfl
@[simp] theorem State.updSlotRaw_out : (s.updSlotRaw n f).out = s.out := rfl
@[simp] theorem State.updSlotRaw_freeCtr : (s.updSlotRaw n f).freeCtr = s.freeCtr := rfl
@[simp] theorem State.updSlotRaw_rackTime : (s.updSlotRaw n f).rackTime = s.rackTime := rfl
@[simp] theorem State.updSlotRaw_heldBack : (s.updSlotRaw n f).heldBack = s.heldBack := rfl
@[simp] theorem State.updSlotRaw_rtimeSeen : (s.updSlotRaw n f).rtimeSeen = s.rtimeSeen := rfl
@[simp] theorem State.updSlotRaw_regs : (s.updSlotRaw n f).regs = s.regs := rfl
@[simp] theorem State.updSlotRaw_latch : (s.updSlotRaw n f).latch = s.latch := rfl
@[simp] theorem State.updSlotRaw_heldLow : (s.updSlotRaw n f).heldLow = s.heldLow := rfl
@[simp] theorem State.updSlotRaw_cores : (s.updSlotRaw n f).cores = s.cores := rfl
@[simp] theorem State.updSlotRaw_barriers : (s.updSlotRaw n f).barriers = s.barriers := rfl
@[simp] theorem State.updSlotRaw_wings : (s.updSlotRaw n f).wings = s.wings := rfl
@[simp] theorem State.updSlotRaw_cellar : (s.updSlotRaw n f).cellar = s.cellar := rfl
@[simp] theorem State.updSlotRaw_cel : (s.updSlotRaw n f).cel = s.cel := rfl
@[simp] theorem State.updSlotRaw_table : (s.updSlotRaw n f).table = s.table := rfl
@[simp] theorem State.updSlotRaw_kv : (s.updSlotRaw n f).kv = s.kv := rfl
@[simp] theorem State.updSlotRaw_clients : (s.updSlotRaw n f).clients = s.clients := rfl
@[simp] theorem State.updSlotRaw_cliChanges : (s.updSlotRaw n f).cliChanges = s.cliChanges := rfl
@[simp] theorem State.updSlotRaw_porches : (s.updSlotRaw n f).porches = s.porches := rfl
@[simp] theorem State.updSlotRaw_accepted : (s.updSlotRaw n f).accepted = s.accepted := rfl
@[simp] theorem State.updSlotRaw_rings : (s.updSlotRaw n f).rings = s.rings := rfl
@[simp] theorem State.updSlotRaw_porchTurn : (s.updSlotRaw n f).porchTurn = s.porchTurn := rfl
@[simp] theorem State.updSlotRaw_resultTurn : (s.updSlotRaw n f).resultTurn = s.resultTurn := rfl
@[simp] theorem State.updSlotRaw_deferred : (s.updSlotRaw n f).deferred = s.deferred := rfl
@[simp] theorem State.updSlotRaw_promptReady : (s.updSlotRaw n f).promptReady = s.promptReady := rfl
@[simp] theorem State.updSlotRaw_moved : (s.updSlotRaw n f).moved = s.moved := rfl
@[simp] theorem State.updSlotRaw_movedFailed : (s.updSlotRaw n f).movedFailed = s.movedFailed := rfl
@[simp] theorem State.updSlotRaw_resumed : (s.updSlotRaw n f).resumed = s.resumed := rfl
@[simp] theorem State.updSlotRaw_resumeFailed : (s.updSlotRaw n f).resumeFailed = s.resumeFailed := rfl
@[simp] theorem State.updSlotRaw_slots : (s.updSlotRaw n f).slots = SMap.upd Slot.evicted s.slots n f := rfl
@[simp] theorem State.updSlotRaw_seated : (s.updSlotRaw n f).seated = s.seated := rfl
@[simp] theorem State.updSlotRaw_ptbSteps : (s.updSlotRaw n f).ptbSteps = s.ptbSteps := rfl
@[simp] theorem State.updSlotRaw_staged : (s.updSlotRaw n f).staged = s.staged := rfl
@[simp] theorem State.updSlotRaw_step : (s.updSlotRaw n f).step = s.step := rfl
@[simp] theorem State.updSlotRaw_pair : (s.updSlotRaw n f).pair = s.pair := rfl
@[simp] theorem State.updSlotRaw_lanes : (s.updSlotRaw n f).lanes = s.lanes := rfl
@[simp] theorem State.updSlotRaw_power : (s.updSlotRaw n f).power = s.power := rfl
@[simp] theorem State.updSlotRaw_mgmt : (s.updSlotRaw n f).mgmt = s.mgmt := rfl
@[simp] theorem State.updSlotRaw_kept : (s.updSlotRaw n f).kept = s.kept := rfl
@[simp] theorem State.updSlotRaw_kind : (s.updSlotRaw n f).kind = s.kind := rfl
@[simp] theorem State.updSlotRaw_sweepRound : (s.updSlotRaw n f).sweepRound = s.sweepRound := rfl
@[simp] theorem State.updSlotRaw_stewards : (s.updSlotRaw n f).stewards = s.stewards := rfl
@[simp] theorem State.updSlotRaw_pcie : (s.updSlotRaw n f).pcie = s.pcie := rfl
@[simp] theorem State.updSlotRaw_pins : (s.updSlotRaw n f).pins = s.pins := rfl
@[simp] theorem State.updSlotRaw_fab : (s.updSlotRaw n f).fab = s.fab := rfl
end

section
variable (s : State) (l : Nat) (f : LaneSt → LaneSt)
@[simp] theorem State.updLane_pending : (s.updLane l f).pending = s.pending := rfl
@[simp] theorem State.updLane_out : (s.updLane l f).out = s.out := rfl
@[simp] theorem State.updLane_freeCtr : (s.updLane l f).freeCtr = s.freeCtr := rfl
@[simp] theorem State.updLane_rackTime : (s.updLane l f).rackTime = s.rackTime := rfl
@[simp] theorem State.updLane_heldBack : (s.updLane l f).heldBack = s.heldBack := rfl
@[simp] theorem State.updLane_rtimeSeen : (s.updLane l f).rtimeSeen = s.rtimeSeen := rfl
@[simp] theorem State.updLane_regs : (s.updLane l f).regs = s.regs := rfl
@[simp] theorem State.updLane_latch : (s.updLane l f).latch = s.latch := rfl
@[simp] theorem State.updLane_heldLow : (s.updLane l f).heldLow = s.heldLow := rfl
@[simp] theorem State.updLane_cores : (s.updLane l f).cores = s.cores := rfl
@[simp] theorem State.updLane_barriers : (s.updLane l f).barriers = s.barriers := rfl
@[simp] theorem State.updLane_wings : (s.updLane l f).wings = s.wings := rfl
@[simp] theorem State.updLane_cellar : (s.updLane l f).cellar = s.cellar := rfl
@[simp] theorem State.updLane_cel : (s.updLane l f).cel = s.cel := rfl
@[simp] theorem State.updLane_table : (s.updLane l f).table = s.table := rfl
@[simp] theorem State.updLane_kv : (s.updLane l f).kv = s.kv := rfl
@[simp] theorem State.updLane_clients : (s.updLane l f).clients = s.clients := rfl
@[simp] theorem State.updLane_cliChanges : (s.updLane l f).cliChanges = s.cliChanges := rfl
@[simp] theorem State.updLane_porches : (s.updLane l f).porches = s.porches := rfl
@[simp] theorem State.updLane_accepted : (s.updLane l f).accepted = s.accepted := rfl
@[simp] theorem State.updLane_rings : (s.updLane l f).rings = s.rings := rfl
@[simp] theorem State.updLane_porchTurn : (s.updLane l f).porchTurn = s.porchTurn := rfl
@[simp] theorem State.updLane_resultTurn : (s.updLane l f).resultTurn = s.resultTurn := rfl
@[simp] theorem State.updLane_deferred : (s.updLane l f).deferred = s.deferred := rfl
@[simp] theorem State.updLane_promptReady : (s.updLane l f).promptReady = s.promptReady := rfl
@[simp] theorem State.updLane_moved : (s.updLane l f).moved = s.moved := rfl
@[simp] theorem State.updLane_movedFailed : (s.updLane l f).movedFailed = s.movedFailed := rfl
@[simp] theorem State.updLane_resumed : (s.updLane l f).resumed = s.resumed := rfl
@[simp] theorem State.updLane_resumeFailed : (s.updLane l f).resumeFailed = s.resumeFailed := rfl
@[simp] theorem State.updLane_slots : (s.updLane l f).slots = s.slots := rfl
@[simp] theorem State.updLane_seated : (s.updLane l f).seated = s.seated := rfl
@[simp] theorem State.updLane_ptbSteps : (s.updLane l f).ptbSteps = s.ptbSteps := rfl
@[simp] theorem State.updLane_staged : (s.updLane l f).staged = s.staged := rfl
@[simp] theorem State.updLane_step : (s.updLane l f).step = s.step := rfl
@[simp] theorem State.updLane_pair : (s.updLane l f).pair = s.pair := rfl
@[simp] theorem State.updLane_lanes : (s.updLane l f).lanes = SMap.upd LaneSt.reset s.lanes l f := rfl
@[simp] theorem State.updLane_power : (s.updLane l f).power = s.power := rfl
@[simp] theorem State.updLane_mgmt : (s.updLane l f).mgmt = s.mgmt := rfl
@[simp] theorem State.updLane_kept : (s.updLane l f).kept = s.kept := rfl
@[simp] theorem State.updLane_kind : (s.updLane l f).kind = s.kind := rfl
@[simp] theorem State.updLane_sweepRound : (s.updLane l f).sweepRound = s.sweepRound := rfl
@[simp] theorem State.updLane_stewards : (s.updLane l f).stewards = s.stewards := rfl
@[simp] theorem State.updLane_pcie : (s.updLane l f).pcie = s.pcie := rfl
@[simp] theorem State.updLane_pins : (s.updLane l f).pins = s.pins := rfl
@[simp] theorem State.updLane_fab : (s.updLane l f).fab = s.fab := rfl
end

section
variable (s : State) (b : Nat) (f : Barrier → Barrier)
@[simp] theorem State.updBarrier_pending : (s.updBarrier b f).pending = s.pending := rfl
@[simp] theorem State.updBarrier_out : (s.updBarrier b f).out = s.out := rfl
@[simp] theorem State.updBarrier_freeCtr : (s.updBarrier b f).freeCtr = s.freeCtr := rfl
@[simp] theorem State.updBarrier_rackTime : (s.updBarrier b f).rackTime = s.rackTime := rfl
@[simp] theorem State.updBarrier_heldBack : (s.updBarrier b f).heldBack = s.heldBack := rfl
@[simp] theorem State.updBarrier_rtimeSeen : (s.updBarrier b f).rtimeSeen = s.rtimeSeen := rfl
@[simp] theorem State.updBarrier_regs : (s.updBarrier b f).regs = s.regs := rfl
@[simp] theorem State.updBarrier_latch : (s.updBarrier b f).latch = s.latch := rfl
@[simp] theorem State.updBarrier_heldLow : (s.updBarrier b f).heldLow = s.heldLow := rfl
@[simp] theorem State.updBarrier_cores : (s.updBarrier b f).cores = s.cores := rfl
@[simp] theorem State.updBarrier_barriers : (s.updBarrier b f).barriers = SMap.upd Barrier.reset s.barriers b f := rfl
@[simp] theorem State.updBarrier_wings : (s.updBarrier b f).wings = s.wings := rfl
@[simp] theorem State.updBarrier_cellar : (s.updBarrier b f).cellar = s.cellar := rfl
@[simp] theorem State.updBarrier_cel : (s.updBarrier b f).cel = s.cel := rfl
@[simp] theorem State.updBarrier_table : (s.updBarrier b f).table = s.table := rfl
@[simp] theorem State.updBarrier_kv : (s.updBarrier b f).kv = s.kv := rfl
@[simp] theorem State.updBarrier_clients : (s.updBarrier b f).clients = s.clients := rfl
@[simp] theorem State.updBarrier_cliChanges : (s.updBarrier b f).cliChanges = s.cliChanges := rfl
@[simp] theorem State.updBarrier_porches : (s.updBarrier b f).porches = s.porches := rfl
@[simp] theorem State.updBarrier_accepted : (s.updBarrier b f).accepted = s.accepted := rfl
@[simp] theorem State.updBarrier_rings : (s.updBarrier b f).rings = s.rings := rfl
@[simp] theorem State.updBarrier_porchTurn : (s.updBarrier b f).porchTurn = s.porchTurn := rfl
@[simp] theorem State.updBarrier_resultTurn : (s.updBarrier b f).resultTurn = s.resultTurn := rfl
@[simp] theorem State.updBarrier_deferred : (s.updBarrier b f).deferred = s.deferred := rfl
@[simp] theorem State.updBarrier_promptReady : (s.updBarrier b f).promptReady = s.promptReady := rfl
@[simp] theorem State.updBarrier_moved : (s.updBarrier b f).moved = s.moved := rfl
@[simp] theorem State.updBarrier_movedFailed : (s.updBarrier b f).movedFailed = s.movedFailed := rfl
@[simp] theorem State.updBarrier_resumed : (s.updBarrier b f).resumed = s.resumed := rfl
@[simp] theorem State.updBarrier_resumeFailed : (s.updBarrier b f).resumeFailed = s.resumeFailed := rfl
@[simp] theorem State.updBarrier_slots : (s.updBarrier b f).slots = s.slots := rfl
@[simp] theorem State.updBarrier_seated : (s.updBarrier b f).seated = s.seated := rfl
@[simp] theorem State.updBarrier_ptbSteps : (s.updBarrier b f).ptbSteps = s.ptbSteps := rfl
@[simp] theorem State.updBarrier_staged : (s.updBarrier b f).staged = s.staged := rfl
@[simp] theorem State.updBarrier_step : (s.updBarrier b f).step = s.step := rfl
@[simp] theorem State.updBarrier_pair : (s.updBarrier b f).pair = s.pair := rfl
@[simp] theorem State.updBarrier_lanes : (s.updBarrier b f).lanes = s.lanes := rfl
@[simp] theorem State.updBarrier_power : (s.updBarrier b f).power = s.power := rfl
@[simp] theorem State.updBarrier_mgmt : (s.updBarrier b f).mgmt = s.mgmt := rfl
@[simp] theorem State.updBarrier_kept : (s.updBarrier b f).kept = s.kept := rfl
@[simp] theorem State.updBarrier_kind : (s.updBarrier b f).kind = s.kind := rfl
@[simp] theorem State.updBarrier_sweepRound : (s.updBarrier b f).sweepRound = s.sweepRound := rfl
@[simp] theorem State.updBarrier_stewards : (s.updBarrier b f).stewards = s.stewards := rfl
@[simp] theorem State.updBarrier_pcie : (s.updBarrier b f).pcie = s.pcie := rfl
@[simp] theorem State.updBarrier_pins : (s.updBarrier b f).pins = s.pins := rfl
@[simp] theorem State.updBarrier_fab : (s.updBarrier b f).fab = s.fab := rfl
end

section
variable (s : State) (k : Nat) (f : Client → Client)
@[simp] theorem State.updClient_pending : (s.updClient k f).pending = s.pending := rfl
@[simp] theorem State.updClient_out : (s.updClient k f).out = s.out := rfl
@[simp] theorem State.updClient_freeCtr : (s.updClient k f).freeCtr = s.freeCtr := rfl
@[simp] theorem State.updClient_rackTime : (s.updClient k f).rackTime = s.rackTime := rfl
@[simp] theorem State.updClient_heldBack : (s.updClient k f).heldBack = s.heldBack := rfl
@[simp] theorem State.updClient_rtimeSeen : (s.updClient k f).rtimeSeen = s.rtimeSeen := rfl
@[simp] theorem State.updClient_regs : (s.updClient k f).regs = s.regs := rfl
@[simp] theorem State.updClient_latch : (s.updClient k f).latch = s.latch := rfl
@[simp] theorem State.updClient_heldLow : (s.updClient k f).heldLow = s.heldLow := rfl
@[simp] theorem State.updClient_cores : (s.updClient k f).cores = s.cores := rfl
@[simp] theorem State.updClient_barriers : (s.updClient k f).barriers = s.barriers := rfl
@[simp] theorem State.updClient_wings : (s.updClient k f).wings = s.wings := rfl
@[simp] theorem State.updClient_cellar : (s.updClient k f).cellar = s.cellar := rfl
@[simp] theorem State.updClient_cel : (s.updClient k f).cel = s.cel := rfl
@[simp] theorem State.updClient_table : (s.updClient k f).table = s.table := rfl
@[simp] theorem State.updClient_kv : (s.updClient k f).kv = s.kv := rfl
@[simp] theorem State.updClient_clients : (s.updClient k f).clients = SMap.upd Client.reset s.clients k f := rfl
@[simp] theorem State.updClient_cliChanges : (s.updClient k f).cliChanges = s.cliChanges := rfl
@[simp] theorem State.updClient_porches : (s.updClient k f).porches = s.porches := rfl
@[simp] theorem State.updClient_accepted : (s.updClient k f).accepted = s.accepted := rfl
@[simp] theorem State.updClient_rings : (s.updClient k f).rings = s.rings := rfl
@[simp] theorem State.updClient_porchTurn : (s.updClient k f).porchTurn = s.porchTurn := rfl
@[simp] theorem State.updClient_resultTurn : (s.updClient k f).resultTurn = s.resultTurn := rfl
@[simp] theorem State.updClient_deferred : (s.updClient k f).deferred = s.deferred := rfl
@[simp] theorem State.updClient_promptReady : (s.updClient k f).promptReady = s.promptReady := rfl
@[simp] theorem State.updClient_moved : (s.updClient k f).moved = s.moved := rfl
@[simp] theorem State.updClient_movedFailed : (s.updClient k f).movedFailed = s.movedFailed := rfl
@[simp] theorem State.updClient_resumed : (s.updClient k f).resumed = s.resumed := rfl
@[simp] theorem State.updClient_resumeFailed : (s.updClient k f).resumeFailed = s.resumeFailed := rfl
@[simp] theorem State.updClient_slots : (s.updClient k f).slots = s.slots := rfl
@[simp] theorem State.updClient_seated : (s.updClient k f).seated = s.seated := rfl
@[simp] theorem State.updClient_ptbSteps : (s.updClient k f).ptbSteps = s.ptbSteps := rfl
@[simp] theorem State.updClient_staged : (s.updClient k f).staged = s.staged := rfl
@[simp] theorem State.updClient_step : (s.updClient k f).step = s.step := rfl
@[simp] theorem State.updClient_pair : (s.updClient k f).pair = s.pair := rfl
@[simp] theorem State.updClient_lanes : (s.updClient k f).lanes = s.lanes := rfl
@[simp] theorem State.updClient_power : (s.updClient k f).power = s.power := rfl
@[simp] theorem State.updClient_mgmt : (s.updClient k f).mgmt = s.mgmt := rfl
@[simp] theorem State.updClient_kept : (s.updClient k f).kept = s.kept := rfl
@[simp] theorem State.updClient_kind : (s.updClient k f).kind = s.kind := rfl
@[simp] theorem State.updClient_sweepRound : (s.updClient k f).sweepRound = s.sweepRound := rfl
@[simp] theorem State.updClient_stewards : (s.updClient k f).stewards = s.stewards := rfl
@[simp] theorem State.updClient_pcie : (s.updClient k f).pcie = s.pcie := rfl
@[simp] theorem State.updClient_pins : (s.updClient k f).pins = s.pins := rfl
@[simp] theorem State.updClient_fab : (s.updClient k f).fab = s.fab := rfl
end

section
variable (s : State) (f : StepSt → StepSt)
@[simp] theorem State.updStep_pending : (s.updStep f).pending = s.pending := rfl
@[simp] theorem State.updStep_out : (s.updStep f).out = s.out := rfl
@[simp] theorem State.updStep_freeCtr : (s.updStep f).freeCtr = s.freeCtr := rfl
@[simp] theorem State.updStep_rackTime : (s.updStep f).rackTime = s.rackTime := rfl
@[simp] theorem State.updStep_heldBack : (s.updStep f).heldBack = s.heldBack := rfl
@[simp] theorem State.updStep_rtimeSeen : (s.updStep f).rtimeSeen = s.rtimeSeen := rfl
@[simp] theorem State.updStep_regs : (s.updStep f).regs = s.regs := rfl
@[simp] theorem State.updStep_latch : (s.updStep f).latch = s.latch := rfl
@[simp] theorem State.updStep_heldLow : (s.updStep f).heldLow = s.heldLow := rfl
@[simp] theorem State.updStep_cores : (s.updStep f).cores = s.cores := rfl
@[simp] theorem State.updStep_barriers : (s.updStep f).barriers = s.barriers := rfl
@[simp] theorem State.updStep_wings : (s.updStep f).wings = s.wings := rfl
@[simp] theorem State.updStep_cellar : (s.updStep f).cellar = s.cellar := rfl
@[simp] theorem State.updStep_cel : (s.updStep f).cel = s.cel := rfl
@[simp] theorem State.updStep_table : (s.updStep f).table = s.table := rfl
@[simp] theorem State.updStep_kv : (s.updStep f).kv = s.kv := rfl
@[simp] theorem State.updStep_clients : (s.updStep f).clients = s.clients := rfl
@[simp] theorem State.updStep_cliChanges : (s.updStep f).cliChanges = s.cliChanges := rfl
@[simp] theorem State.updStep_porches : (s.updStep f).porches = s.porches := rfl
@[simp] theorem State.updStep_accepted : (s.updStep f).accepted = s.accepted := rfl
@[simp] theorem State.updStep_rings : (s.updStep f).rings = s.rings := rfl
@[simp] theorem State.updStep_porchTurn : (s.updStep f).porchTurn = s.porchTurn := rfl
@[simp] theorem State.updStep_resultTurn : (s.updStep f).resultTurn = s.resultTurn := rfl
@[simp] theorem State.updStep_deferred : (s.updStep f).deferred = s.deferred := rfl
@[simp] theorem State.updStep_promptReady : (s.updStep f).promptReady = s.promptReady := rfl
@[simp] theorem State.updStep_moved : (s.updStep f).moved = s.moved := rfl
@[simp] theorem State.updStep_movedFailed : (s.updStep f).movedFailed = s.movedFailed := rfl
@[simp] theorem State.updStep_resumed : (s.updStep f).resumed = s.resumed := rfl
@[simp] theorem State.updStep_resumeFailed : (s.updStep f).resumeFailed = s.resumeFailed := rfl
@[simp] theorem State.updStep_slots : (s.updStep f).slots = s.slots := rfl
@[simp] theorem State.updStep_seated : (s.updStep f).seated = s.seated := rfl
@[simp] theorem State.updStep_ptbSteps : (s.updStep f).ptbSteps = s.ptbSteps := rfl
@[simp] theorem State.updStep_staged : (s.updStep f).staged = s.staged := rfl
@[simp] theorem State.updStep_step : (s.updStep f).step = f s.step := rfl
@[simp] theorem State.updStep_pair : (s.updStep f).pair = s.pair := rfl
@[simp] theorem State.updStep_lanes : (s.updStep f).lanes = s.lanes := rfl
@[simp] theorem State.updStep_power : (s.updStep f).power = s.power := rfl
@[simp] theorem State.updStep_mgmt : (s.updStep f).mgmt = s.mgmt := rfl
@[simp] theorem State.updStep_kept : (s.updStep f).kept = s.kept := rfl
@[simp] theorem State.updStep_kind : (s.updStep f).kind = s.kind := rfl
@[simp] theorem State.updStep_sweepRound : (s.updStep f).sweepRound = s.sweepRound := rfl
@[simp] theorem State.updStep_stewards : (s.updStep f).stewards = s.stewards := rfl
@[simp] theorem State.updStep_pcie : (s.updStep f).pcie = s.pcie := rfl
@[simp] theorem State.updStep_pins : (s.updStep f).pins = s.pins := rfl
@[simp] theorem State.updStep_fab : (s.updStep f).fab = s.fab := rfl
end

section
variable (s : State) (f : PairSt → PairSt)
@[simp] theorem State.updPair_pending : (s.updPair f).pending = s.pending := rfl
@[simp] theorem State.updPair_out : (s.updPair f).out = s.out := rfl
@[simp] theorem State.updPair_freeCtr : (s.updPair f).freeCtr = s.freeCtr := rfl
@[simp] theorem State.updPair_rackTime : (s.updPair f).rackTime = s.rackTime := rfl
@[simp] theorem State.updPair_heldBack : (s.updPair f).heldBack = s.heldBack := rfl
@[simp] theorem State.updPair_rtimeSeen : (s.updPair f).rtimeSeen = s.rtimeSeen := rfl
@[simp] theorem State.updPair_regs : (s.updPair f).regs = s.regs := rfl
@[simp] theorem State.updPair_latch : (s.updPair f).latch = s.latch := rfl
@[simp] theorem State.updPair_heldLow : (s.updPair f).heldLow = s.heldLow := rfl
@[simp] theorem State.updPair_cores : (s.updPair f).cores = s.cores := rfl
@[simp] theorem State.updPair_barriers : (s.updPair f).barriers = s.barriers := rfl
@[simp] theorem State.updPair_wings : (s.updPair f).wings = s.wings := rfl
@[simp] theorem State.updPair_cellar : (s.updPair f).cellar = s.cellar := rfl
@[simp] theorem State.updPair_cel : (s.updPair f).cel = s.cel := rfl
@[simp] theorem State.updPair_table : (s.updPair f).table = s.table := rfl
@[simp] theorem State.updPair_kv : (s.updPair f).kv = s.kv := rfl
@[simp] theorem State.updPair_clients : (s.updPair f).clients = s.clients := rfl
@[simp] theorem State.updPair_cliChanges : (s.updPair f).cliChanges = s.cliChanges := rfl
@[simp] theorem State.updPair_porches : (s.updPair f).porches = s.porches := rfl
@[simp] theorem State.updPair_accepted : (s.updPair f).accepted = s.accepted := rfl
@[simp] theorem State.updPair_rings : (s.updPair f).rings = s.rings := rfl
@[simp] theorem State.updPair_porchTurn : (s.updPair f).porchTurn = s.porchTurn := rfl
@[simp] theorem State.updPair_resultTurn : (s.updPair f).resultTurn = s.resultTurn := rfl
@[simp] theorem State.updPair_deferred : (s.updPair f).deferred = s.deferred := rfl
@[simp] theorem State.updPair_promptReady : (s.updPair f).promptReady = s.promptReady := rfl
@[simp] theorem State.updPair_moved : (s.updPair f).moved = s.moved := rfl
@[simp] theorem State.updPair_movedFailed : (s.updPair f).movedFailed = s.movedFailed := rfl
@[simp] theorem State.updPair_resumed : (s.updPair f).resumed = s.resumed := rfl
@[simp] theorem State.updPair_resumeFailed : (s.updPair f).resumeFailed = s.resumeFailed := rfl
@[simp] theorem State.updPair_slots : (s.updPair f).slots = s.slots := rfl
@[simp] theorem State.updPair_seated : (s.updPair f).seated = s.seated := rfl
@[simp] theorem State.updPair_ptbSteps : (s.updPair f).ptbSteps = s.ptbSteps := rfl
@[simp] theorem State.updPair_staged : (s.updPair f).staged = s.staged := rfl
@[simp] theorem State.updPair_step : (s.updPair f).step = s.step := rfl
@[simp] theorem State.updPair_pair : (s.updPair f).pair = f s.pair := rfl
@[simp] theorem State.updPair_lanes : (s.updPair f).lanes = s.lanes := rfl
@[simp] theorem State.updPair_power : (s.updPair f).power = s.power := rfl
@[simp] theorem State.updPair_mgmt : (s.updPair f).mgmt = s.mgmt := rfl
@[simp] theorem State.updPair_kept : (s.updPair f).kept = s.kept := rfl
@[simp] theorem State.updPair_kind : (s.updPair f).kind = s.kind := rfl
@[simp] theorem State.updPair_sweepRound : (s.updPair f).sweepRound = s.sweepRound := rfl
@[simp] theorem State.updPair_stewards : (s.updPair f).stewards = s.stewards := rfl
@[simp] theorem State.updPair_pcie : (s.updPair f).pcie = s.pcie := rfl
@[simp] theorem State.updPair_pins : (s.updPair f).pins = s.pins := rfl
@[simp] theorem State.updPair_fab : (s.updPair f).fab = s.fab := rfl
end

section
variable (s : State) (f : PowerSt → PowerSt)
@[simp] theorem State.updPower_pending : (s.updPower f).pending = s.pending := rfl
@[simp] theorem State.updPower_out : (s.updPower f).out = s.out := rfl
@[simp] theorem State.updPower_freeCtr : (s.updPower f).freeCtr = s.freeCtr := rfl
@[simp] theorem State.updPower_rackTime : (s.updPower f).rackTime = s.rackTime := rfl
@[simp] theorem State.updPower_heldBack : (s.updPower f).heldBack = s.heldBack := rfl
@[simp] theorem State.updPower_rtimeSeen : (s.updPower f).rtimeSeen = s.rtimeSeen := rfl
@[simp] theorem State.updPower_regs : (s.updPower f).regs = s.regs := rfl
@[simp] theorem State.updPower_latch : (s.updPower f).latch = s.latch := rfl
@[simp] theorem State.updPower_heldLow : (s.updPower f).heldLow = s.heldLow := rfl
@[simp] theorem State.updPower_cores : (s.updPower f).cores = s.cores := rfl
@[simp] theorem State.updPower_barriers : (s.updPower f).barriers = s.barriers := rfl
@[simp] theorem State.updPower_wings : (s.updPower f).wings = s.wings := rfl
@[simp] theorem State.updPower_cellar : (s.updPower f).cellar = s.cellar := rfl
@[simp] theorem State.updPower_cel : (s.updPower f).cel = s.cel := rfl
@[simp] theorem State.updPower_table : (s.updPower f).table = s.table := rfl
@[simp] theorem State.updPower_kv : (s.updPower f).kv = s.kv := rfl
@[simp] theorem State.updPower_clients : (s.updPower f).clients = s.clients := rfl
@[simp] theorem State.updPower_cliChanges : (s.updPower f).cliChanges = s.cliChanges := rfl
@[simp] theorem State.updPower_porches : (s.updPower f).porches = s.porches := rfl
@[simp] theorem State.updPower_accepted : (s.updPower f).accepted = s.accepted := rfl
@[simp] theorem State.updPower_rings : (s.updPower f).rings = s.rings := rfl
@[simp] theorem State.updPower_porchTurn : (s.updPower f).porchTurn = s.porchTurn := rfl
@[simp] theorem State.updPower_resultTurn : (s.updPower f).resultTurn = s.resultTurn := rfl
@[simp] theorem State.updPower_deferred : (s.updPower f).deferred = s.deferred := rfl
@[simp] theorem State.updPower_promptReady : (s.updPower f).promptReady = s.promptReady := rfl
@[simp] theorem State.updPower_moved : (s.updPower f).moved = s.moved := rfl
@[simp] theorem State.updPower_movedFailed : (s.updPower f).movedFailed = s.movedFailed := rfl
@[simp] theorem State.updPower_resumed : (s.updPower f).resumed = s.resumed := rfl
@[simp] theorem State.updPower_resumeFailed : (s.updPower f).resumeFailed = s.resumeFailed := rfl
@[simp] theorem State.updPower_slots : (s.updPower f).slots = s.slots := rfl
@[simp] theorem State.updPower_seated : (s.updPower f).seated = s.seated := rfl
@[simp] theorem State.updPower_ptbSteps : (s.updPower f).ptbSteps = s.ptbSteps := rfl
@[simp] theorem State.updPower_staged : (s.updPower f).staged = s.staged := rfl
@[simp] theorem State.updPower_step : (s.updPower f).step = s.step := rfl
@[simp] theorem State.updPower_pair : (s.updPower f).pair = s.pair := rfl
@[simp] theorem State.updPower_lanes : (s.updPower f).lanes = s.lanes := rfl
@[simp] theorem State.updPower_power : (s.updPower f).power = f s.power := rfl
@[simp] theorem State.updPower_mgmt : (s.updPower f).mgmt = s.mgmt := rfl
@[simp] theorem State.updPower_kept : (s.updPower f).kept = s.kept := rfl
@[simp] theorem State.updPower_kind : (s.updPower f).kind = s.kind := rfl
@[simp] theorem State.updPower_sweepRound : (s.updPower f).sweepRound = s.sweepRound := rfl
@[simp] theorem State.updPower_stewards : (s.updPower f).stewards = s.stewards := rfl
@[simp] theorem State.updPower_pcie : (s.updPower f).pcie = s.pcie := rfl
@[simp] theorem State.updPower_pins : (s.updPower f).pins = s.pins := rfl
@[simp] theorem State.updPower_fab : (s.updPower f).fab = s.fab := rfl
end

section
variable (s : State) (f : MgmtSt → MgmtSt)
@[simp] theorem State.updMgmt_pending : (s.updMgmt f).pending = s.pending := rfl
@[simp] theorem State.updMgmt_out : (s.updMgmt f).out = s.out := rfl
@[simp] theorem State.updMgmt_freeCtr : (s.updMgmt f).freeCtr = s.freeCtr := rfl
@[simp] theorem State.updMgmt_rackTime : (s.updMgmt f).rackTime = s.rackTime := rfl
@[simp] theorem State.updMgmt_heldBack : (s.updMgmt f).heldBack = s.heldBack := rfl
@[simp] theorem State.updMgmt_rtimeSeen : (s.updMgmt f).rtimeSeen = s.rtimeSeen := rfl
@[simp] theorem State.updMgmt_regs : (s.updMgmt f).regs = s.regs := rfl
@[simp] theorem State.updMgmt_latch : (s.updMgmt f).latch = s.latch := rfl
@[simp] theorem State.updMgmt_heldLow : (s.updMgmt f).heldLow = s.heldLow := rfl
@[simp] theorem State.updMgmt_cores : (s.updMgmt f).cores = s.cores := rfl
@[simp] theorem State.updMgmt_barriers : (s.updMgmt f).barriers = s.barriers := rfl
@[simp] theorem State.updMgmt_wings : (s.updMgmt f).wings = s.wings := rfl
@[simp] theorem State.updMgmt_cellar : (s.updMgmt f).cellar = s.cellar := rfl
@[simp] theorem State.updMgmt_cel : (s.updMgmt f).cel = s.cel := rfl
@[simp] theorem State.updMgmt_table : (s.updMgmt f).table = s.table := rfl
@[simp] theorem State.updMgmt_kv : (s.updMgmt f).kv = s.kv := rfl
@[simp] theorem State.updMgmt_clients : (s.updMgmt f).clients = s.clients := rfl
@[simp] theorem State.updMgmt_cliChanges : (s.updMgmt f).cliChanges = s.cliChanges := rfl
@[simp] theorem State.updMgmt_porches : (s.updMgmt f).porches = s.porches := rfl
@[simp] theorem State.updMgmt_accepted : (s.updMgmt f).accepted = s.accepted := rfl
@[simp] theorem State.updMgmt_rings : (s.updMgmt f).rings = s.rings := rfl
@[simp] theorem State.updMgmt_porchTurn : (s.updMgmt f).porchTurn = s.porchTurn := rfl
@[simp] theorem State.updMgmt_resultTurn : (s.updMgmt f).resultTurn = s.resultTurn := rfl
@[simp] theorem State.updMgmt_deferred : (s.updMgmt f).deferred = s.deferred := rfl
@[simp] theorem State.updMgmt_promptReady : (s.updMgmt f).promptReady = s.promptReady := rfl
@[simp] theorem State.updMgmt_moved : (s.updMgmt f).moved = s.moved := rfl
@[simp] theorem State.updMgmt_movedFailed : (s.updMgmt f).movedFailed = s.movedFailed := rfl
@[simp] theorem State.updMgmt_resumed : (s.updMgmt f).resumed = s.resumed := rfl
@[simp] theorem State.updMgmt_resumeFailed : (s.updMgmt f).resumeFailed = s.resumeFailed := rfl
@[simp] theorem State.updMgmt_slots : (s.updMgmt f).slots = s.slots := rfl
@[simp] theorem State.updMgmt_seated : (s.updMgmt f).seated = s.seated := rfl
@[simp] theorem State.updMgmt_ptbSteps : (s.updMgmt f).ptbSteps = s.ptbSteps := rfl
@[simp] theorem State.updMgmt_staged : (s.updMgmt f).staged = s.staged := rfl
@[simp] theorem State.updMgmt_step : (s.updMgmt f).step = s.step := rfl
@[simp] theorem State.updMgmt_pair : (s.updMgmt f).pair = s.pair := rfl
@[simp] theorem State.updMgmt_lanes : (s.updMgmt f).lanes = s.lanes := rfl
@[simp] theorem State.updMgmt_power : (s.updMgmt f).power = s.power := rfl
@[simp] theorem State.updMgmt_mgmt : (s.updMgmt f).mgmt = f s.mgmt := rfl
@[simp] theorem State.updMgmt_kept : (s.updMgmt f).kept = s.kept := rfl
@[simp] theorem State.updMgmt_kind : (s.updMgmt f).kind = s.kind := rfl
@[simp] theorem State.updMgmt_sweepRound : (s.updMgmt f).sweepRound = s.sweepRound := rfl
@[simp] theorem State.updMgmt_stewards : (s.updMgmt f).stewards = s.stewards := rfl
@[simp] theorem State.updMgmt_pcie : (s.updMgmt f).pcie = s.pcie := rfl
@[simp] theorem State.updMgmt_pins : (s.updMgmt f).pins = s.pins := rfl
@[simp] theorem State.updMgmt_fab : (s.updMgmt f).fab = s.fab := rfl
end

section
variable (s : State) (f : Kept → Kept)
@[simp] theorem State.updKept_pending : (s.updKept f).pending = s.pending := rfl
@[simp] theorem State.updKept_out : (s.updKept f).out = s.out := rfl
@[simp] theorem State.updKept_freeCtr : (s.updKept f).freeCtr = s.freeCtr := rfl
@[simp] theorem State.updKept_rackTime : (s.updKept f).rackTime = s.rackTime := rfl
@[simp] theorem State.updKept_heldBack : (s.updKept f).heldBack = s.heldBack := rfl
@[simp] theorem State.updKept_rtimeSeen : (s.updKept f).rtimeSeen = s.rtimeSeen := rfl
@[simp] theorem State.updKept_regs : (s.updKept f).regs = s.regs := rfl
@[simp] theorem State.updKept_latch : (s.updKept f).latch = s.latch := rfl
@[simp] theorem State.updKept_heldLow : (s.updKept f).heldLow = s.heldLow := rfl
@[simp] theorem State.updKept_cores : (s.updKept f).cores = s.cores := rfl
@[simp] theorem State.updKept_barriers : (s.updKept f).barriers = s.barriers := rfl
@[simp] theorem State.updKept_wings : (s.updKept f).wings = s.wings := rfl
@[simp] theorem State.updKept_cellar : (s.updKept f).cellar = s.cellar := rfl
@[simp] theorem State.updKept_cel : (s.updKept f).cel = s.cel := rfl
@[simp] theorem State.updKept_table : (s.updKept f).table = s.table := rfl
@[simp] theorem State.updKept_kv : (s.updKept f).kv = s.kv := rfl
@[simp] theorem State.updKept_clients : (s.updKept f).clients = s.clients := rfl
@[simp] theorem State.updKept_cliChanges : (s.updKept f).cliChanges = s.cliChanges := rfl
@[simp] theorem State.updKept_porches : (s.updKept f).porches = s.porches := rfl
@[simp] theorem State.updKept_accepted : (s.updKept f).accepted = s.accepted := rfl
@[simp] theorem State.updKept_rings : (s.updKept f).rings = s.rings := rfl
@[simp] theorem State.updKept_porchTurn : (s.updKept f).porchTurn = s.porchTurn := rfl
@[simp] theorem State.updKept_resultTurn : (s.updKept f).resultTurn = s.resultTurn := rfl
@[simp] theorem State.updKept_deferred : (s.updKept f).deferred = s.deferred := rfl
@[simp] theorem State.updKept_promptReady : (s.updKept f).promptReady = s.promptReady := rfl
@[simp] theorem State.updKept_moved : (s.updKept f).moved = s.moved := rfl
@[simp] theorem State.updKept_movedFailed : (s.updKept f).movedFailed = s.movedFailed := rfl
@[simp] theorem State.updKept_resumed : (s.updKept f).resumed = s.resumed := rfl
@[simp] theorem State.updKept_resumeFailed : (s.updKept f).resumeFailed = s.resumeFailed := rfl
@[simp] theorem State.updKept_slots : (s.updKept f).slots = s.slots := rfl
@[simp] theorem State.updKept_seated : (s.updKept f).seated = s.seated := rfl
@[simp] theorem State.updKept_ptbSteps : (s.updKept f).ptbSteps = s.ptbSteps := rfl
@[simp] theorem State.updKept_staged : (s.updKept f).staged = s.staged := rfl
@[simp] theorem State.updKept_step : (s.updKept f).step = s.step := rfl
@[simp] theorem State.updKept_pair : (s.updKept f).pair = s.pair := rfl
@[simp] theorem State.updKept_lanes : (s.updKept f).lanes = s.lanes := rfl
@[simp] theorem State.updKept_power : (s.updKept f).power = s.power := rfl
@[simp] theorem State.updKept_mgmt : (s.updKept f).mgmt = s.mgmt := rfl
@[simp] theorem State.updKept_kept : (s.updKept f).kept = f s.kept := rfl
@[simp] theorem State.updKept_kind : (s.updKept f).kind = s.kind := rfl
@[simp] theorem State.updKept_sweepRound : (s.updKept f).sweepRound = s.sweepRound := rfl
@[simp] theorem State.updKept_stewards : (s.updKept f).stewards = s.stewards := rfl
@[simp] theorem State.updKept_pcie : (s.updKept f).pcie = s.pcie := rfl
@[simp] theorem State.updKept_pins : (s.updKept f).pins = s.pins := rfl
@[simp] theorem State.updKept_fab : (s.updKept f).fab = s.fab := rfl
end

section
variable (s : State) (f : Fld) (v i j : Nat)
@[simp] theorem State.wr_pending : (s.wr f v i j).pending = s.pending := rfl
@[simp] theorem State.wr_out : (s.wr f v i j).out = s.out := rfl
@[simp] theorem State.wr_freeCtr : (s.wr f v i j).freeCtr = s.freeCtr := rfl
@[simp] theorem State.wr_rackTime : (s.wr f v i j).rackTime = s.rackTime := rfl
@[simp] theorem State.wr_heldBack : (s.wr f v i j).heldBack = s.heldBack := rfl
@[simp] theorem State.wr_rtimeSeen : (s.wr f v i j).rtimeSeen = s.rtimeSeen := rfl
@[simp] theorem State.wr_latch : (s.wr f v i j).latch = s.latch := rfl
@[simp] theorem State.wr_heldLow : (s.wr f v i j).heldLow = s.heldLow := rfl
@[simp] theorem State.wr_cores : (s.wr f v i j).cores = s.cores := rfl
@[simp] theorem State.wr_barriers : (s.wr f v i j).barriers = s.barriers := rfl
@[simp] theorem State.wr_wings : (s.wr f v i j).wings = s.wings := rfl
@[simp] theorem State.wr_cellar : (s.wr f v i j).cellar = s.cellar := rfl
@[simp] theorem State.wr_cel : (s.wr f v i j).cel = s.cel := rfl
@[simp] theorem State.wr_table : (s.wr f v i j).table = s.table := rfl
@[simp] theorem State.wr_kv : (s.wr f v i j).kv = s.kv := rfl
@[simp] theorem State.wr_clients : (s.wr f v i j).clients = s.clients := rfl
@[simp] theorem State.wr_cliChanges : (s.wr f v i j).cliChanges = s.cliChanges := rfl
@[simp] theorem State.wr_porches : (s.wr f v i j).porches = s.porches := rfl
@[simp] theorem State.wr_accepted : (s.wr f v i j).accepted = s.accepted := rfl
@[simp] theorem State.wr_rings : (s.wr f v i j).rings = s.rings := rfl
@[simp] theorem State.wr_porchTurn : (s.wr f v i j).porchTurn = s.porchTurn := rfl
@[simp] theorem State.wr_resultTurn : (s.wr f v i j).resultTurn = s.resultTurn := rfl
@[simp] theorem State.wr_deferred : (s.wr f v i j).deferred = s.deferred := rfl
@[simp] theorem State.wr_promptReady : (s.wr f v i j).promptReady = s.promptReady := rfl
@[simp] theorem State.wr_moved : (s.wr f v i j).moved = s.moved := rfl
@[simp] theorem State.wr_movedFailed : (s.wr f v i j).movedFailed = s.movedFailed := rfl
@[simp] theorem State.wr_resumed : (s.wr f v i j).resumed = s.resumed := rfl
@[simp] theorem State.wr_resumeFailed : (s.wr f v i j).resumeFailed = s.resumeFailed := rfl
@[simp] theorem State.wr_slots : (s.wr f v i j).slots = s.slots := rfl
@[simp] theorem State.wr_seated : (s.wr f v i j).seated = s.seated := rfl
@[simp] theorem State.wr_ptbSteps : (s.wr f v i j).ptbSteps = s.ptbSteps := rfl
@[simp] theorem State.wr_staged : (s.wr f v i j).staged = s.staged := rfl
@[simp] theorem State.wr_step : (s.wr f v i j).step = s.step := rfl
@[simp] theorem State.wr_pair : (s.wr f v i j).pair = s.pair := rfl
@[simp] theorem State.wr_lanes : (s.wr f v i j).lanes = s.lanes := rfl
@[simp] theorem State.wr_power : (s.wr f v i j).power = s.power := rfl
@[simp] theorem State.wr_mgmt : (s.wr f v i j).mgmt = s.mgmt := rfl
@[simp] theorem State.wr_kept : (s.wr f v i j).kept = s.kept := rfl
@[simp] theorem State.wr_kind : (s.wr f v i j).kind = s.kind := rfl
@[simp] theorem State.wr_sweepRound : (s.wr f v i j).sweepRound = s.sweepRound := rfl
@[simp] theorem State.wr_stewards : (s.wr f v i j).stewards = s.stewards := rfl
@[simp] theorem State.wr_pcie : (s.wr f v i j).pcie = s.pcie := rfl
@[simp] theorem State.wr_pins : (s.wr f v i j).pins = s.pins := rfl
@[simp] theorem State.wr_fab : (s.wr f v i j).fab = s.fab := rfl
end

section
variable (s : State) (o : Out)
@[simp] theorem State.emit_pending : (s.emit o).pending = s.pending := rfl
@[simp] theorem State.emit_out : (s.emit o).out = s.out ++ [o] := rfl
@[simp] theorem State.emit_freeCtr : (s.emit o).freeCtr = s.freeCtr := rfl
@[simp] theorem State.emit_rackTime : (s.emit o).rackTime = s.rackTime := rfl
@[simp] theorem State.emit_heldBack : (s.emit o).heldBack = s.heldBack := rfl
@[simp] theorem State.emit_rtimeSeen : (s.emit o).rtimeSeen = s.rtimeSeen := rfl
@[simp] theorem State.emit_regs : (s.emit o).regs = s.regs := rfl
@[simp] theorem State.emit_latch : (s.emit o).latch = s.latch := rfl
@[simp] theorem State.emit_heldLow : (s.emit o).heldLow = s.heldLow := rfl
@[simp] theorem State.emit_cores : (s.emit o).cores = s.cores := rfl
@[simp] theorem State.emit_barriers : (s.emit o).barriers = s.barriers := rfl
@[simp] theorem State.emit_wings : (s.emit o).wings = s.wings := rfl
@[simp] theorem State.emit_cellar : (s.emit o).cellar = s.cellar := rfl
@[simp] theorem State.emit_cel : (s.emit o).cel = s.cel := rfl
@[simp] theorem State.emit_table : (s.emit o).table = s.table := rfl
@[simp] theorem State.emit_kv : (s.emit o).kv = s.kv := rfl
@[simp] theorem State.emit_clients : (s.emit o).clients = s.clients := rfl
@[simp] theorem State.emit_cliChanges : (s.emit o).cliChanges = s.cliChanges := rfl
@[simp] theorem State.emit_porches : (s.emit o).porches = s.porches := rfl
@[simp] theorem State.emit_accepted : (s.emit o).accepted = s.accepted := rfl
@[simp] theorem State.emit_rings : (s.emit o).rings = s.rings := rfl
@[simp] theorem State.emit_porchTurn : (s.emit o).porchTurn = s.porchTurn := rfl
@[simp] theorem State.emit_resultTurn : (s.emit o).resultTurn = s.resultTurn := rfl
@[simp] theorem State.emit_deferred : (s.emit o).deferred = s.deferred := rfl
@[simp] theorem State.emit_promptReady : (s.emit o).promptReady = s.promptReady := rfl
@[simp] theorem State.emit_moved : (s.emit o).moved = s.moved := rfl
@[simp] theorem State.emit_movedFailed : (s.emit o).movedFailed = s.movedFailed := rfl
@[simp] theorem State.emit_resumed : (s.emit o).resumed = s.resumed := rfl
@[simp] theorem State.emit_resumeFailed : (s.emit o).resumeFailed = s.resumeFailed := rfl
@[simp] theorem State.emit_slots : (s.emit o).slots = s.slots := rfl
@[simp] theorem State.emit_seated : (s.emit o).seated = s.seated := rfl
@[simp] theorem State.emit_ptbSteps : (s.emit o).ptbSteps = s.ptbSteps := rfl
@[simp] theorem State.emit_staged : (s.emit o).staged = s.staged := rfl
@[simp] theorem State.emit_step : (s.emit o).step = s.step := rfl
@[simp] theorem State.emit_pair : (s.emit o).pair = s.pair := rfl
@[simp] theorem State.emit_lanes : (s.emit o).lanes = s.lanes := rfl
@[simp] theorem State.emit_power : (s.emit o).power = s.power := rfl
@[simp] theorem State.emit_mgmt : (s.emit o).mgmt = s.mgmt := rfl
@[simp] theorem State.emit_kept : (s.emit o).kept = s.kept := rfl
@[simp] theorem State.emit_kind : (s.emit o).kind = s.kind := rfl
@[simp] theorem State.emit_sweepRound : (s.emit o).sweepRound = s.sweepRound := rfl
@[simp] theorem State.emit_stewards : (s.emit o).stewards = s.stewards := rfl
@[simp] theorem State.emit_pcie : (s.emit o).pcie = s.pcie := rfl
@[simp] theorem State.emit_pins : (s.emit o).pins = s.pins := rfl
@[simp] theorem State.emit_fab : (s.emit o).fab = s.fab := rfl
end

section
variable (s : State) (f : PkgId → Out)
@[simp] theorem State.toOthers_pending : (s.toOthers f).pending = s.pending := rfl
@[simp] theorem State.toOthers_out : (s.toOthers f).out = s.out ++ s.others.map f := rfl
@[simp] theorem State.toOthers_freeCtr : (s.toOthers f).freeCtr = s.freeCtr := rfl
@[simp] theorem State.toOthers_rackTime : (s.toOthers f).rackTime = s.rackTime := rfl
@[simp] theorem State.toOthers_heldBack : (s.toOthers f).heldBack = s.heldBack := rfl
@[simp] theorem State.toOthers_rtimeSeen : (s.toOthers f).rtimeSeen = s.rtimeSeen := rfl
@[simp] theorem State.toOthers_regs : (s.toOthers f).regs = s.regs := rfl
@[simp] theorem State.toOthers_latch : (s.toOthers f).latch = s.latch := rfl
@[simp] theorem State.toOthers_heldLow : (s.toOthers f).heldLow = s.heldLow := rfl
@[simp] theorem State.toOthers_cores : (s.toOthers f).cores = s.cores := rfl
@[simp] theorem State.toOthers_barriers : (s.toOthers f).barriers = s.barriers := rfl
@[simp] theorem State.toOthers_wings : (s.toOthers f).wings = s.wings := rfl
@[simp] theorem State.toOthers_cellar : (s.toOthers f).cellar = s.cellar := rfl
@[simp] theorem State.toOthers_cel : (s.toOthers f).cel = s.cel := rfl
@[simp] theorem State.toOthers_table : (s.toOthers f).table = s.table := rfl
@[simp] theorem State.toOthers_kv : (s.toOthers f).kv = s.kv := rfl
@[simp] theorem State.toOthers_clients : (s.toOthers f).clients = s.clients := rfl
@[simp] theorem State.toOthers_cliChanges : (s.toOthers f).cliChanges = s.cliChanges := rfl
@[simp] theorem State.toOthers_porches : (s.toOthers f).porches = s.porches := rfl
@[simp] theorem State.toOthers_accepted : (s.toOthers f).accepted = s.accepted := rfl
@[simp] theorem State.toOthers_rings : (s.toOthers f).rings = s.rings := rfl
@[simp] theorem State.toOthers_porchTurn : (s.toOthers f).porchTurn = s.porchTurn := rfl
@[simp] theorem State.toOthers_resultTurn : (s.toOthers f).resultTurn = s.resultTurn := rfl
@[simp] theorem State.toOthers_deferred : (s.toOthers f).deferred = s.deferred := rfl
@[simp] theorem State.toOthers_promptReady : (s.toOthers f).promptReady = s.promptReady := rfl
@[simp] theorem State.toOthers_moved : (s.toOthers f).moved = s.moved := rfl
@[simp] theorem State.toOthers_movedFailed : (s.toOthers f).movedFailed = s.movedFailed := rfl
@[simp] theorem State.toOthers_resumed : (s.toOthers f).resumed = s.resumed := rfl
@[simp] theorem State.toOthers_resumeFailed : (s.toOthers f).resumeFailed = s.resumeFailed := rfl
@[simp] theorem State.toOthers_slots : (s.toOthers f).slots = s.slots := rfl
@[simp] theorem State.toOthers_seated : (s.toOthers f).seated = s.seated := rfl
@[simp] theorem State.toOthers_ptbSteps : (s.toOthers f).ptbSteps = s.ptbSteps := rfl
@[simp] theorem State.toOthers_staged : (s.toOthers f).staged = s.staged := rfl
@[simp] theorem State.toOthers_step : (s.toOthers f).step = s.step := rfl
@[simp] theorem State.toOthers_pair : (s.toOthers f).pair = s.pair := rfl
@[simp] theorem State.toOthers_lanes : (s.toOthers f).lanes = s.lanes := rfl
@[simp] theorem State.toOthers_power : (s.toOthers f).power = s.power := rfl
@[simp] theorem State.toOthers_mgmt : (s.toOthers f).mgmt = s.mgmt := rfl
@[simp] theorem State.toOthers_kept : (s.toOthers f).kept = s.kept := rfl
@[simp] theorem State.toOthers_kind : (s.toOthers f).kind = s.kind := rfl
@[simp] theorem State.toOthers_sweepRound : (s.toOthers f).sweepRound = s.sweepRound := rfl
@[simp] theorem State.toOthers_stewards : (s.toOthers f).stewards = s.stewards := rfl
@[simp] theorem State.toOthers_pcie : (s.toOthers f).pcie = s.pcie := rfl
@[simp] theorem State.toOthers_pins : (s.toOthers f).pins = s.pins := rfl
@[simp] theorem State.toOthers_fab : (s.toOthers f).fab = s.fab := rfl
end

section
variable (s : State) (c x : Nat) (f : Ctx → Ctx)
@[simp] theorem State.updCtx_pending : (s.updCtx c x f).pending = s.pending := rfl
@[simp] theorem State.updCtx_out : (s.updCtx c x f).out = s.out := rfl
@[simp] theorem State.updCtx_freeCtr : (s.updCtx c x f).freeCtr = s.freeCtr := rfl
@[simp] theorem State.updCtx_rackTime : (s.updCtx c x f).rackTime = s.rackTime := rfl
@[simp] theorem State.updCtx_heldBack : (s.updCtx c x f).heldBack = s.heldBack := rfl
@[simp] theorem State.updCtx_rtimeSeen : (s.updCtx c x f).rtimeSeen = s.rtimeSeen := rfl
@[simp] theorem State.updCtx_regs : (s.updCtx c x f).regs = s.regs := rfl
@[simp] theorem State.updCtx_latch : (s.updCtx c x f).latch = s.latch := rfl
@[simp] theorem State.updCtx_heldLow : (s.updCtx c x f).heldLow = s.heldLow := rfl
@[simp] theorem State.updCtx_barriers : (s.updCtx c x f).barriers = s.barriers := rfl
@[simp] theorem State.updCtx_wings : (s.updCtx c x f).wings = s.wings := rfl
@[simp] theorem State.updCtx_cellar : (s.updCtx c x f).cellar = s.cellar := rfl
@[simp] theorem State.updCtx_cel : (s.updCtx c x f).cel = s.cel := rfl
@[simp] theorem State.updCtx_table : (s.updCtx c x f).table = s.table := rfl
@[simp] theorem State.updCtx_kv : (s.updCtx c x f).kv = s.kv := rfl
@[simp] theorem State.updCtx_clients : (s.updCtx c x f).clients = s.clients := rfl
@[simp] theorem State.updCtx_cliChanges : (s.updCtx c x f).cliChanges = s.cliChanges := rfl
@[simp] theorem State.updCtx_porches : (s.updCtx c x f).porches = s.porches := rfl
@[simp] theorem State.updCtx_accepted : (s.updCtx c x f).accepted = s.accepted := rfl
@[simp] theorem State.updCtx_rings : (s.updCtx c x f).rings = s.rings := rfl
@[simp] theorem State.updCtx_porchTurn : (s.updCtx c x f).porchTurn = s.porchTurn := rfl
@[simp] theorem State.updCtx_resultTurn : (s.updCtx c x f).resultTurn = s.resultTurn := rfl
@[simp] theorem State.updCtx_deferred : (s.updCtx c x f).deferred = s.deferred := rfl
@[simp] theorem State.updCtx_promptReady : (s.updCtx c x f).promptReady = s.promptReady := rfl
@[simp] theorem State.updCtx_moved : (s.updCtx c x f).moved = s.moved := rfl
@[simp] theorem State.updCtx_movedFailed : (s.updCtx c x f).movedFailed = s.movedFailed := rfl
@[simp] theorem State.updCtx_resumed : (s.updCtx c x f).resumed = s.resumed := rfl
@[simp] theorem State.updCtx_resumeFailed : (s.updCtx c x f).resumeFailed = s.resumeFailed := rfl
@[simp] theorem State.updCtx_slots : (s.updCtx c x f).slots = s.slots := rfl
@[simp] theorem State.updCtx_seated : (s.updCtx c x f).seated = s.seated := rfl
@[simp] theorem State.updCtx_ptbSteps : (s.updCtx c x f).ptbSteps = s.ptbSteps := rfl
@[simp] theorem State.updCtx_staged : (s.updCtx c x f).staged = s.staged := rfl
@[simp] theorem State.updCtx_step : (s.updCtx c x f).step = s.step := rfl
@[simp] theorem State.updCtx_pair : (s.updCtx c x f).pair = s.pair := rfl
@[simp] theorem State.updCtx_lanes : (s.updCtx c x f).lanes = s.lanes := rfl
@[simp] theorem State.updCtx_power : (s.updCtx c x f).power = s.power := rfl
@[simp] theorem State.updCtx_mgmt : (s.updCtx c x f).mgmt = s.mgmt := rfl
@[simp] theorem State.updCtx_kept : (s.updCtx c x f).kept = s.kept := rfl
@[simp] theorem State.updCtx_kind : (s.updCtx c x f).kind = s.kind := rfl
@[simp] theorem State.updCtx_sweepRound : (s.updCtx c x f).sweepRound = s.sweepRound := rfl
@[simp] theorem State.updCtx_stewards : (s.updCtx c x f).stewards = s.stewards := rfl
@[simp] theorem State.updCtx_pcie : (s.updCtx c x f).pcie = s.pcie := rfl
@[simp] theorem State.updCtx_pins : (s.updCtx c x f).pins = s.pins := rfl
@[simp] theorem State.updCtx_fab : (s.updCtx c x f).fab = s.fab := rfl
end

section
variable (s : State) (e : Nat) (f : SeqKv → SeqKv)
@[simp] theorem State.updSeqKv_pending : (s.updSeqKv e f).pending = s.pending := rfl
@[simp] theorem State.updSeqKv_out : (s.updSeqKv e f).out = s.out := rfl
@[simp] theorem State.updSeqKv_freeCtr : (s.updSeqKv e f).freeCtr = s.freeCtr := rfl
@[simp] theorem State.updSeqKv_rackTime : (s.updSeqKv e f).rackTime = s.rackTime := rfl
@[simp] theorem State.updSeqKv_heldBack : (s.updSeqKv e f).heldBack = s.heldBack := rfl
@[simp] theorem State.updSeqKv_rtimeSeen : (s.updSeqKv e f).rtimeSeen = s.rtimeSeen := rfl
@[simp] theorem State.updSeqKv_regs : (s.updSeqKv e f).regs = s.regs := rfl
@[simp] theorem State.updSeqKv_latch : (s.updSeqKv e f).latch = s.latch := rfl
@[simp] theorem State.updSeqKv_heldLow : (s.updSeqKv e f).heldLow = s.heldLow := rfl
@[simp] theorem State.updSeqKv_cores : (s.updSeqKv e f).cores = s.cores := rfl
@[simp] theorem State.updSeqKv_barriers : (s.updSeqKv e f).barriers = s.barriers := rfl
@[simp] theorem State.updSeqKv_wings : (s.updSeqKv e f).wings = s.wings := rfl
@[simp] theorem State.updSeqKv_cellar : (s.updSeqKv e f).cellar = s.cellar := rfl
@[simp] theorem State.updSeqKv_cel : (s.updSeqKv e f).cel = s.cel := rfl
@[simp] theorem State.updSeqKv_table : (s.updSeqKv e f).table = s.table := rfl
@[simp] theorem State.updSeqKv_clients : (s.updSeqKv e f).clients = s.clients := rfl
@[simp] theorem State.updSeqKv_cliChanges : (s.updSeqKv e f).cliChanges = s.cliChanges := rfl
@[simp] theorem State.updSeqKv_porches : (s.updSeqKv e f).porches = s.porches := rfl
@[simp] theorem State.updSeqKv_accepted : (s.updSeqKv e f).accepted = s.accepted := rfl
@[simp] theorem State.updSeqKv_rings : (s.updSeqKv e f).rings = s.rings := rfl
@[simp] theorem State.updSeqKv_porchTurn : (s.updSeqKv e f).porchTurn = s.porchTurn := rfl
@[simp] theorem State.updSeqKv_resultTurn : (s.updSeqKv e f).resultTurn = s.resultTurn := rfl
@[simp] theorem State.updSeqKv_deferred : (s.updSeqKv e f).deferred = s.deferred := rfl
@[simp] theorem State.updSeqKv_promptReady : (s.updSeqKv e f).promptReady = s.promptReady := rfl
@[simp] theorem State.updSeqKv_moved : (s.updSeqKv e f).moved = s.moved := rfl
@[simp] theorem State.updSeqKv_movedFailed : (s.updSeqKv e f).movedFailed = s.movedFailed := rfl
@[simp] theorem State.updSeqKv_resumed : (s.updSeqKv e f).resumed = s.resumed := rfl
@[simp] theorem State.updSeqKv_resumeFailed : (s.updSeqKv e f).resumeFailed = s.resumeFailed := rfl
@[simp] theorem State.updSeqKv_slots : (s.updSeqKv e f).slots = s.slots := rfl
@[simp] theorem State.updSeqKv_seated : (s.updSeqKv e f).seated = s.seated := rfl
@[simp] theorem State.updSeqKv_ptbSteps : (s.updSeqKv e f).ptbSteps = s.ptbSteps := rfl
@[simp] theorem State.updSeqKv_staged : (s.updSeqKv e f).staged = s.staged := rfl
@[simp] theorem State.updSeqKv_step : (s.updSeqKv e f).step = s.step := rfl
@[simp] theorem State.updSeqKv_pair : (s.updSeqKv e f).pair = s.pair := rfl
@[simp] theorem State.updSeqKv_lanes : (s.updSeqKv e f).lanes = s.lanes := rfl
@[simp] theorem State.updSeqKv_power : (s.updSeqKv e f).power = s.power := rfl
@[simp] theorem State.updSeqKv_mgmt : (s.updSeqKv e f).mgmt = s.mgmt := rfl
@[simp] theorem State.updSeqKv_kept : (s.updSeqKv e f).kept = s.kept := rfl
@[simp] theorem State.updSeqKv_kind : (s.updSeqKv e f).kind = s.kind := rfl
@[simp] theorem State.updSeqKv_sweepRound : (s.updSeqKv e f).sweepRound = s.sweepRound := rfl
@[simp] theorem State.updSeqKv_stewards : (s.updSeqKv e f).stewards = s.stewards := rfl
@[simp] theorem State.updSeqKv_pcie : (s.updSeqKv e f).pcie = s.pcie := rfl
@[simp] theorem State.updSeqKv_pins : (s.updSeqKv e f).pins = s.pins := rfl
@[simp] theorem State.updSeqKv_fab : (s.updSeqKv e f).fab = s.fab := rfl
end

section
variable (s : State) (f : Fld) (n i j : Nat)
@[simp] theorem State.bump_pending : (s.bump f n i j).pending = s.pending := rfl
@[simp] theorem State.bump_out : (s.bump f n i j).out = s.out := rfl
@[simp] theorem State.bump_freeCtr : (s.bump f n i j).freeCtr = s.freeCtr := rfl
@[simp] theorem State.bump_rackTime : (s.bump f n i j).rackTime = s.rackTime := rfl
@[simp] theorem State.bump_heldBack : (s.bump f n i j).heldBack = s.heldBack := rfl
@[simp] theorem State.bump_rtimeSeen : (s.bump f n i j).rtimeSeen = s.rtimeSeen := rfl
@[simp] theorem State.bump_latch : (s.bump f n i j).latch = s.latch := rfl
@[simp] theorem State.bump_heldLow : (s.bump f n i j).heldLow = s.heldLow := rfl
@[simp] theorem State.bump_cores : (s.bump f n i j).cores = s.cores := rfl
@[simp] theorem State.bump_barriers : (s.bump f n i j).barriers = s.barriers := rfl
@[simp] theorem State.bump_wings : (s.bump f n i j).wings = s.wings := rfl
@[simp] theorem State.bump_cellar : (s.bump f n i j).cellar = s.cellar := rfl
@[simp] theorem State.bump_cel : (s.bump f n i j).cel = s.cel := rfl
@[simp] theorem State.bump_table : (s.bump f n i j).table = s.table := rfl
@[simp] theorem State.bump_kv : (s.bump f n i j).kv = s.kv := rfl
@[simp] theorem State.bump_clients : (s.bump f n i j).clients = s.clients := rfl
@[simp] theorem State.bump_cliChanges : (s.bump f n i j).cliChanges = s.cliChanges := rfl
@[simp] theorem State.bump_porches : (s.bump f n i j).porches = s.porches := rfl
@[simp] theorem State.bump_accepted : (s.bump f n i j).accepted = s.accepted := rfl
@[simp] theorem State.bump_rings : (s.bump f n i j).rings = s.rings := rfl
@[simp] theorem State.bump_porchTurn : (s.bump f n i j).porchTurn = s.porchTurn := rfl
@[simp] theorem State.bump_resultTurn : (s.bump f n i j).resultTurn = s.resultTurn := rfl
@[simp] theorem State.bump_deferred : (s.bump f n i j).deferred = s.deferred := rfl
@[simp] theorem State.bump_promptReady : (s.bump f n i j).promptReady = s.promptReady := rfl
@[simp] theorem State.bump_moved : (s.bump f n i j).moved = s.moved := rfl
@[simp] theorem State.bump_movedFailed : (s.bump f n i j).movedFailed = s.movedFailed := rfl
@[simp] theorem State.bump_resumed : (s.bump f n i j).resumed = s.resumed := rfl
@[simp] theorem State.bump_resumeFailed : (s.bump f n i j).resumeFailed = s.resumeFailed := rfl
@[simp] theorem State.bump_slots : (s.bump f n i j).slots = s.slots := rfl
@[simp] theorem State.bump_seated : (s.bump f n i j).seated = s.seated := rfl
@[simp] theorem State.bump_ptbSteps : (s.bump f n i j).ptbSteps = s.ptbSteps := rfl
@[simp] theorem State.bump_staged : (s.bump f n i j).staged = s.staged := rfl
@[simp] theorem State.bump_step : (s.bump f n i j).step = s.step := rfl
@[simp] theorem State.bump_pair : (s.bump f n i j).pair = s.pair := rfl
@[simp] theorem State.bump_lanes : (s.bump f n i j).lanes = s.lanes := rfl
@[simp] theorem State.bump_power : (s.bump f n i j).power = s.power := rfl
@[simp] theorem State.bump_mgmt : (s.bump f n i j).mgmt = s.mgmt := rfl
@[simp] theorem State.bump_kept : (s.bump f n i j).kept = s.kept := rfl
@[simp] theorem State.bump_kind : (s.bump f n i j).kind = s.kind := rfl
@[simp] theorem State.bump_sweepRound : (s.bump f n i j).sweepRound = s.sweepRound := rfl
@[simp] theorem State.bump_stewards : (s.bump f n i j).stewards = s.stewards := rfl
@[simp] theorem State.bump_pcie : (s.bump f n i j).pcie = s.pcie := rfl
@[simp] theorem State.bump_pins : (s.bump f n i j).pins = s.pins := rfl
@[simp] theorem State.bump_fab : (s.bump f n i j).fab = s.fab := rfl
end

section
variable (s : State) (f : Fld) (v i j : Nat)
@[simp] theorem State.wr64_pending : (s.wr64 f v i j).pending = s.pending := rfl
@[simp] theorem State.wr64_out : (s.wr64 f v i j).out = s.out := rfl
@[simp] theorem State.wr64_freeCtr : (s.wr64 f v i j).freeCtr = s.freeCtr := rfl
@[simp] theorem State.wr64_rackTime : (s.wr64 f v i j).rackTime = s.rackTime := rfl
@[simp] theorem State.wr64_heldBack : (s.wr64 f v i j).heldBack = s.heldBack := rfl
@[simp] theorem State.wr64_rtimeSeen : (s.wr64 f v i j).rtimeSeen = s.rtimeSeen := rfl
@[simp] theorem State.wr64_latch : (s.wr64 f v i j).latch = s.latch := rfl
@[simp] theorem State.wr64_heldLow : (s.wr64 f v i j).heldLow = s.heldLow := rfl
@[simp] theorem State.wr64_cores : (s.wr64 f v i j).cores = s.cores := rfl
@[simp] theorem State.wr64_barriers : (s.wr64 f v i j).barriers = s.barriers := rfl
@[simp] theorem State.wr64_wings : (s.wr64 f v i j).wings = s.wings := rfl
@[simp] theorem State.wr64_cellar : (s.wr64 f v i j).cellar = s.cellar := rfl
@[simp] theorem State.wr64_cel : (s.wr64 f v i j).cel = s.cel := rfl
@[simp] theorem State.wr64_table : (s.wr64 f v i j).table = s.table := rfl
@[simp] theorem State.wr64_kv : (s.wr64 f v i j).kv = s.kv := rfl
@[simp] theorem State.wr64_clients : (s.wr64 f v i j).clients = s.clients := rfl
@[simp] theorem State.wr64_cliChanges : (s.wr64 f v i j).cliChanges = s.cliChanges := rfl
@[simp] theorem State.wr64_porches : (s.wr64 f v i j).porches = s.porches := rfl
@[simp] theorem State.wr64_accepted : (s.wr64 f v i j).accepted = s.accepted := rfl
@[simp] theorem State.wr64_rings : (s.wr64 f v i j).rings = s.rings := rfl
@[simp] theorem State.wr64_porchTurn : (s.wr64 f v i j).porchTurn = s.porchTurn := rfl
@[simp] theorem State.wr64_resultTurn : (s.wr64 f v i j).resultTurn = s.resultTurn := rfl
@[simp] theorem State.wr64_deferred : (s.wr64 f v i j).deferred = s.deferred := rfl
@[simp] theorem State.wr64_promptReady : (s.wr64 f v i j).promptReady = s.promptReady := rfl
@[simp] theorem State.wr64_moved : (s.wr64 f v i j).moved = s.moved := rfl
@[simp] theorem State.wr64_movedFailed : (s.wr64 f v i j).movedFailed = s.movedFailed := rfl
@[simp] theorem State.wr64_resumed : (s.wr64 f v i j).resumed = s.resumed := rfl
@[simp] theorem State.wr64_resumeFailed : (s.wr64 f v i j).resumeFailed = s.resumeFailed := rfl
@[simp] theorem State.wr64_slots : (s.wr64 f v i j).slots = s.slots := rfl
@[simp] theorem State.wr64_seated : (s.wr64 f v i j).seated = s.seated := rfl
@[simp] theorem State.wr64_ptbSteps : (s.wr64 f v i j).ptbSteps = s.ptbSteps := rfl
@[simp] theorem State.wr64_staged : (s.wr64 f v i j).staged = s.staged := rfl
@[simp] theorem State.wr64_step : (s.wr64 f v i j).step = s.step := rfl
@[simp] theorem State.wr64_pair : (s.wr64 f v i j).pair = s.pair := rfl
@[simp] theorem State.wr64_lanes : (s.wr64 f v i j).lanes = s.lanes := rfl
@[simp] theorem State.wr64_power : (s.wr64 f v i j).power = s.power := rfl
@[simp] theorem State.wr64_mgmt : (s.wr64 f v i j).mgmt = s.mgmt := rfl
@[simp] theorem State.wr64_kept : (s.wr64 f v i j).kept = s.kept := rfl
@[simp] theorem State.wr64_kind : (s.wr64 f v i j).kind = s.kind := rfl
@[simp] theorem State.wr64_sweepRound : (s.wr64 f v i j).sweepRound = s.sweepRound := rfl
@[simp] theorem State.wr64_stewards : (s.wr64 f v i j).stewards = s.stewards := rfl
@[simp] theorem State.wr64_pcie : (s.wr64 f v i j).pcie = s.pcie := rfl
@[simp] theorem State.wr64_pins : (s.wr64 f v i j).pins = s.pins := rfl
@[simp] theorem State.wr64_fab : (s.wr64 f v i j).fab = s.fab := rfl
end

end Sys2Proof.Machine
end

