-- ==== Sys2Proof/Laws/Ops.lean ====
section
/-!
SUPPORT. What the shared operations do, once each: reads of a core, a context, a register, a wing, a field after the update that writes it, and
what an instruction that finishes leaves.
-/
namespace Sys2Proof.Machine

/-! Reads after the keyed updates. -/

theorem State.core_updCore (s : State) (c d : Nat) (f : Core → Core) :
    (s.updCore c f).core d = if d = c then f (s.core c) else s.core d := SMap.get_upd ..

@[simp] theorem State.core_updCore_same (s : State) (c : Nat) (f : Core → Core) : (s.updCore c f).core c = f (s.core c) :=
  SMap.get_upd_same ..

theorem Core.ctx_updCtx (k : Core) (x y : Nat) (f : Ctx → Ctx) : (k.updCtx x f).ctx y = if y = x then f (k.ctx x) else k.ctx y :=
  SMap.get_upd ..

@[simp] theorem Core.ctx_updCtx_same (k : Core) (x : Nat) (f : Ctx → Ctx) : (k.updCtx x f).ctx x = f (k.ctx x) := SMap.get_upd_same ..

/-- A context change leaves the rest of its core. -/
theorem Core.updCtx_eq (k : Core) (x : Nat) (f : Ctx → Ctx) : k.updCtx x f = { k with ctxs := (k.updCtx x f).ctxs } := rfl

theorem State.core_updCtx (s : State) (c x d : Nat) (f : Ctx → Ctx) :
    (s.updCtx c x f).core d = if d = c then (s.core c).updCtx x f else s.core d := State.core_updCore ..

theorem State.wing_updWing (s : State) (w v : Nat) (f : WingSt → WingSt) :
    (s.updWing w f).wing v = if v = w then f (s.wing w) else s.wing v := SMap.get_upd ..

theorem State.seq_updSeq (s : State) (e d : Nat) (f : SeqEntry → SeqEntry) :
    (s.updSeq e f).seq d = if d = e then f (s.seq e) else s.seq d := SMap.get_upd ..

theorem State.porch_updPorch (s : State) (p q : Nat) (f : Porch → Porch) :
    (s.updPorch p f).porch q = if q = p then f (s.porch p) else s.porch q := SMap.get_upd ..

theorem State.ring_updRing (s : State) (p q : Nat) (f : Ring → Ring) :
    (s.updRing p f).ring q = if q = p then f (s.ring p) else s.ring q := SMap.get_upd ..

theorem State.lane_updLane (s : State) (l m : Nat) (f : LaneSt → LaneSt) :
    (s.updLane l f).lane m = if m = l then f (s.lane l) else s.lane m := SMap.get_upd ..

theorem State.slot_updSlotRaw (s : State) (n m : Nat) (f : Slot → Slot) :
    (s.updSlotRaw n f).slot m = if m = n then f (s.slot n) else s.slot m := SMap.get_upd ..

theorem State.barrier_updBarrier (s : State) (b d : Nat) (f : Barrier → Barrier) :
    (s.updBarrier b f).barrier d = if d = b then f (s.barrier b) else s.barrier d := SMap.get_upd ..

theorem Core.rq_updRq (k : Core) (q r : Nat) (f : RecvQ → RecvQ) :
    SMap.get RecvQ.reset (SMap.upd RecvQ.reset k.rqs q f) r = if r = q then f (SMap.get RecvQ.reset k.rqs q) else SMap.get RecvQ.reset k.rqs r :=
  SMap.get_upd ..

/-! Registers of a context (R67, R107). -/

/-- s0 reads zero. -/
@[simp] theorem Ctx.sreg_zero (x : Ctx) : x.sreg 0 = 0 := rfl

/-- A scalar register after a write: s0 discards it. -/
theorem Ctx.sreg_setSreg (x : Ctx) (r q : Nat) (v : BitVec 64) :
    (x.setSreg r v).sreg q = if q = r ∧ r ≠ 0 then v else x.sreg q := by
  unfold Ctx.setSreg Ctx.sreg
  by_cases hr : r = 0
  · simp [hr]
  · by_cases hq : q = r
    · simp [hq, hr]
    · simp [hr, hq, SMap.get_set]

theorem Ctx.vreg_setVreg (x : Ctx) (r q : Nat) (v : VReg) : (x.setVreg r v).vreg q = if q = r then v else x.vreg q := SMap.get_set ..

@[simp] theorem Ctx.setSreg_vregs (x : Ctx) (r : Nat) (v : BitVec 64) : (x.setSreg r v).vregs = x.vregs := by unfold Ctx.setSreg; split <;> rfl
@[simp] theorem Ctx.setSreg_st (x : Ctx) (r : Nat) (v : BitVec 64) : (x.setSreg r v).st = x.st := by unfold Ctx.setSreg; split <;> rfl
@[simp] theorem Ctx.setSreg_pc (x : Ctx) (r : Nat) (v : BitVec 64) : (x.setSreg r v).pc = x.pc := by unfold Ctx.setSreg; split <;> rfl
@[simp] theorem Ctx.setSreg_loops (x : Ctx) (r : Nat) (v : BitVec 64) : (x.setSreg r v).loops = x.loops := by unfold Ctx.setSreg; split <;> rfl
@[simp] theorem Ctx.setSreg_wait (x : Ctx) (r : Nat) (v : BitVec 64) : (x.setSreg r v).wait = x.wait := by unfold Ctx.setSreg; split <;> rfl
@[simp] theorem Ctx.setSreg_sink (x : Ctx) (r : Nat) (v : BitVec 64) : (x.setSreg r v).sink = x.sink := by unfold Ctx.setSreg; split <;> rfl
@[simp] theorem Ctx.setSreg_stopPending (x : Ctx) (r : Nat) (v : BitVec 64) : (x.setSreg r v).stopPending = x.stopPending := by
  unfold Ctx.setSreg; split <;> rfl
@[simp] theorem Ctx.setSreg_arrivals (x : Ctx) (r : Nat) (v : BitVec 64) : (x.setSreg r v).arrivals = x.arrivals := by
  unfold Ctx.setSreg; split <;> rfl
@[simp] theorem Ctx.setVreg_sregs (x : Ctx) (r : Nat) (v : VReg) : (x.setVreg r v).sregs = x.sregs := rfl
@[simp] theorem Ctx.setVreg_st (x : Ctx) (r : Nat) (v : VReg) : (x.setVreg r v).st = x.st := rfl
@[simp] theorem Ctx.setVreg_pc (x : Ctx) (r : Nat) (v : VReg) : (x.setVreg r v).pc = x.pc := rfl
@[simp] theorem Ctx.setVreg_loops (x : Ctx) (r : Nat) (v : VReg) : (x.setVreg r v).loops = x.loops := rfl

/-! The pc (R110, R111). -/

/-- Falling to the next instruction changes the pc and the loops alone, by what both were. -/
theorem Ctx.fall_eq (n : Nat) (x : Ctx) : x.fall n = { x with pc := (x.fall n).pc, loops := (x.fall n).loops } := by
  induction n generalizing x with
  | zero => rfl
  | succ n ih =>
    obtain ⟨st, pc, sregs, vregs, loops, wait, sink, stop, arr⟩ := x
    cases loops with
    | nil => rfl
    | cons l r =>
      simp only [Ctx.fall]
      split
      · split
        · rfl
        · exact ih _
      · rfl

/-- Where a context falls depends on its pc and its loops alone. -/
theorem Ctx.fall_congr (n : Nat) {x y : Ctx} (h : x.pc = y.pc) (k : x.loops = y.loops) :
    (x.fall n).pc = (y.fall n).pc ∧ (x.fall n).loops = (y.fall n).loops := by
  induction n generalizing x y with
  | zero => exact ⟨h, k⟩
  | succ n ih =>
    obtain ⟨st, pc, sregs, vregs, loops, wait, sink, stop, arr⟩ := x
    obtain ⟨st', pc', sregs', vregs', loops', wait', sink', stop', arr'⟩ := y
    simp only at h k
    subst h k
    cases loops with
    | nil => exact ⟨rfl, rfl⟩
    | cons l r =>
      simp only [Ctx.fall]
      split
      · split
        · exact ⟨rfl, rfl⟩
        · exact ih rfl rfl
      · exact ⟨rfl, rfl⟩

@[simp] theorem Ctx.advance_sregs (x : Ctx) : x.advance.sregs = x.sregs := by unfold Ctx.advance; rw [Ctx.fall_eq]
@[simp] theorem Ctx.advance_vregs (x : Ctx) : x.advance.vregs = x.vregs := by unfold Ctx.advance; rw [Ctx.fall_eq]
@[simp] theorem Ctx.advance_st (x : Ctx) : x.advance.st = x.st := by unfold Ctx.advance; rw [Ctx.fall_eq]
@[simp] theorem Ctx.advance_wait (x : Ctx) : x.advance.wait = x.wait := by unfold Ctx.advance; rw [Ctx.fall_eq]
@[simp] theorem Ctx.advance_sink (x : Ctx) : x.advance.sink = x.sink := by unfold Ctx.advance; rw [Ctx.fall_eq]
@[simp] theorem Ctx.advance_stopPending (x : Ctx) : x.advance.stopPending = x.stopPending := by unfold Ctx.advance; rw [Ctx.fall_eq]
@[simp] theorem Ctx.advance_arrivals (x : Ctx) : x.advance.arrivals = x.arrivals := by unfold Ctx.advance; rw [Ctx.fall_eq]
@[simp] theorem Ctx.advance_sreg (x : Ctx) (r : Nat) : x.advance.sreg r = x.sreg r := by unfold Ctx.sreg; rw [Ctx.advance_sregs]
@[simp] theorem Ctx.advance_vreg (x : Ctx) (r : Nat) : x.advance.vreg r = x.vreg r := by unfold Ctx.vreg; rw [Ctx.advance_vregs]
theorem Ctx.advance_congr {x y : Ctx} (h : x.pc = y.pc) (k : x.loops = y.loops) :
    x.advance.pc = y.advance.pc ∧ x.advance.loops = y.advance.loops := Ctx.fall_congr 3 h k

/-! Issue. -/

/-- The RUNNING context of a core executes a word of a defined class. -/
theorem State.issue_running {s : State} {c x : Nat} {w : Insn} (f : Nat → State → State) (h : s.issueHeld c = false)
    (hr : (s.core c).running = some x) (hw : badClass w = false) : s.issue c w f = f x s := by
  simp [State.issue, h, hr, hw]

/-- With issue cut, or no RUNNING context, nothing issues. -/
theorem State.issue_idle {s : State} {c : Nat} {w : Insn} (f : Nat → State → State)
    (h : s.issueHeld c = true ∨ (s.core c).running = none) : s.issue c w f = s := by
  unfold State.issue
  rcases h with h | h
  · simp [h]
  · split
    · rfl
    · simp [h]

/-- The core after an instruction that finishes: its context changed and advanced, one more issue handshake. -/
theorem State.core_finish (s : State) (c x d : Nat) (g : Ctx → Ctx) :
    (s.finish c x g).core d =
      if d = c then { ((s.core c).updCtx x g).updCtx x Ctx.advance with hsCnt := (s.core c).hsCnt + 1 } else s.core d := by
  unfold State.finish State.retire State.issued
  rw [State.core_updCtx]
  by_cases h : d = c
  · subst h; simp [State.core_updCtx, Core.updCtx]
  · simp [h, State.core_updCtx, State.core_updCore]

/-- An instruction that finishes changes its core alone. -/
theorem State.finish_eq (s : State) (c x : Nat) (g : Ctx → Ctx) : s.finish c x g = { s with cores := (s.finish c x g).cores } := rfl

end Sys2Proof.Machine
end

