-- ==== Sys2Proof/WellFormed.lean ====
section
/-!
DEFINITION. Which commands are well formed: what their operands must satisfy beyond their types for them to be commands the
block can be sent. The types bound nearly every operand; these are the rest.
-/
namespace Sys2Proof

/-- The bytes of a porch record (R276). -/
def recordBytes : Nat := 128

/-- A porch record has 128 bytes (R276). -/
def isRecord (b : Bytes) : Bool := decide (b.length = recordBytes)

/-- A payload has the LENGTH its header gives, at most 4,096; a LOAD and a BULK_READ carry none (R402, R403). -/
def Packet.wellFormed (p : Packet) : Bool :=
  decide (p.length.toNat ≤ 4096) && if p.type = 0 ∨ p.type = 6 then decide (p.payload.length = 0) else decide (p.payload.length = p.length.toNat)

/-- A chimney payload of TAKEOVER or STEP_ABORT has 32 bytes (R430, R533). -/
def isChimney (b : Bytes) : Bool := decide (b.length = 32)

/-- PG_IRQ_WRITE names PG_CTL, PG_IRQ_STS or PG_IRQ_EN of a page (R550). -/
def isIrqReg (off : BarOff) : Bool :=
  decide (off.toNat % 0x1000 = 0x00C) || decide (off.toNat % 0x1000 = 0x014) || decide (off.toNat % 0x1000 = 0x018)

/-- Well-formedness of a command. -/
def Instr.wellFormed : Instr → Bool
  | .nop _ r | .admitSeq _ r | .cancel _ r | .pause _ r | .resume _ r | .setPriority _ r | .budget _ r | .query _ r
  | .programLoad _ r | .load _ r | .drain _ r | .evict _ r | .slotQuery _ r | .recheck _ r | .badOpcode _ r => isRecord r
  | .loadPacket p _ | .storePacket p | .atomicPacket p _ | .messagePacket p | .takePacket p | .bulkWritePacket p
  | .bulkReadPacket p _ | .dataPacket p | .ackPacket p | .bulkDataPacket p | .errorPacket p => p.wellFormed
  | .codewordReceive _ cw => decide (cw.flits.length ≤ 10)
  | .takeover b | .stepAbort b => isChimney b
  | .pgIrqWrite _ off _ => isIrqReg off
  | _ => true

end Sys2Proof
end

