-- ==== Sys2Proof/Tests/Slice0.lean ====
section
/-!
SUPPORT. The model's own tests: ill-formed commands refused, the spec's worked examples, and for each statement with premises a state that meets
them.
-/
namespace Sys2Proof.Tests
open Sys2Proof Sys2Proof.Machine
set_option Elab.async false

/-! Small states. -/

/-- An instruction word of class 0 from its fields (R105). -/
def word (op rd ra rb rc imm : Nat) : Insn := BitVec.ofNat 64 (op * 2 ^ 52 + rd * 2 ^ 47 + ra * 2 ^ 42 + rb * 2 ^ 37 + rc * 2 ^ 32 + imm)

/-- A context that runs with the registers given. -/
def running (regs : SMap (BitVec 64)) (vregs : SMap VReg := []) : Ctx := { Ctx.reset with st := .running, sregs := regs, vregs := vregs }

/-- Core 5 with context 1 in state `t`, with issue tokens in its wing. -/
def onCore (t : Ctx) (k : Core := Core.reset) : State :=
  { State.reset with cores := [(5, { k with ctxs := [(1, t)] })], power := { PowerSt.reset with budget := [(0, 3)] } }

/-- The value at a byte offset of a core or memory image. -/
def cellsOf (a : Nat) (b : Bytes) : Memory := (b.mapIdx fun i x => (a + i, x)).filter fun e => e.2 ≠ 0

/-- A package at slot 0 of a pair of slots 0 and 2. -/
def pairedPair : PairSt :=
  { PairSt.reset with member := .paired, members := [0, 2], pairNums := [(0, 0), (2, 0)], lastHb := 5000000000, lastAlive := 5000000000, linkDown := false }


/-! The premises of the statements are met: one state, with operands, for each clause. First the core (R65 to R160). -/

def coreA : State := onCore (running [(2, 64), (3, 0x1122334455667788)] [(3, List.replicate 32 0x01020304)])

theorem wit_ScalarInstructions : coreA.executes 5 1 (word 0 7 2 3 0 0) ∧ coreA.executes 5 1 (word 31 0 31 31 0 0xFFFFFFFF) := by
  unfold State.executes; decide +kernel

def coreLoop (n : Nat) : State := onCore { running [(2, 0x3FFF8), (3, 0x40000)] with loops := List.replicate n { first := 1, last := 4, left := 2 } }

/-- A JMP to the last word, to one past it, and to no word; REP with room and with none. -/
theorem wit_ControlFlow : (coreLoop 1).executes 5 1 (word 0 0 2 0 0 4) ∧ (((coreLoop 1).ctxOf 5 1).sreg (fRA (word 0 0 2 0 0 4))).toNat = 0x3FFF8 ∧
    (((coreLoop 1).ctxOf 5 1).sreg (fRA (word 0 0 3 0 0 4))).toNat = 0x40000 ∧ ((coreLoop 1).ctxOf 5 1).loops.length < 2 ∧
    (coreLoop 2).executes 5 1 (word 0 0 2 0 0 4) ∧ 2 ≤ ((coreLoop 2).ctxOf 5 1).loops.length ∧ immBits (word 0 0 2 0 0 4) 15 0 ≠ 0 := by
  unfold State.executes; decide +kernel

/-- The last bytes of local store at every size. -/
theorem wit_LocalLoads : coreA.on PG_PTB_STS.ACTIVE (Block.core.page 5) = false ∧
    (∀ p ∈ Claims.loads, Claims.localGoes coreA 5 1 (word 0 7 0 3 0 (0x100000 - p.2)) p.2 Core.loadWaits) ∧
    Claims.localGoes coreA 5 1 (word 0 7 0 3 0 0xFFF80) 128 Core.loadWaits ∧ (∀ k < 16, Errs.at [] k ≠ .uncorrectable) := by
  unfold Claims.localGoes State.executes; decide +kernel

/-- The first offset outside local store, and one that is no multiple of the size. -/
theorem wit_LocalFaults : coreA.executes 5 1 (word 0 7 0 3 0 0x100000) ∧ 0x100000 ≤ localOff (coreA.ctxOf 5 1) (word 0 7 0 3 0 0x100000) ∧
    localOff (coreA.ctxOf 5 1) (word 0 7 0 3 0 0xFFFFF) < 0x100000 ∧
    ∀ n ∈ [2, 4, 8, 128], localOff (coreA.ctxOf 5 1) (word 0 7 0 3 0 0xFFFFF) % n ≠ 0 := by
  unfold State.executes; decide +kernel

theorem wit_LocalStores : (∀ p ∈ Claims.stores, Claims.localGoes coreA 5 1 (word 0 7 0 3 0 (0x100000 - p.2)) p.2 Core.storeWaits) ∧
    Claims.localGoes coreA 5 1 (word 0 7 0 3 0 0xFFF80) 128 Core.storeWaits := by
  unfold Claims.localGoes State.executes; decide +kernel

theorem wit_VectorLanes : ∀ p ∈ Claims.laneRows,
    coreA.executes 5 1 (word p.2.1 7 2 3 4 p.2.2.1) ∧ coreA.hasToken 5 = true ∧ Claims.vectorWord (word p.2.1 7 2 3 4 p.2.2.1) p.2.1 p.2.2.1 p.2.2.2.1 ∧
      (p.2.1 = 0x06 → immBits (word p.2.1 7 2 3 4 p.2.2.1) 4 2 ≤ 3) ∧ (p.2.1 = 0x08 → immBits (word p.2.1 7 2 3 4 p.2.2.1) 5 2 ≤ 5) := by
  unfold State.executes Claims.vectorWord; decide +kernel

theorem wit_VectorAcrossLanes : coreA.executes 5 1 (word 0x18 7 2 3 4 0) ∧ coreA.hasToken 5 = true ∧ Claims.vectorWord (word 0x18 7 2 3 4 2) 0x18 2 2 ∧
    Claims.vectorWord (word 0x19 7 2 3 4 2) 0x19 2 2 ∧ Claims.vectorWord (word 0x1A 7 2 3 4 0x7E) 0x1A 2 7 ∧
    Claims.vectorWord (word 0x1B 7 2 3 4 2) 0x1B 2 2 ∧ vTYPE (word 0x1B 7 2 3 4 2) = 2 ∧ Claims.vectorWord (word 0x20 30 2 3 4 0) 0x20 0 2 ∧
    fRD (word 0x20 30 2 3 4 0) % 2 = 0 := by
  unfold State.executes Claims.vectorWord; decide +kernel

/-! Hearth words with their operands at the ends of local store. -/

def hearthWords : List ((CoreId → Insn → Errs → Instr) × Insn) :=
  [(fun c w _ => .accClr c w, word 0 0 0 0 0 0), (.mma4, word 1 0 2 3 0 0x02040305), (.mmab, word 2 0 2 3 0 5), (fun c w _ => .wout c w, word 8 0 2 4 0 5),
   (fun c w _ => .accSave c w, word 9 0 2 0 0 0), (.accLoad, word 0xA 0 2 0 0 0), (.pack, word 0xC 0 5 3 0 0x02000005)]

/-- Core 5 with zero tiles and files, and `q` in the hearth's queue. -/
def coreH (q : List HearthEntry) : State :=
  onCore (running [(2, 0xFC000), (3, 0xF0000), (4, 64), (5, 0)]) { Core.reset with hearthQ := q, holder := if q = [] then none else some 1 }

def hearthHead : HearthEntry := { ctx := 1, w := word 0 0 0 0 0 0, pc := 0, ra := 0, rb := 0 }

theorem hearthWords_legal : ∀ p ∈ hearthWords, Claims.hearthLegal p.2 ((((coreH []).ctxOf 5 1).sreg (fRA p.2)).toNat)
    ((((coreH []).ctxOf 5 1).sreg (fRB p.2)).toNat) (p.1 5 p.2 []) := by
  simp only [hearthWords, List.forall_mem_cons, List.not_mem_nil, false_implies, implies_true, and_true, Claims.hearthLegal, Claims.tileAt, Claims.regionAt]
  decide +kernel

/-- Each word issues on an idle hearth and behind another. -/
theorem wit_HearthIssues : ∀ p ∈ hearthWords, Claims.hearthIssues (coreH []) 5 1 p.2 (p.1 5 p.2 []) ∧ Claims.hearthIssues (coreH [hearthHead]) 5 1 p.2 (p.1 5 p.2 []) := by
  intro p hp
  refine ⟨⟨?_, hearthWords_legal p hp, ?_, ?_, ?_⟩, ?_, hearthWords_legal p hp, ?_, ?_, ?_⟩ <;> revert p <;> (try unfold State.executes) <;> decide +kernel

theorem read_empty (a n : Nat) : Memory.read [] a n = List.replicate n 0#8 := by
  simp [Memory.read, Memory.byte, SMap.get, List.eq_replicate_iff]
theorem leNat_zeros (n : Nat) : leNat (List.replicate n 0#8) = 0 := by
  induction n with
  | zero => rfl
  | succ n ih => simp [List.replicate_succ, leNat, ih]
theorem imageFile_zeros (n : Nat) : (imageFile (List.replicate n 0#8)).isSome = true := by
  have h : ∀ o k, fieldAt (List.replicate n 0#8) o k = 0 := by
    intro o k; simp [fieldAt, List.drop_replicate, List.take_replicate, leNat_zeros]
  simp [imageFile, h, imageEntOk]
theorem zero_pack : packBad (List.replicate 64 0#8) = false ∧ packCount (List.replicate 64 0#8) = 0 := by decide +kernel
/-- Packs that are all zero hold no sidecar entry and are well formed. -/
theorem zero_packs (P : List Bytes) (hP : P = List.replicate 64 (List.replicate 64 0#8)) :
    findIdx packBad P 0 = none ∧ P.foldl (fun n p => n + packCount p) 0 = 0 ∧ ∀ i < 64, packCount (P.getD i []) = 0 := by
  obtain ⟨hb, h3⟩ := zero_pack
  generalize List.replicate 64 0#8 = z at *
  have h : ∀ n k, findIdx packBad (List.replicate n z) k = none := fun n => by
    induction n with
    | zero => exact fun k => rfl
    | succ n ih => intro k; rw [List.replicate_succ, findIdx, hb]; exact ih (k + 1)
  have h2 : ∀ n, (List.replicate n z).foldl (fun n p => n + packCount p) 0 = 0 := fun n => by
    induction n with
    | zero => rfl
    | succ n ih => rw [List.replicate_succ, List.foldl_cons, h3]; exact ih
  subst hP
  refine ⟨h 64 0, h2 64, fun i hi => ?_⟩
  rw [List.getD_eq_getElem?_getD, List.getElem?_replicate, if_pos hi]; exact h3
theorem zero_tile (b : Bytes) (hb : (List.range 64).map (fun i => (b.drop (64 * i)).take 64) = List.replicate 64 (List.replicate 64 0#8)) :
    (readTile 1 b).isLeft = true := by
  obtain ⟨h, h2, h3⟩ := zero_packs _ hb
  simp only [readTile]
  generalize (List.range 64).map (fun i => (b.drop (64 * i)).take 64) = P at *
  rw [h, h2]
  have h5 : ((List.range 64).all fun i => decide ((List.filter (fun e : SideEnt => decide (e.pack = i)) []).length = packCount (P.getD i []))) = true := by
    rw [List.all_eq_true]; intro i hi; exact decide_eq_true (h3 i (List.mem_range.mp hi)).symm
  simp only [Nat.zero_min, List.range_zero, List.map_nil, h5]
  rfl
theorem zero_bytes_packs : (List.range 64).map (fun i => ((List.replicate 4160 0#8).drop (64 * i)).take 64) = List.replicate 64 (List.replicate 64 0#8) := by
  rw [List.eq_replicate_iff]
  refine ⟨by rw [List.length_map, List.length_range], fun x hx => ?_⟩
  obtain ⟨i, hi, rfl⟩ := List.mem_map.mp hx
  rw [List.drop_replicate, List.take_replicate, Nat.min_eq_left]
  have := List.mem_range.mp hi
  omega

/-- Zero tiles and a zero image are read from an empty local store, and the CLEAR file takes MMA4, MMAB and ACC_LOAD. -/
theorem wit_HearthFileInstructions (a : Nat) : ((coreH []).core 5).file.mode = .clear ∧
    (readTile 1 (((coreH []).core 5).rdLs a 4160)).isLeft = true ∧ (imageFile (((coreH []).core 5).rdLs a 16384)).isSome = true := by
  have h : ∀ n, ((coreH []).core 5).rdLs a n = List.replicate n 0#8 := fun n => read_empty a n
  rw [h, h]
  exact ⟨rfl, zero_tile _ zero_bytes_packs, imageFile_zeros _⟩

/-- Operands that read clean. -/
theorem wit_HearthReads : Claims.hearthReads (coreH []) 5 [] := ⟨by decide +kernel, fun _ => nofun⟩


/-! A small model in slot 4: an image for core 5, a plan of two groups, one attention chain and one expert layer (R139, R180, R203, R211, R304 to R310). -/

def pad (n : Nat) (b : Bytes) : Bytes := b ++ List.replicate (n - b.length) 0

def mImage : Bytes :=
  pad 64 (leBytes 4 0x47505331 ++ leBytes 2 1 ++ leBytes 2 1 ++ leBytes 8 77 ++ List.replicate 20 0 ++ List.replicate 28 0xFF) ++
    [5, 0, 5, 0] ++ leBytes 4 0 ++ leBytes 4 48 ++ leBytes 4 80 ++ (List.range 48).map fun i => BitVec.ofNat 8 (i + 1)

def mGroup (kind layer stage group count : Nat) : Bytes :=
  pad 32 ([BitVec.ofNat 8 kind, BitVec.ofNat 8 layer] ++ leBytes 2 stage ++ leBytes 4 group ++ leBytes 4 count ++ leBytes 8 0xFFFFFFFFFFFFFFFF)

def mPlan : Bytes := pad 16 (leBytes 4 2) ++ mGroup 1 0 0 1 2 ++ mGroup 4 3 1 2 2

def mAttn : Bytes := [0, 0, 1, 0, 5, 0, 5, 0] ++ leBytes 2 4 ++ [2, 0] ++ leBytes 4 0x8000

def mExp : Bytes :=
  pad 64 (leBytes 4 1 ++ leBytes 4 0x100000 ++ leBytes 4 0x100000) ++
    pad 32 ([3, 2] ++ leBytes 2 4 ++ [1, 0] ++ leBytes 2 8 ++ leBytes 4 0 ++ leBytes 4 0 ++ leBytes 2 1 ++ leBytes 8 0xFFFFFFFFFFFFFFFF) ++
    (List.range 4).flatMap fun e => leBytes 2 e ++ [1, 0] ++ (if e < 2 then [0, 0, 0, 0] else [1, 0, 0, 0]) ++ leBytes 8 0

def mObjs : List Bytes := [mImage, mPlan, mAttn, mExp]

def mManifest : Bytes :=
  pad 128 (leBytes 4 0x4D465354 ++ leBytes 2 1 ++ [0, 0] ++ leBytes 8 1234 ++ leBytes 4 9 ++ [2, 0, 0, 0] ++ leBytes 4 4 ++ leBytes 4 4 ++ leBytes 4 0) ++
    ((List.range 4).flatMap fun i => [BitVec.ofNat 8 (i + 2), 0xFF, 0, 0] ++ leBytes 4 i ++ leBytes 4 1 ++ leBytes 4 0 ++ leBytes 8 (0x10000 * i) ++ leBytes 8 0x10000) ++
    ((List.range 4).flatMap fun i => List.replicate 64 (BitVec.ofNat 8 i) ++ leBytes 8 (4096 * i) ++ leBytes 4 (mObjs.getD i []).length ++ leBytes 4 0) ++ pad 512 [7]

def mCellar : Memory := (List.range 4).flatMap fun i => cellsOf (0x4000000 + 0x10000 * i) (mObjs.getD i [])

def mSlot : Slot := { Slot.evicted with st := .ready, modelId := 1234, version := 9, manifest := mManifest, base := 1, extents := 1 }

def pairedStep : StepSt := { StepSt.reset with modelSlot := 4, id := 6, lastBoundary := 4000000000 }

/-- A paired package between steps. -/
def paired : State :=
  { State.reset with rackTime := 5000000000, pair := pairedPair, slots := [(4, mSlot)], cellar := mCellar, step := pairedStep,
                     power := { PowerSt.reset with budget := [(0, 3)] } }

def item0 : Item := { index := 7, slotMark := false, sample := true, prefill := false, part := 2, firstPos := 70, tokens := 1, input := 3 }

def seq7 : SeqEntry :=
  { SeqEntry.blank with st := .decode, part := 2, home := 0, slot := 4, promptLen := 4, position := 70, maxNew := 100, promptReady := true, gen := 3 }

def descOf (kind : Nat) (st : DescSt) : Desc :=
  { kind := kind, layer := 0, half := false, stage := 0, group := 1, index := 0, trip := 0, pending := false, wing := 0, owner := none, expert := 1,
    body := [], st := st }

/-- The same in a started step with one item. -/
def act (f : StepSt → StepSt) : State :=
  { paired with table := [(7, seq7)], step := f { pairedStep with active := true, started := true, built := true, items := [item0], tokens := 1, walked := true } }

def contrib0 : Contribution :=
  { home := 2, step := 6, doneTime := 4900000000, tokens := [], faults := [], commands := [], arith := {}, expert := {}, cfgGo := false, cfgDigest := 0,
    room := List.replicate 16 5, clients := [], reports := [], promptReady := [], moved := [], movedFailed := [], resumed := [], resumeFailed := [] }


/-! The stream unit, messages and remote access (R83 to R89, R112 to R126, R333 to R353). -/

theorem zero_block_header (v : BitVec 32) : blockHdr (blockBytes 2 0 0 0 3 9 v []) =
    { codec := 2, slot := 0, gen := 0, fill := 0, length := 0, substream := 3, ordinal := 9, crc := v.toNat, res := 0 } ∧
    (blockBytes 2 0 0 0 3 9 v []).length = 64 := by
  have := v.isLt
  simp [blockHdr, blockBytes, leBytes, storedSize, ceilDiv, fieldAt, leNat, List.take, List.drop]
  omega

/-- A ZERO block decodes to 4,096 zeros (R336). -/
theorem wit_StreamUnit_block : decodeBlock (blockBytes 2 0 0 0 3 9 (crc32c (zeroBlock 0)) []) 3 9 none = .good (zeroBlock 0) 64 := by
  obtain ⟨h, hl⟩ := zero_block_header (crc32c (zeroBlock 0))
  generalize blockBytes 2 0 0 0 3 9 (crc32c (zeroBlock 0)) [] = b at *
  simp [decodeBlock, h, hl, storedSize, BlockHdr.ok, ceilDiv]

def streamCtx : Ctx := running [(2, srfAddr 2 1 6400), (3, 0xFF000), (4, BitVec.ofNat 64 (9 * 2 ^ 32 + 3 * 2 ^ 16 + 1)), (5, 0x8000), (6, 0x10000)]

def streamCmd : StreamCmd :=
  { ctx := 1, dec := true, ra := 0, rb := 0, rc := 0, started := true, table := some 2, compl := 0x800, bytes := 4096, w := word 0 0 2 3 4 0x100, pc := 0 }

def coreS (t : Ctx) (k : Core) (sl : TableSlot) : State := { onCore t k with wings := [(0, { WingSt.reset with tables := [(2, sl)] })] }

/-- Core 5 with one command of context 2 beside it. -/
def coreBehind (dec : Bool) : State := onCore streamCtx { Core.reset with streams := [{ streamCmd with ctx := 2, dec := dec }] }

/-- No perturbation page is active in a state that holds no word of a PG_PTB_STS. -/
theorem quiet_of_words (s : State) (h : ∀ e ∈ s.regs, e.1 % 0x1000 ≠ 0x05C) (g : Nat) : s.on PG_PTB_STS.ACTIVE g = false := by
  have miss : ∀ (d : Word) (m : SMap Word), (∀ e ∈ m, e.1 % 0x1000 ≠ 0x05C) → SMap.get d m (PG_PTB_STS.ACTIVE.addr g 0) = d := by
    intro d m
    induction m with
    | nil => intro; rfl
    | cons e m ih =>
      obtain ⟨k, v⟩ := e
      intro hm
      have hk := hm (k, v) (List.mem_cons_self ..)
      have : PG_PTB_STS.ACTIVE.addr g 0 ≠ k := by
        intro hk'; apply hk; simp only [← hk', Fld.addr, PG_PTB_STS.ACTIVE]; omega
      rw [SMap.get, if_neg this]
      exact ih fun e he => hm e (List.mem_cons_of_mem _ he)
  show decide (bitsN (SMap.get 0 s.regs (PG_PTB_STS.ACTIVE.addr g 0)).toNat 31 31 = 1) = false
  rw [miss _ _ h]; rfl

theorem quiet_of_regs (s : State) (h : s.regs = []) (g : Nat) : s.on PG_PTB_STS.ACTIVE g = false := quiet_of_words s (by simp [h]) g

theorem wit_StreamUnit_clean : Claims.readsAllClean (onCore streamCtx) [] := ⟨quiet_of_regs _ rfl, rfl, fun _ => rfl⟩

/-- DEC of a block of another package, behind another decode and alone; its word and its operands wrong. -/
theorem wit_StreamUnit_dec : (onCore streamCtx).executes 5 1 (word 0 0 2 3 4 0x100) ∧ fOP (word 0 0 2 3 4 0x100) = 0 ∧ immBits (word 0 0 2 3 4 0x100) 26 17 = 0 ∧
    (onCore streamCtx).decFault (word 0 0 2 3 4 0x100) streamCtx = none ∧ ((onCore streamCtx).decFault (word 0 0 2 3 5 0x100) streamCtx).isSome = true ∧
    immBits (word 0 0 2 3 4 0x20000) 26 17 ≠ 0 ∧ bits64 (streamCtx.sreg 4) 15 0 = 1 ∧ srfPkg (streamCtx.sreg 2) ≠ (onCore streamCtx).me ∧
    ((coreBehind true).core 5).streams.find? (fun p => p.dec) = some { streamCmd with ctx := 2 } ∧
    (∀ p ∈ ((coreBehind false).core 5).streams, p.dec = false) := by
  unfold State.executes; decide +kernel

theorem wit_StreamUnit_free : Claims.streamFree (onCore streamCtx) 5 1 none ∧ Claims.streamFree (coreBehind true) 5 1 (some 3) := by
  unfold Claims.streamFree; exact ⟨⟨nofun, nofun, by decide +kernel⟩, by decide +kernel, fun n h => by cases h; decide +kernel, by decide +kernel⟩

/-- The block of `wit_StreamUnit_block` at the start of what the other package answers. -/
theorem wit_StreamUnit_source :
    Claims.goodBlocks ((onCore streamCtx).blockSource (streamCtx.sreg 2) (blockBytes 2 0 0 0 3 9 (crc32c (zeroBlock 0)) [])) 3 none 0 9 [zeroBlock 0] := by
  refine ⟨64, ?_, trivial⟩
  have h : (onCore streamCtx).blockSource (streamCtx.sreg 2) (blockBytes 2 0 0 0 3 9 (crc32c (zeroBlock 0)) []) 0 =
      blockBytes 2 0 0 0 3 9 (crc32c (zeroBlock 0)) [] := by
    have e : srfPkg (streamCtx.sreg 2) ≠ (onCore streamCtx).me := by decide +kernel
    have l : (onCore streamCtx).pair.lost = [] := rfl
    simp only [State.blockSource, e, l]
    exact List.take_of_length_le (by rw [List.drop_zero, (zero_block_header _).2]; decide)
  rw [h]; exact wit_StreamUnit_block

/-- ENC in BLOCK and in PACK mode with its operands right and wrong, behind another encode and alone. -/
theorem wit_StreamUnit_enc : encFault (word 1 0 5 6 4 0x100) streamCtx = none ∧ encFault (word 1 0 3 6 4 0x80000100) streamCtx ≠ none ∧
    encFault (word 1 0 5 6 7 0x80000100) { streamCtx with sregs := (7, 0x100) :: streamCtx.sregs } = none ∧ immBits (word 1 0 5 6 4 0x20000) 25 17 ≠ 0 ∧
    ((coreBehind false).core 5).streams.find? (fun p => decide (p.dec = false)) = some { streamCmd with ctx := 2, dec := false } ∧
    (∀ p ∈ ((coreBehind true).core 5).streams, p.dec = true) ∧ fOP (word 2 0 0 0 0 0) = 2 ∧ fIMM (word 2 0 0 0 0 0) = 0 ∧ fOP (word 3 0 0 0 0 0) ≠ 2 := by
  decide +kernel

/-- A command that its engine serves and one that waits; a table pending before a free slot and before a used one. -/
theorem wit_StreamUnit_ends :
    ((coreS streamCtx { Core.reset with streams := [streamCmd] } TableSlot.reset).core 5).streams.find? (fun r => decide (r.ctx = 1)) = some streamCmd ∧
    streamCmd.fault = none ∧ streamCmd.rehash = none ∧ ((coreBehind false).core 5).streams.find? (fun r => decide (r.ctx = 1)) = none ∧
    ({ streamCmd with started := false } : StreamCmd).started = false ∧
    ((coreS streamCtx Core.reset { TableSlot.reset with pend := some (3, [1, 2]) }).tableSlot 0 2).pend = some (3, [1, 2]) ∧
    ((coreS streamCtx Core.reset { TableSlot.reset with pend := some (3, [1, 2]) }).tableSlot 0 2).inflight = 0 ∧
    ((coreS streamCtx Core.reset { TableSlot.reset with inflight := 1 }).tableSlot 0 2).inflight ≠ 0 := by decide +kernel

theorem wit_BlockRoundTrip : (zeroBlock 2).length = 4096 := by rw [zeroBlock, List.length_map, List.length_range]

def msgA : RecvMsg := { tag := 5, srcCore := 9, src := 0, length := 20, line := 3, lines := 1, received := true }
def msgB : RecvMsg := { msgA with tag := 7, received := false }
def queueOf (ms : List RecvMsg) : RecvQ := { configured := true, base := 0xFF000, size := 4096, tail := 2, msgs := ms }
def coreQ (ms : List RecvMsg) (h : List HeldMsg := []) : State :=
  onCore (running [(2, 0xFF000), (3, 4096), (4, 0x40)]) { Core.reset with rqs := [(1, queueOf ms)], held := h }
def msgPkt (len : Nat) : Packet :=
  { address := BitVec.ofNat 64 (5 * 2 ^ 20 + 4 * 77), vc := 2, type := 3, src := 0, node := 9, sink := 2, length := BitVec.ofNat 13 len, wing := 0, epoch := 0,
    arg := 1, payload := List.replicate len 7 }
def msgHeld : HeldMsg := { queue := 1, pkt := msgPkt 20, since := 0 }

/-- RQCFG of the last 4 KiB of local store; RECV after a message received and RELEASE of it; RECV with nothing to receive; a message held for 1 ms. -/
theorem wit_ReceiveQueues : (coreQ []).executes 5 1 (word 0x10 6 2 3 0 1) ∧ ((coreQ []).core 5 |>.rq 1).msgs = [] ∧
    (((coreQ []).ctxOf 5 1).sreg 2).toNat + (((coreQ []).ctxOf 5 1).sreg 3).toNat = 0x100000 ∧
    (coreQ [msgA, msgB]).executes 5 1 (word 0x10 6 2 3 0 1) ∧ ((coreQ [msgA, msgB]).core 5 |>.rq 1).msgs = [msgA] ++ msgB :: [] ∧
    (∀ m ∈ ((coreQ [msgA]).core 5 |>.rq 1).msgs, m.received = true) ∧
    ((coreQ [msgA] [msgHeld]).core 5).held.find? (fun h => decide (h.queue = 1)) = some msgHeld ∧
    msgHeld.since + 1000000 ≤ ({ coreQ [msgA] [msgHeld] with rackTime := 1000000 } : State).rackTime := by
  unfold State.executes; decide +kernel

/-- A message that finds room, one that finds none, and one held: with room, without, and of an aborted attempt. -/
theorem wit_MessagesArrive : (msgPkt 20).type.toNat = 3 ∧ ((coreQ [{ msgA with lines := 64 }]).core 5 |>.rq 1).configured = true ∧
    ((coreQ [{ msgA with lines := 64 }] [msgHeld]).core 5 |>.rq 1).place 20 = none ∧ (msgPkt 20).epoch.toNat ≠ ({ coreQ [] [msgHeld] with pair := { pairedPair with epoch := 1 } } : State).pair.epoch ∧
    (∀ g ∈ ([] : List HeldMsg), g.pkt.vc ≠ msgHeld.pkt.vc) ∧ (msgPkt 20).epoch.toNat = (coreQ [msgA]).pair.epoch ∧ srfCore (msgPkt 20).address = 5 ∧ ((coreQ [msgA]).core 5).hasRoom (msgPkt 20) = true ∧
    (((coreQ [msgA]).core 5 |>.rq 1).place 20).isSome = true ∧
    ((coreQ [{ msgA with lines := 64 }]).core 5).hasRoom (msgPkt 20) = false ∧ msgQueue (msgPkt 20) = 1 ∧
    ((coreQ [msgA] [msgHeld]).core 5).held = msgHeld :: [] := by decide +kernel

def sendCtx : Ctx :=
  running [(2, srfAddr 0 0 (7 * 2 ^ 20 + 2)), (3, 0x100), (4, 20), (6, 4097), (7, srfAddr 0 0 (7 * 2 ^ 20 + 8)), (8, srfAddr 0 1 4096), (9, 0x1000), (10, 128)]
def sendOf (id : Nat) : SendDesc := { id := id, ctx := 1, queue := 1, dest := srfAddr 0 0 (7 * 2 ^ 20 + 2), off := 0x100, len := 20, tag := 0x33 }
def coreSend (n : Nat) : State := onCore sendCtx { Core.reset with sends := (List.range n).map sendOf, nextId := n }

/-- SEND with a descriptor free, with the queue full, and with a message one byte too long; the oldest send leaves. -/
theorem wit_SendsQueueAndLeave : (coreSend 15).executes 5 1 (word 0x10 0 2 3 4 0x10033) ∧ sendDest (sendCtx.sreg 2) = true ∧ 20 ≤ sqMax 1 ∧
    ((coreSend 15).core 5).sqUsed 1 < 16 ∧ ((coreSend 15).core 5).sendWaits 1 = false ∧
    (coreSend 16).executes 5 1 (word 0x10 0 2 3 4 0x10033) ∧ 16 ≤ ((coreSend 16).core 5).sqUsed 1 ∧ sqMax 1 < (sendCtx.sreg 6).toNat ∧
    ((coreSend 2).core 5).sends.find? (fun e => decide (e.id = 0)) = some (sendOf 0) ∧ (∀ e ∈ ((coreSend 2).core 5).sends, e.queue = 1 → 0 ≤ e.id) ∧
    (coreSend 2).on PG_PTB_STS.ACTIVE (Block.core.page 5) = false ∧ (sendOf 0).errs = [] ∧ srfPkg (sendOf 0).dest = (coreSend 2).me ∧ sendDest (sendOf 0).dest = true ∧ sendDest (sendCtx.sreg 8) = false := by
  unfold State.executes; decide +kernel

def dmaOne : Dma :=
  { id := 4, ctx := 1, queue := 2, pull := true, remote := srfAddr 0 1 4096, ls := 0x1000, len := 64, compl := 0x80, asked := 64, reqs := [(64, 0, 64, 0)],
    done := 64, failed := false, w := 0, pc := 0 }

def dmaLeft (d : Dma) : State := onCore sendCtx { Core.reset with dmas := [d] }

/-- A DMA with all bytes moved, one with a transfer outstanding, one that has failed, and one asked for in part behind a gateway. -/
theorem wit_DmaTransfers_end : ((dmaLeft { dmaOne with reqs := [] }).core 5).dmas.find? (fun e => decide (e.id = 4)) = some { dmaOne with reqs := [] } ∧
    dmaOne.len ≤ dmaOne.done ∧ dmaOne.reqs ≠ [] ∧ Claims.allAsked ((dmaLeft dmaOne).core 5).dmas 4 ∧ (dmaLeft { dmaOne with failed := true }).step.active = false ∧
    ((dmaLeft dmaOne).ctxOf 5 1).stopping = false ∧ (∀ e ∈ ((dmaLeft dmaOne).core ((5 * 256 + 64) / 256)).dmas, e.len ≤ e.asked) ∧
    ((dmaLeft dmaOne).core ((5 * 256 + 64) / 256)).dmaOf ((5 * 256 + 64) % 256) = some (dmaOne, 0, 64, 0) ∧
    (({ coreSend 0 with wings := [(0, { WingSt.reset with xrack := [5] })] } : State).wing 0).xwait = [] := by
  unfold Claims.allAsked; decide +kernel

/-- Pull and push; a full queue and a bad command; a transfer of another node and one that fails. -/
theorem wit_DmaTransfers : (coreSend 0).executes 5 1 (word 0x10 0 8 9 10 0xC0000010) ∧ (coreSend 0).dmaFault (sendCtx.sreg 8) 0x1000 128 = none ∧
    (coreSend 0).on PG_PTB_STS.ACTIVE (Block.core.page 5) = false ∧ ((coreSend 0).core 5).dmas = [] ∧ ((coreSend 0).core 5).sqUsed 3 < 16 ∧ ((coreSend 0).core 5).sendWaits 1 = false ∧
    ((coreSend 0).dmaFault (sendCtx.sreg 8) 0x1001 128).isSome = true ∧
    16 ≤ ((onCore sendCtx { Core.reset with dmas := List.replicate 16 { dmaOne with queue := 3 } }).core 5).sqUsed 3 ∧
    5 ∈ (({ coreSend 0 with wings := [(0, { WingSt.reset with xrack := [5, 4096 * 256 + 3] })] } : State).wing 0).xrack ∧
    4096 * 256 + 3 ∈ (({ coreSend 0 with wings := [(0, { WingSt.reset with xrack := [5, 4096 * 256 + 3] })] } : State).wing 0).xrack := by
  unfold State.executes; decide +kernel

/-- Every asking instruction and every store at the last line of core 7's local store, and TAKE. -/
theorem wit_RemoteInstructions :
    let s := onCore (running [(7, srfAddr 0 0 (7 * 2 ^ 20 + 0xFFF80))])
    s.executes 5 1 (word 0x10 6 7 3 4 0x15) ∧
    (∀ p ∈ Claims.asks, (p.2.2.1 = 2 → immBits (word 0x10 6 7 3 4 0x15) 3 0 < 6) ∧
      s.remoteCheck (((s.ctxOf 5 1).sreg 7)) (p.2.1 (word 0x10 6 7 3 4 0x15)) = none ∧
      (s.core 5).storeTo 1 ((s.ctxOf 5 1).sreg 7) (p.2.1 (word 0x10 6 7 3 4 0x15)) = false) ∧
    (∀ p ∈ Claims.remoteStores, s.remoteCheck (((s.ctxOf 5 1).sreg 7)) p.2.1 = none) ∧ (s.core 5).freeStore = some 8 ∧
    s.remoteCheck (((s.ctxOf 5 1).sreg 7)) 128 = none ∧ (s.core 5).fenced 1 = true ∧ 6 ≤ immBits (word 0x10 6 7 3 4 6) 3 0 := by
  unfold State.executes; decide +kernel

/-- An address that the checks refuse, no acknowledgement slot left, and a store outstanding before a TAKE. -/
theorem wit_RemoteInstructions_stopped :
    let o (n : Nat) : StoreOut := { sink := n, ctx := 1, word := 0, bytes := 4, w := 0, pc := 0 }
    let s := onCore (running [(7, srfAddr 0 0 (7 * 2 ^ 20 + 3))]) { Core.reset with stores := (List.range 16).map fun i => o (8 + i) }
    s.executes 5 1 (word 0x10 6 7 3 4 0x15) ∧ (∀ p ∈ Claims.asks, (s.remoteCheck ((s.ctxOf 5 1).sreg 7) (p.2.1 (word 0x10 6 7 3 4 0x15))).isSome = true) ∧
    (∀ p ∈ Claims.remoteStores, (s.remoteCheck ((s.ctxOf 5 1).sreg 7) p.2.1).isSome = true ∧ s.remoteCheck (srfAddr 0 0 (7 * 2 ^ 20)) p.2.1 = none) ∧
    (s.core 5).freeStore = none ∧ (s.core 5).fenced 1 = false := by
  unfold State.executes; decide +kernel

def pktOf (ty : Nat) (a : BitVec 64) (len arg sink node : Nat) : Packet :=
  { address := a, vc := 2, type := BitVec.ofNat 4 ty, src := 0, node := BitVec.ofNat 13 node, sink := BitVec.ofNat 8 sink, length := BitVec.ofNat 13 len,
    wing := 0, epoch := 0, arg := BitVec.ofNat 7 arg, payload := List.replicate len 7 }

/-- Requests to a core's local store and to the cellar. -/
theorem wit_HomesAnswer : Claims.served State.reset (pktOf 0 (srfAddr 0 0 (5 * 2 ^ 20 + 0xFFFF8)) 8 0x10 1 7) ∧
    srfSpace (srfAddr 0 0 (5 * 2 ^ 20 + 0xFFFF8)) = 0 ∧ srfByte (srfAddr 0 0 (5 * 2 ^ 20 + 0xFFFF8)) + 8 ≤ 0x100000 ∧
    (pktOf 2 (srfAddr 0 1 4096) 16 0 1 7).type.toNat = 2 ∧ srfSpace (srfAddr 0 1 4096) = 1 ∧
    Claims.served State.reset (pktOf 0 (srfAddr 0 1 4096) 8 0 1 7) ∧ Claims.plainWrite State.reset (pktOf 1 (srfAddr 0 1 4096) 8 0 1 7) 8 := by
  unfold Claims.served Claims.plainWrite; decide +kernel

theorem wit_HomesAnswer_clean : Claims.readsClean State.reset (srfAddr 0 0 (5 * 2 ^ 20 + 0xFFFF8)) 8 [] ∧ Claims.readsClean State.reset (srfAddr 0 1 4096) 8 [] :=
  ⟨⟨quiet_of_regs _ rfl, by decide +kernel, fun _ => rfl⟩, quiet_of_regs _ rfl, fun _ => by decide +kernel, fun _ => rfl⟩

/-- A core's store into the footprint of the small model. -/
theorem wit_HomesAnswer_footprint : paired.inFootprint (srfOff (pktOf 1 (srfAddr 0 1 0x4000000) 8 0 1 7).address) 8 = true ∧
    Claims.served paired (pktOf 1 (srfAddr 0 1 0x4000000) 8 0 1 7) ∧ (pktOf 1 (srfAddr 0 1 0x4000000) 8 0 1 7).node.toNat < 4096 := by
  unfold Claims.served; decide +kernel

def coreWait (stop : Bool) : State :=
  onCore { running [] with st := .waitRemote, wait := .remote, stopPending := stop, sink := some { w := word 0 6 7 0 0 0, addr := 8, size := 8 } }
    { Core.reset with dmas := [{ dmaOne with done := 0 }], stores := [{ sink := 9, ctx := 1, word := 0, bytes := 4, w := 0, pc := 0 }] }

/-- DATA, ACK, BULK_DATA and ERROR each with what it answers. -/
theorem wit_Responses : ((coreWait false).ctxOf 5 1).st = .waitRemote ∧ ((coreWait false).ctxOf 5 1).sink.isSome = true ∧
    ((coreWait false).ctxOf 5 1).stopPending = false ∧ ((coreWait true).ctxOf 5 1).stopPending = true ∧
    (∃ o ∈ ((coreWait false).core 5).stores, o.sink = 9) ∧ (((coreWait false).core 5).dmaOf 64).isSome = true ∧
    (coreWait false).step.active = false ∧ (coreWait false).step.faults = [] ∧ (coreWait false).on CORE_FAULT.VALID 5 = false ∧
    (∀ e ∈ ((coreWait false).core 5).dmas, e.pull = true) := by decide +kernel

/-- A response in time, and one after its 2 ms. -/
theorem wit_Responses_late : Claims.inTime (coreWait false) (pktOf 8 0 8 0 1 5) ∧ ({ pktOf 8 0 8 0 1 5 with src := 2 } : Packet).src ≠ (coreWait false).me ∧
    (((pktOf 8 0 8 0 1 5).node.toNat, (pktOf 8 0 8 0 1 5).sink.toNat, (2 : PkgId)) ∈ ({ coreWait false with fab := { late := [(5, 1, 2)] } } : State).fab.late) := by
  unfold Claims.inTime; decide +kernel

theorem wit_Responses_quiet : ∀ g, (coreWait false).on PG_PTB_STS.ACTIVE g = false := quiet_of_regs _ rfl

def coreBar (a : Nat) : State := { onCore (running []) with barriers := [(3, { count := 2, phase := 4, arrived := a })] }

/-- An arrival that does not complete a phase, one that does, and BAR.W after neither; one that waits for the context's stores, and one for the phase of its last
arrival. -/
theorem wit_FencesAndBarriers : ((coreBar 1).ctxOf 5 1).wait = .none ∧ ((coreWait false).core 5).fenced 1 = false ∧ ((coreBar 0).core 5).fenced 1 = true ∧
    (coreBar 0).executes 5 1 (word 0 0 0 0 0 3) ∧ Claims.mayArrive (coreBar 0) 5 1 3 ∧
    ((coreBar 0).barrier 3).arrived + 1 < ((coreBar 0).barrier 3).count ∧ (coreBar 1).executes 5 1 (word 0 0 0 0 0 3) ∧ Claims.mayArrive (coreBar 1) 5 1 3 ∧
    ((coreBar 1).barrier 3).count ≤ ((coreBar 1).barrier 3).arrived + 1 ∧ ((coreBar 0).ctxOf 5 1).lastArrival 3 ≠ some 4 ∧ ((coreBar 0).barrier 4).count = 0 ∧
    ({ running [] with arrivals := [(3, 5)] } : Ctx).lastArrival 3 = some ((coreBar 0).barrier 3).phase := by
  unfold State.executes Claims.mayArrive; decide +kernel

def coreReady : State := { State.reset with cores := [(5, { Core.reset with lastHeld := 6, ctxs := [(0, { running [] with st := .ready }), (3, { running [] with st := .ready })] })] }

/-- TIME at its least and greatest rack time; a held slot, and one that passes from context 6 by 7 to context 0. -/
theorem wit_SystemAndScheduler : (onCore (running [])).executes 5 1 (word 0 6 0 0 0 4) ∧ ({ onCore (running []) with rackTime := 20 } : State).executes 5 1 (word 0 6 0 0 0 0) ∧
    ({ onCore (running []) with rackTime := 2 ^ 64 - 21 } : State).executes 5 1 (word 0 6 0 0 0 0) ∧ ((onCore (running [])).core 5).running = some 1 ∧
    (coreReady.core 5).running = none ∧ (∀ j < 1, (coreReady.ctxOf 5 (((coreReady.core 5).lastHeld + 1 + j) % 8)).st ≠ .ready) ∧
    (coreReady.ctxOf 5 (((coreReady.core 5).lastHeld + 1 + 1) % 8)).st = .ready ∧ 4 < immBits (word 0 6 0 0 0 5) 7 0 ∧
    immBits (word 0 6 0 0 0 4) 7 0 = 4 := by
  unfold State.executes; decide +kernel

/-- The hearth's holder with its own instruction at the head, another's, and none. -/
theorem wit_SystemAndScheduler_hearth : ((coreH [hearthHead, { hearthHead with ctx := 2 }]).core 5).holder = some 1 ∧
    ((coreH [hearthHead, { hearthHead with ctx := 2 }]).core 5).hearthQ = hearthHead :: [{ hearthHead with ctx := 2 }] ∧
    ((coreH [{ hearthHead with ctx := 2 }, hearthHead]).core 5).hearthQ = { hearthHead with ctx := 2 } :: [hearthHead] ∧
    (onCore (running []) { Core.reset with holder := some 1 }).executes 5 1 (word 0 6 0 0 0 4) := by
  unfold State.executes; decide +kernel


/-! Steps, tiles, attention and experts (R138, R174 to R256, R424, R425). -/

/-- START and STOP in each case; an instruction word of the seated image. -/
theorem wit_ContextControl : ((onCore Ctx.reset).ctxOf 5 1).st = .halted ∧ ((onCore (running [])).ctxOf 5 1).st ≠ .halted ∧
    ((onCore (running [])).ctxOf 5 1).st ≠ .waitRemote ∧ ((coreWait false).ctxOf 5 1).st = .waitRemote ∧
    (onCore (running [])).on PG_PTB_STS.ACTIVE (Block.core.page 5) = false ∧ (onCore (running [])).mgmt.log = [] ∧ ((onCore (running [])).core 5).running = some 1 ∧ pcIdx ((onCore (running [])).ctxOf 5 1).pc ∉ ((onCore (running [])).core 5).imemBad ∧
    (({ paired with seated := some 4 } : State).imageWord 5 5).isSome = true := by decide +kernel

theorem wit_HearthQueue : ((coreH [hearthHead]).core 5).hearthQ = [hearthHead] ∧ hearthHead.releases = false := by decide +kernel

def takeOne : State := act fun p => { p with descs := [descOf 1 (.taken 5 1), descOf 1 .listed] }
def takeLast : State := act fun p => { p with descs := [descOf 1 (.taken 5 1)] }
def takeWait : State := act fun p => { p with descs := [descOf 1 (.taken 5 2)], walked := false }
def takeHeld : State := act fun p => { p with descs := [descOf 1 .listed], takeWaits := [{ core := 5, ctx := 1 }] }

/-- TAKE with one to pick, with none while some remain, with none at all; and one that waited. -/
theorem wit_TakesServed : Claims.served takeOne (pktOf 4 0 0 0 1 5) ∧ Claims.mayServe takeOne 5 1 ∧ ((takeOne.completeTaken 5 1).pick 5).isSome = true ∧
    Claims.served takeWait (pktOf 4 0 0 0 1 5) ∧ Claims.mayServe takeWait 5 1 ∧ (takeWait.completeTaken 5 1).pick 5 = none ∧ (takeWait.completeTaken 5 1).remains 5 = true ∧
    Claims.mayServe takeLast 5 1 ∧ (takeLast.completeTaken 5 1).pick 5 = none ∧ (takeLast.completeTaken 5 1).remains 5 = false ∧
    takeHeld.step.takeWaits = [{ core := 5, ctx := 1 }] ∧ wingOf 5 = 0 ∧ Claims.mayServe takeHeld 5 1 ∧ (takeHeld.pick 5).isSome = true := by
  unfold Claims.served Claims.mayServe; decide +kernel

/-- A packet of two links, and one of a later channel that has been passed over 16 times, at one output. -/
def fabricOf : FabricSt :=
  { transits := [{ n := 0, vc := 0, arrived := false, flits := 3, route := [.x 0 0 true, .x 0 1 true], sent := [0, 0] },
                 { n := 1, vc := 2, arrived := false, flits := 3, route := [.x 0 0 true, .x 0 1 true], sent := [0, 0] }],
    passed := [(.x 0 0 true, [0, 0, 16, 0])] }

/-- The later channel is granted, with a packet of the earlier one that could go. -/
theorem wit_FabricAnswers_grants : (fabricOf.turn fun _ _ => true).1.map (fun g => (g.1, g.2.vc)) = [(.x 0 0 true, 2)] ∧
    (∃ t ∈ fabricOf.transits, t.waits (.x 0 0 true) = true ∧ fabricOf.credit (fun _ _ => true) (.x 0 0 true) t = true ∧ t.vc = 0) ∧
    (.x 0 0 true : Link).lintel = none ∧ (.x 0 32 true : Link).lintel.isSome = true ∧ 16 ≤ (fabricOf.passedAt (.x 0 0 true)).getD 2 0 := by decide +kernel

/-- A chimney packet for package 2, whose receive area this package has filled. -/
def chimneyFull : State :=
  { paired with fab := { chimney := [{ n := 0, piece := 0, pkt := msgPkt 20, dest := 2 }], chimneyUsed := [(2, Config.chimneyArea 2 + 1)] } }

theorem wit_FabricAnswers_chimney : (chimneyFull.fab.chimney.map fun q => (q.n, q.piece)).Nodup ∧ (∃ e ∈ chimneyFull.fab.chimney, e.dest.toNat = 2) ∧
    Config.chimneyArea 2 + 1 ≤ SMap.get 0 chimneyFull.fab.chimneyUsed 2 := ⟨by decide, by decide, Nat.le_refl _⟩

/-- A packet of core 0 for core 1 with a flit to pass, and one of package 2 for core 65 that has passed its first link. -/
def draining : FabricSt :=
  { transits := [{ n := 0, vc := 2, arrived := false, flits := 2, route := [.x 0 0 true], sent := [1] },
                 { n := 1, vc := 3, arrived := true, flits := 1, route := [.x 0 0 true, .y 1 0 true], sent := [1, 0] }] }

theorem wit_FabricAnswers_drains : (draining.transits.map fun t => (t.n, t.piece)).Nodup ∧ (∃ t ∈ draining.transits, t.done = false) ∧
    paired.packetPath (pktOf 2 (srfAddr 0 0 0x100000) 0 0 0 0) 0 = [.x 0 0 true] ∧
    paired.packetPath { pktOf 2 (srfAddr 0 0 (65 * 0x100000)) 0 0 0 0 with src := 4 } 0 = [.x 0 0 true, .y 1 0 true] ∧
    ∀ t ∈ draining.transits, t.vc < 4 ∧ t.sent.length = t.route.length := by decide +kernel

/-- A request that has waited 2 ms, one nanosecond less, and none. -/
theorem wit_FabricAnswers_lost : (coreWait false).askedAt (pktOf 0 8 8 0 1 5) = some 0 ∧ (pktOf 0 8 8 0 1 5).src = (coreWait false).me ∧
    0 + 2000000 ≤ ({ coreWait false with rackTime := 2000000 } : State).rackTime ∧ ({ coreWait false with rackTime := 1999999 } : State).rackTime < 0 + 2000000 ∧
    (coreWait false).askedAt (pktOf 0 8 8 0 2 5) = none := by decide +kernel

theorem wit_FabricAnswers : 0xB < (pktOf 0xC 0 0 0 1 5).type.toNat ∧ (pktOf 6 0 0 0 1 5).type.toNat ≤ 6 ∧ (pktOf 6 0 0 0 1 5).type.toNat ≠ 3 := by decide

def idleWith (f : StepSt → StepSt) : State := { paired with step := f pairedStep }
def idleMantel : State := (idleWith id).wr SEQ_MANTELn.VALID 1 0 3

/-- The package that does not lead, with the leader's contribution and without. -/
def trailing (k : List Contribution) : State := { idleWith (fun p => { p with contributions := k }) with pair := { pairedPair with slot := 2 } }

/-- An idle boundary is to be opened by a report and by the leader's contribution, and with neither it is not. -/
theorem wit_ContributionsTravel_opens : Claims.opens true (idleWith id) ∧ Claims.opens false (trailing [{ contrib0 with home := 0, step := 7 }]) ∧
    ¬ Claims.opens false (idleWith fun p => { p with lastBoundary := 4999000001 }) ∧ ¬ Claims.opens true (trailing []) := by
  refine ⟨.inl ⟨by decide +kernel, .inl rfl⟩, .inr ⟨by decide +kernel, _, List.mem_cons_self .., by decide +kernel, by decide +kernel⟩, ?_, ?_⟩
  · have off : ∀ n < 64, (idleWith fun p => { p with lastBoundary := 4999000001 }).on SEQ_MANTELn.VALID 0 n = false := by decide +kernel
    rintro (⟨_, h | h | h | h | ⟨n, hn, h, -⟩⟩ | ⟨h, -⟩)
    · cases h
    · exact h rfl
    · exact h rfl
    · revert h; decide +kernel
    · rw [off n hn] at h; cases h
    · revert h; decide +kernel
  · rintro (⟨h, -⟩ | ⟨_, k, hk, -⟩)
    · revert h; decide +kernel
    · exact List.not_mem_nil hk

/-- A contribution at an idle boundary, at a mantel slot start, and from the partner. -/
theorem wit_ContributionsTravel : (idleWith id).inBoundaries = true ∧ (idleWith id).step.active = false ∧ (idleWith id).step.seating = [] ∧ (idleWith id).resting = false ∧
    (idleWith id).step.contributed = false ∧ ((idleWith id).contribute 5000000000).boundaryOpen = false ∧
    idleMantel.on SEQ_MANTELn.VALID 0 3 = true ∧ (mantelStart 3 5000000000).isSome = true ∧ (∀ x ∈ mantelStart 3 5000000000, idleMantel.step.lastBoundary < x) ∧
    idleMantel.inBoundaries = true ∧ idleMantel.leader = idleMantel.me ∧ contrib0.home ≠ (idleWith id).me ∧ contrib0.home ∈ (idleWith id).pair.members ∧
    (idleWith id).closing ≤ ({ contrib0 with step := 7 } : Contribution).step.toNat ∧ (idleWith id).step.contributions = [] := by decide +kernel

def closing (active : Bool) : State :=
  (if active then act else idleWith) fun p =>
    { p with contributed := true, contributions := [{ contrib0 with step := if active then 6 else 7 }, { contrib0 with home := 0, step := if active then 6 else 7 }] }

/-- A boundary with a step and an idle one, and an idle time of 1 ms. -/
theorem wit_Boundaries : (closing true).inBoundaries = true ∧ (closing true).boundaryOpen = true ∧ (closing true).step.contributed = true ∧
    (closing true).step.active = true ∧ (closing false).inBoundaries = true ∧ (closing false).boundaryOpen = true ∧ (closing false).step.contributed = true ∧
    (closing false).step.active = false ∧ (closing false).step.seating = [] ∧ (closing false).resting = false ∧
    (idleWith fun p => { p with lastBoundary := 4999000000 }).step.lastBoundary + 1000000 ≤ paired.rackTime := by decide +kernel

def stepOver : State :=
  act fun p => { p with descs := [descOf 1 .done, descOf 1 .done, { descOf 4 .done with group := 2, layer := 3 }, { descOf 4 .done with group := 2, layer := 3 }] }
def partOverAt : State := { stepOver with step := { stepOver.step with partDone := some 4999000000, mirrorSent := true } }
def mirrorOf : Mirror :=
  { step := 6, records := [], producers := [], held := [], deferred := [], confirmed := [], unconfirmed := [], accounts := [], moves := [], promptFill := [],
    digest := 0, kvCrc := [] }
def idleBefore : State := { paired with step := { pairedStep with id := 5 } }
theorem wit_StepPartAndMirror_quiet : ∀ g, partOverAt.on PG_PTB_STS.ACTIVE g = false := quiet_of_regs _ rfl
def follower : State := act fun p => { p with started := false, leader := 2 }

/-- The end of a part with the logits of its sampled sequence and without; mirrors; a list that agrees, one that differs, and one of the next step. -/
theorem wit_StepPartAndMirror : stepOver.sampledHere = [7] ∧ (∀ e ∈ stepOver.sampledHere, ∃ x ∈ [(⟨7, 2, []⟩ : Sample)], x.seq = e) ∧
    ¬ (∀ e ∈ stepOver.sampledHere, ∃ x ∈ ([] : List Sample), x.seq = e) ∧ follower.step.headers = [] ∧ follower.pair.member = .paired ∧
    ({ follower.header with digest := follower.step.digest + 1 } : ListHeader).digest ≠ follower.step.digest ∧ (6 : Nat) < (7 : DWord).toNat ∧ follower.step.id = 6 ∧
    stepOver.step.active = true ∧ stepOver.step.started = true ∧ stepOver.step.seating = [] ∧ stepOver.step.partDone = none ∧ stepOver.partOver = true ∧
    stepOver.pair.member = .paired ∧ stepOver.step.partnerMirror = none ∧ mirrorOf.step.toNat = stepOver.step.id ∧
    partOverAt.step.partDone = some 4999000000 ∧ mirrorOf.digest = partOverAt.step.digest ∧ mirrorOf.kvCrc = partOverAt.step.kvCrc ∧
    partOverAt.step.mirrorSent = true ∧ partOverAt.step.mirrorAcked = false ∧ partOverAt.step.contributed = false ∧ (6 : DWord).toNat = partOverAt.step.id ∧
    mirrorOf.atAcceptance = false ∧ mirrorOf.step.toNat = idleBefore.step.id + 1 ∧ idleBefore.step.active = false ∧ mirrorOf.digest = idleBefore.step.digest ∧
    idleBefore.pair.member = .paired ∧ ({ mirrorOf with atAcceptance := true } : Mirror).atAcceptance = true ∧ stepOver.step.leader = stepOver.me ∧
    (∀ a ∈ [1, 1], ∀ b ∈ [1, 1], a = b) ∧ (∀ p ∈ [0], p = follower.pairNum) ∧ ¬ (∀ a ∈ [1, 2], ∀ b ∈ [1, 2], a = b) ∧
    follower.header.stepId.toNat = follower.step.id ∧ follower.header.attempt = follower.step.attempt ∧ follower.step.leader ≠ follower.me ∧
    follower.step.started = false ∧ follower.header.digest = follower.step.digest ∧ follower.header.check = follower.step.check := by decide +kernel

def seatAt (since : Nat) : State := act fun p => { p with seating := [{ slot := 4, image := 0, load := false, cmd := none, since := since }] }
def seatWaits : State := seatAt 0
def promptAwaited : State :=
  { paired with table := [(7, { seq7 with st := .queued, promptReady := false, position := 0, promptAddr := 0x8000000, promptLen := 3 })],
                kv := { KvSt.empty with seqs := [(7, { SeqKv.none with prompt := [2048] })] } }

/-- A seat whose cores have halted; one that waits, at 50 µs and just before; a prompt that is awaited. -/
theorem wit_SeatsAndPrompts : seatWaits.step.seating ≠ [] ∧ seatWaits.allHalted = true ∧ (∀ x ∈ seatWaits.step.seating, x.evict = false) ∧
    ({ seatWaits with cores := (onCore (running [])).cores } : State).allHalted = false ∧ 4999950000 + 50000 ≤ (seatAt 4999950000).rackTime ∧
    (seatAt 4999950001).rackTime < 4999950001 + 50000 ∧ (promptAwaited.seq 7).home = promptAwaited.me ∧ (promptAwaited.seq 7).promptReady = false ∧
    7 ∉ promptAwaited.promptReady ∧ (promptAwaited.kvOf 7).prompt ≠ [] ∧ (promptAwaited.seq 7).position = 0 := by decide +kernel

def pagesAt : State :=
  { act (fun p => { p with walked := false }) with
    kv := { KvSt.empty with seqs := [(7, { SeqKv.none with pages := [(0, some { fill := 0, frame := 3000, crc := 0 }), (1, some { fill := 0, frame := 3001, crc := 0 })] })] } }

/-- A walk that visits two pages. -/
theorem wit_PageWalkEmits : pagesAt.step.active = true ∧ pagesAt.step.started = true ∧ pagesAt.step.walked = false ∧ pagesAt.step.takeWaits = [] ∧ pagesAt.visits.length = 2 := by
  decide +kernel

def moving : LoftMove := { seq := 7, units := [11, 12], rewritten := false, frames := [3000, 3001], told := [] }
def movingAt : State := { pagesAt with kv := { pagesAt.kv with moves := [moving], loftUnits := [3, 11, 12] } }
def copying : ResumeRec := { seq := 7, part := 2, stamp := 5, tag := 0, st := .copying [3000], told := [] }
/-- A copy back of one page of bytes `b`. -/
def copyingAt (b : Bytes) : State :=
  { pagesAt with kv := { pagesAt.kv with frames := [2999, 3000], resumes := [copying], inLoft := [7],
                                         seqs := [(7, { SeqKv.none with pages := [(0, some { fill := 0, frame := 11, crc := crc32c b })] })] } }

/-- A last unit that reads back as it was written, and one that does not. -/
theorem wit_LoftMoves_readBack : movingAt.loftWriter = true ∧ movingAt.on SEQ_LOFT_CTL.TARGET = false ∧
    none ≠ (moving.frames.getLast?).map movingAt.frameImage ∧
    ¬ ((moving.frames.getLast?).map movingAt.frameImage ≠ (moving.frames.getLast?).map movingAt.frameImage) :=
  ⟨by decide +kernel, by decide +kernel, nofun, fun h => h rfl⟩

theorem wit_LoftMoves (b : Bytes) : movingAt.kv.moves.find? (fun x => decide (x.seq = 7) && !x.rewritten) = some moving ∧
    (copyingAt b).kv.resumes = [copying] ∧ (copyingAt b).me ∉ copying.told ∧ 7 ∉ (copyingAt b).resumed ∧ copying.st = .copying [3000] ∧
    ((copyingAt b).kvOf 7).pages = [(0, some { fill := 0, frame := 11, crc := crc32c b })] ∧ crc32c ([b].getD 0 []) = crc32c b :=
  ⟨by decide +kernel, rfl, List.not_mem_nil, List.not_mem_nil, rfl, rfl, rfl⟩

def routedAt (a : Nat) : State :=
  { act (fun p => { p with descs := [descOf 1 .done, descOf 1 .done] }) with cellar := mCellar ++ cellsOf a (leBytes 8 0x80000001 ++ leBytes 8 0x80000002) }

/-- The same without a record: it is not valid. -/
theorem wit_RoutingChecked_bad (h : recordAddr 3 false 0 = 0x8000000) : (routedAt 0x9000000).halfTokens false = 1 ∧ (routedAt 0x9000000).listsBuilt = true ∧
    recordOk (exLayerAt mExp 0) ((routedAt 0x9000000).record 3 false 0) = false ∧ (routedAt 0x9000000).step.faults = [] ∧ (routedAt 0x9000000).pair.members ≠ [] := by
  unfold State.record; rw [h]; decide +kernel

/-- A valid record of the one token, at one place that the steward may choose (notes/assumptions/46.md). -/
theorem wit_RoutingChecked (h : recordAddr 3 false 0 = 0x8000000) : ((routedAt 0x8000000).exLayer 3) = some (mExp, exLayerAt mExp 0) ∧
    (routedAt 0x8000000).halfTokens false = 1 ∧ (3, false) ∉ (routedAt 0x8000000).step.routed ∧
    (routedAt 0x8000000).groupDone (planGroups ((routedAt 0x8000000).plan 4)) (exLayerAt mExp 0).routeGroup false = true ∧
    recordOk (exLayerAt mExp 0) ((routedAt 0x8000000).record 3 false 0) = true := by
  unfold State.record; rw [h]; decide +kernel

def dispatched : State :=
  act fun p => { p with routed := [(3, false)], descs := [descOf 1 .done, { descOf 5 .done with layer := 3, expert := 0 }] }
def header0 : HeldHeader := { combine := false, layer := 3, half := false, src := 0, pos := 0, entries := [(0, 0), (1, 0)] }
def headerHeld : State := { dispatched with step := { dispatched.step with headers := [header0], expertKnown := [(3, false)] } }
def twoPairs : State := { dispatched with pair := { dispatched.pair with members := [0, 2, 1, 3], pairNums := [(0, 0), (2, 0), (1, 1), (3, 1)] } }
def headerOf (kind attempt : Nat) : Bytes := headerBytes kind 3 false attempt 6 0 0 [(0, 0), (1, 0)]

theorem wit_ExpertHeaders : dispatched.listsBuilt = true ∧ headerHeld.listsBuilt = true ∧ dispatched.step.takeWaits = [] ∧ (dispatched.exLayer 3).isSome = true ∧ 0 < dispatched.pairs ∧ (3, false) ∈ dispatched.step.routed ∧ (false, 3, false, 0) ∉ dispatched.step.sentHeaders ∧
    dispatched.exchangeDone 5 3 false 0 = true ∧ (headerHeld.dispatchHeaders 3 false).find? (fun x => decide (x.src = 0)) = some header0 ∧
    (∀ e ∈ header0.entries, e.2 = 0) ∧ fieldAt (headerOf 1 1) 4 4 = dispatched.step.id ∧ fieldAt (headerOf 1 1) 3 1 ≠ dispatched.step.attempt ∧
    fieldAt (headerOf 1 0) 3 1 = twoPairs.step.attempt ∧ twoPairs.step.headers = [] ∧ twoPairs.headerOk 1 0 (headerOf 1 0) = true ∧
    ((twoPairs.holdHeader false (headerOf 1 0)).dispatchHeaders 3 false).length < twoPairs.pairs ∧ dispatched.headerOk 2 0 (headerOf 2 0) = true := by decide +kernel


/-! Register pages and rack time (R5 to R13, R439, R440, R543 to R559). -/

/-- A package that has come up, with a link that carries traffic, and one of a pair. -/
def upState : State := { State.reset.wr HAL_BOOT_STS.STAGE 6 with pcie := { State.reset.pcie with up := true, bme := true } }
def pairedUp : State := { paired.wr HAL_BOOT_STS.STAGE 6 with pcie := upState.pcie }
def granted : State := { upState with mgmt := { upState.mgmt with grant := some (7, 0) } }

/-- A reserved header offset, one below the first register of no register, the header, and pages LAR, SWP, PWR and PAIR. -/
theorem wit_RegisterWrites : (∀ p ∈ [(0x24100, Block.lar, 36), (0x24104, .lar, 36), (0x24108, .lar, 36), (0x6100, .swp, 6), (0x4FFC, .pwr, 4)],
      Claims.reaches upState .pf (BitVec.ofNat 26 p.1) p.2.1 0 p.2.2) ∧
    Claims.reaches pairedUp .wainil 0x1104 .hal 0 1 ∧ ¬ Claims.reaches upState (.vf 2) 0x6100 .swp 0 6 ∧
    regAt .pwr 0xFFC = none ∧ ((regAt .lar 0x104).any fun r => r.writable && decide (r.pairing = .low)) = true ∧
    ((regAt .lar 0x108).any fun r => r.writable && decide (r.pairing = .high)) = true ∧
    ((regAt .swp 0x100).any fun r => r.writable && decide (r.pairing = .single)) = true ∧ ((regAt .swp 0x104).any fun r => !r.writable) = true ∧
    mayWrite .pf .lar 0 = true ∧ mayWrite .pf .swp 0 = true ∧ mayWrite .wainil .hal 0 = true ∧
    upState.refusal .swp 0 0x100 0 = none ∧ pairedUp.refusal .hal 0 0x104 0x80000000 = some Err.RESET_STATE ∧
    (Block.lar.pairLegal 0x104).ok 0x3FFFF = false ∧ (Block.lar.pairLegal 0x104).ok 0x40000 = true ∧
    upState.pairRefusal .lar 0 0x104 = none ∧ (upState.wr LAR_CTL.ENABLE 1).pairRefusal .lar 0 0x104 = some Err.LARDER_LIVE := by
  unfold Claims.reaches; decide +kernel

/-- The word before and the word after the reserved offsets, a low word and a latched high one; misaligned and unassigned offsets; an MSI-X page; a page that
is not served; a link that carries nothing. -/
theorem wit_RegisterReads : (∀ o ∈ [0, 0x064, 0x0FC], Claims.reaches upState (.vf 2) (BitVec.ofNat 26 o) .dir 2 16386 ∨ Claims.reaches upState .pf (BitVec.ofNat 26 (0x4000 + o)) .pwr 0 4) ∧
    SMap.get none ({ upState with latch := [(latchKey .pf 0x24104, some 5)] } : State).latch (latchKey .pf (0x24108 - 4)) = some 5 ∧
    SMap.get none upState.latch (latchKey .pf (0x24108 - 4)) = none ∧ msixPage .pf 0x4001 = none ∧ msixPage .pf 0xB000 = none ∧
    (reqPage .pf 0xB000).bind pageBlock = none ∧ (msixPage .pf 0xC000).isSome = true ∧ ((reqPage .pf 0x24108).bind pageBlock).map (·.1) = some .lar ∧
    State.reset.serves .lar = false ∧ upState.hears .pf = true ∧ State.reset.hears .pf = false := by
  unfold Claims.reaches; decide +kernel

/-- The three interrupt words and PG_PTB_CTL of page PAIR, with and without a grant; a page without points of injection; the debug trigger. -/
theorem wit_CommonHeader : (∀ o ∈ [0x014, 0x018, 0x00C, 0x040], Claims.reaches granted .pf (BitVec.ofNat 26 (0x7000 + o)) .pair 0 7) ∧
    Claims.reaches granted .pf 0xA040 .mdl 0 10 ∧ Block.mdl.hasPtb = false ∧ Block.pair.hasPtb = true ∧ upState.mayPerturb = false ∧ granted.mayPerturb = true ∧
    bitsN 0xC0000001 30 29 = 2 ∧ bitsN 0x80000001 30 29 = 0 ∧ (0x80000001 : Word).getLsbD 31 = true ∧ (0x1 : Word).getLsbD 31 = false ∧
    ({ granted with pins := { granted.pins with syncOk := true } } : State).pins.syncOk = true ∧ granted.on PG_PTB_STS.ACTIVE 7 = false ∧
    7 ∈ ((granted.wr PG_PTB_CTL.ENABLE 1 7).wr PG_PTB_CTL.TRIGGER 2 7).ptbPages ∧ ((granted.wr PG_PTB_CTL.ENABLE 1 7).wr PG_PTB_CTL.TRIGGER 2 7).rd PG_PTB_CTL.TRIGGER 7 = 2 ∧ granted.rd PG_PTB_CTL.TRIGGER 7 ≠ 2 ∧
    bitsN 0xA0000001 30 29 = 1 ∧ bitsN 0xC0000001 30 29 = 2 ∧ granted.pair.member = .outside ∧ granted.pins.syncOk = false ∧ granted.hostOpen = true ∧
    (SMap.get (msixDefault 3) [(3, (0 : Word))] 3).toNat % 2 = 0 := by
  unfold Claims.reaches; decide +kernel

theorem wit_ProbesAndLog : upState.takes .pf .cel = true ∧ upState.takes .pf .mgt = true ∧
    (let r : ErrRec := { upState.mkErr Err.REG_ACCESS 0 nodeHall with seq := 0 }
     ({ upState with mgmt := { upState.mgmt with log := [r] } } : State).mgmt.log.find? (fun r => decide (r.seq = upState.rd MGT_LOG_SEL_LO.SEQ)) = some r) := by
  decide +kernel

/-- ARM outside and inside a household; an armed edge and others 20 ns and 21 ns from a whole millisecond. -/
theorem wit_RackTime : upState.takes .pf .pair = true ∧ upState.pair.member = .outside ∧ pairedUp.takes .pf .pair = true ∧ pairedUp.pair.member ≠ .outside ∧
    upState.pair.formReady = false ∧ (upState.wr PAIR_RTIME_CTL.ARM 1).on PAIR_RTIME_CTL.ARM = true ∧ upState.on PAIR_RTIME_CTL.ARM = false ∧ upState.heldBack = 0 ∧
    5000020 ≤ (5000020 + 500000) / 1000000 * 1000000 + 20 ∧ ¬ 5000021 ≤ (5000021 + 500000) / 1000000 * 1000000 + 20 := by decide +kernel


/-! Power and limits (R447 to R468). -/

def powerAt (f : PowerSt → PowerSt) : State := { upState with rackTime := 90000000000, power := f upState.power }

/-- The caps at both ends of their range and one beside each; the timer just short of 5 s and at 5 s. -/
theorem wit_CapsAndBrakes : upState.takes .pf .pwr = true ∧ (399 : Word).toNat % 2 ^ 12 < 400 ∧ 2800 < (2801 : Word).toNat % 2 ^ 12 ∧ 400 ≤ (400 : Word).toNat % 2 ^ 12 ∧
    (2800 : Word).toNat % 2 ^ 12 ≤ 2800 ∧ upState.capNow ≤ 2800 ∧ 400 < upState.capNow ∧
    (powerAt fun p => { p with lastKick := 85000000001 }).rackTime < 85000000001 + 5000000000 ∧
    ((powerAt fun p => { p with lastKick := 85000000000 }).wr PWR_CAP_CTL.HB_EN 1).on PWR_CAP_CTL.HB_EN = true ∧
    ((powerAt fun p => { p with lastKick := 85000000000 }).wr PWR_CAP_CTL.HB_EN 1).power.hbLost = false ∧ 85000000000 + 5000000000 ≤ (powerAt id).rackTime ∧
    .brakeN ∉ (powerAt id).power.brakes := by decide +kernel

/-- Paces at the ends of their ranges; a point below 16 with samples; sensors at every bound of R467. -/
theorem wit_PointsAndDamper : (powerAt fun p => { p with sumDraw := 1500, sumCore := 1500, asked := 1 }).power.sumCore ≤ 1500 ∧ (powerAt id).rd PWR_OP_STS.POINT < 16 ∧
    1980 < (0x800007D0 : Word).toNat % 2 ^ 12 ∧ (0x800007D0 : Word).toNat % 2 ^ 12 ≤ 2000 ∧ (0x800007D0 : Word).getLsbD 31 = true ∧
    (BitVec.ofNat 32 (2 ^ 31 + 2300 * 4096 + 1980)).toNat % 2 ^ 12 = 1980 ∧ (BitVec.ofNat 32 (2 ^ 31 + 2300 * 4096 + 1980)).toNat / 2 ^ 12 % 2 ^ 12 = 2300 ∧
    (BitVec.ofNat 32 (2 ^ 31 + 500 * 4096 + 500)).toNat % 2 ^ 12 = 500 ∧ (0 : Word).getLsbD 31 = false ∧
    (powerAt id).rd PWR_OP_STS.C_THM < 16 := by decide +kernel

/-- A rail at its target, one on its way, and a package at rest. -/
theorem wit_PointsAndDamper_rail : (powerAt fun p => { p with rail := 10 * opMv.getD (powerAt id).targetOp 0 }).railsHeld = true ∧
    (powerAt fun p => { p with rail := 10 * opMv.getD (powerAt id).targetOp 0 }).power.rail =
      10 * opMv.getD (powerAt fun p => { p with rail := 10 * opMv.getD (powerAt id).targetOp 0 }).targetOp 0 ∧
    (powerAt fun p => { p with rail := 1 }).power.rail ≠ 10 * opMv.getD (powerAt fun p => { p with rail := 1 }).targetOp 0 ∧
    (powerAt fun p => { p with fire := .ember }).railsHeld = false := by decide +kernel

theorem wit_LimitsAndTemperature : (powerAt id).resting = false ∧ (powerAt fun p => { p with fire := .ember }).resting = true ∧
    (powerAt id).rd THM_STS.LEVEL = 0 ∧ (powerAt id).power.badSensors = [] ∧ (powerAt id).power.temps = [] ∧
    (powerAt fun p => { p with fire := .smoored, tripped := true, coolFrom := some 30000000001 }).rackTime < 30000000001 + 60000000000 ∧
    30000000000 + 60000000000 ≤ (powerAt fun p => { p with fire := .smoored, tripped := true, coolFrom := some 30000000000 }).rackTime := by decide +kernel


/-! The fire states, wear, the sweep, the cellar and the larder (R90 to R99, R358 to R377, R469 to R474, R526, R537 to R542). -/

def fireAt (f : Fire) (m : Member) (floor : Nat) : State :=
  { ((upState.wr PWR_STATE_CTL.FLOOR floor).wr PWR_STATE_CTL.GLOW_US 10) with
    rackTime := 9000000000000, pair := { pairedPair with member := m }, power := { upState.power with fire := f, idleSince := 1000, since := 500 } }
def restAt (f : Fire) (floor e : Nat) : State :=
  { fireAt f .paired floor with power := { (fireAt f .paired floor).power with restEntry := some e, restBanked := some e } }
def pausedAt (t : Nat) : State := { fireAt .ember .paired 3 with table := [(7, { seq7 with st := .paused, ttlEnd := t })] }
def porchShows : State :=
  { (fireAt .ember .paired 3).wr POR_CTL.PORCH_ENABLE 1 4 with porches := [(4, { Porch.reset with mem := cellsOf (128 + 0x7C) [1, 0, 0, 0] })] }

/-- A larder command that has been served and waits for its completion; the ring of wing 0 with a command waiting. -/
def larHeld (acks : List (Nat × Nat)) : LarCmd := { core := 5, second := false, queue := 2, reply := 5, tag := 77, status := 0, used := 1, skipped := 0, reqs := acks }
def larWaits (q : List LarCmd) : State := { upState with wings := [(0, { WingSt.reset with larder := q })], power := { upState.power with budget := [(0, 3)] } }

/-- Each entry at its least idle time, in and out of a household, at each FLOOR. -/
theorem wit_FireStates : (fireAt .burning .paired 1).power.fire = .burning ∧ (fireAt .burning .paired 1).step.active = false ∧
    1 ≤ (fireAt .burning .paired 1).rd PWR_STATE_CTL.FLOOR ∧ (fireAt .burning .paired 1).gatedBusy = false ∧ (larWaits [larHeld []]).gatedBusy = true ∧
    1000 * (fireAt .burning .paired 1).rd PWR_STATE_CTL.GLOW_US = ({ fireAt .burning .paired 1 with rackTime := 11000 } : State).rackTime - 1000 ∧
    (fireAt .burning .paired 0).rd PWR_STATE_CTL.FLOOR = 0 ∧ (fireAt .glow .outside 2).pair.member = .outside ∧ (fireAt .glow .outside 2).pair.goAt = none ∧
    (fireAt .glow .outside 2).power.idleSince + 1000000 * (fireAt .glow .outside 2).rd PWR_STATE_CTL.EMBER_MS ≤ (fireAt .glow .outside 2).rackTime ∧
    (fireAt .ember .out 3).power.since + 1000000000 * (fireAt .ember .out 3).rd PWR_STATE_CTL.BANKED_S ≤ (fireAt .ember .out 3).rackTime ∧
    (fireAt .ember .out 3).rd PWR_STATE_CTL.FLOOR = 3 ∧ 2 ∈ (fireAt .glow .paired 3).serving ∧ (fireAt .glow .paired 3).leader = (fireAt .glow .paired 3).me ∧
    9 ∉ (fireAt .glow .paired 3).serving ∧ (restAt .glow 2 9000000000000).power.restEntry = some 9000000000000 ∧ (restAt .glow 2 0).power.fire = .glow ∧ (fireAt .smoored .outside 3).retest = {} ∧
    (restAt .glow 2 0).resting = false ∧ 2 ≤ (restAt .glow 2 0).rd PWR_STATE_CTL.FLOOR ∧ (restAt .glow 3 9000000000001).rackTime < 9000000000001 ∧
    (restAt .ember 3 9000000000000).power.restBanked = some 9000000000000 ∧ (pausedAt 9000000030000).wakeTime = some 9000000000000 ∧
    (pausedAt 9000000030001).wakeTime = some 9000000000001 ∧ (porchShows.on POR_CTL.PORCH_ENABLE 4 = true ∧ (porchShows.porch 4).shows = true) ∧
    (∀ p ∈ List.range 16, ((fireAt .ember .paired 3).porch p).shows = false) ∧
    (∀ f ∈ [Fire.burning, .glow, .ember, .banked], ∀ m ∈ [Member.paired, .alone, .rejoining, .outside, .out, .halted], (fireAt f m 3).takes .pf .pwr = true) ∧
    (fireAt .smoored .outside 3).takes .wainil .pwr = true ∧ (fireAt .smoored .outside 3).on HAL_BOOT_STS.FAIL = false ∧ (fireAt .smoored .outside 3).pair.slot ≤ 35 ∧
    (fireAt .smoored .outside 3).kept.faulty = none := by
  decide +kernel

/-- A package out of its pair, which its partner serves alone. -/
def remapAt (r : SMap (Option (Nat × Bool))) : State :=
  { pairedUp with pair := { pairedPair with member := .out, lost := [0], failedCores := [5] }, kept := { upState.kept with remaps := r } }

/-- Roles due and not due, in a step with a tile taken and in one with none; a row with a remap and one without; a stress with its exponent at 0. -/
theorem wit_WearAndRoles : ({ upState with kind := { assignedAt := 0, reassignDue := false } } : State).step.lastBoundary < 0 + 3600000000000 ∧
    upState.kind.reassignDue = true ∧ (∃ d ∈ takeLast.step.descs, d.st ≠ .listed) ∧ takeLast.step.active = true ∧ (∀ d ∈ takeHeld.step.descs, d.st = .listed) ∧
    (remapAt []).pair.member = .out ∧ (remapAt []).partnerAlone = true ∧ upState.partnerAlone = false ∧ (5 : CoreId).toNat ∈ (remapAt []).pair.failedCores ∧
    SMap.get none (remapAt [(rowKey 5, some (3, false))]).kept.remaps (rowKey 5) = some (3, false) ∧ SMap.get none (remapAt []).kept.remaps (rowKey 5) = none ∧
    (40 : CoreId).toNat ∉ (remapAt []).pair.failedCores ∧ 12800 + 8 * ((0 : Int) - 800) + 5 * (-600 - 680) = 0 := by
  decide +kernel

def sweepAt (round : List Nat) : State := { upState.wr SWP_CTL.ENABLE 1 with rackTime := 9000000000000, sweepRound := round }

/-- Chunks in turn, and not; a core past its interval; lanes at 224 and 225 corrected symbols; the next line of its stack and another; a scrub interval's end. -/
theorem wit_SweepWork : (sweepAt []).seatedImage = none ∧ ({ paired with seated := some 4 } : State).seatedImage = some mImage ∧ 5 ∈ imgCores mImage ∧
    ({ sweepAt [] with power := { upState.power with fire := .ember } } : State).chunkMay 0 = true ∧ ({ sweepAt [] with power := { upState.power with fire := .ember } } : State).resting = true ∧
    (sweepAt []).withdrawn 5 = true ∧ takeLast.withdrawn 5 = false ∧ (sweepAt []).sweepTurn 5 = false ∧ (sweepAt []).power.fire = .glow ∧
    (sweepAt []).chunkMay 0 = true ∧ (sweepAt []).chunkMay 5 = false ∧ (sweepAt []).sweepRound.length < 4095 ∧
    (upState.wr SWP_CTL.ENABLE 0).on SWP_CTL.ENABLE = false ∧ (upState.core 5).lateCount = 0 ∧
    (sweepAt []).sweepMay = true ∧ (sweepAt []).laneIdle 3 = true ∧ (sweepAt []).mappedOut 3 = false ∧ (upState.wr SWP_CTL.ENABLE 0).sweepMay = false ∧
    (0 : BitVec 34).toNat < (sweepAt []).cellarLines ∧ (sweepAt []).on PG_PTB_STS.ACTIVE (Block.cel.page 0) = false ∧ (sweepAt []).celBad 0 64 = false ∧
    (sweepAt []).cel.scrubbed + 1 < (sweepAt []).cellarLines ∧ celNext (celHash 0).1 (SMap.get 0 (sweepAt []).cel.scrubNext (celHash 0).1) = 0 ∧
    celNext (celHash (64 * 4096)).1 (SMap.get 0 (sweepAt []).cel.scrubNext (celHash (64 * 4096)).1) ≠ 4096 ∧
    ({ sweepAt [] with rackTime := (sweepAt []).scrubInterval } : State).cel.scrubFrom + (sweepAt []).scrubInterval ≤ (sweepAt []).scrubInterval := by decide +kernel

theorem wit_SweepWork_last : (List.replicate 4095 0).length = 4095 ∧
    (sweepAt []).cellarLines ≤ ({ sweepAt [] with cel := { (sweepAt []).cel with scrubbed := (sweepAt []).cellarLines - 1 } } : State).cel.scrubbed + 1 := by
  refine ⟨List.length_replicate, by decide +kernel⟩

def celAddr (o : Nat) : Nat := (srfAddr 0 1 o).toNat
/-- A larder command of one key of two pairs' rows (R372). -/
def larBytes (op rl : Nat) : Bytes :=
  pad 128 (leBytes 1 op ++ leBytes 1 0x84 ++ leBytes 1 2 ++ leBytes 1 rl ++ leBytes 4 1 ++ leBytes 4 0 ++ leBytes 1 0 ++ leBytes 1 2 ++ leBytes 2 77 ++
    leBytes 8 (celAddr 0x10000) ++ leBytes 8 100 ++ leBytes 8 200 ++ leBytes 8 (celAddr 0x20000) ++ leBytes 8 0 ++ leBytes 8 (celAddr 0x30000) ++
    leBytes 2 (5 + 2 * 2 ^ 14) ++ leBytes 2 0 ++ leBytes 4 256)
def larAt (key : Nat) : State :=
  { pairedUp.wr LAR_CTL.ENABLE 1 0 with
    cellar := cellsOf 0x20000 (leBytes 8 key), cel := { pairedUp.cel with markedRows := [(3, 1, 2)], implicated := [64 * 49 + 5] } }

/-- An implicated lane with no spare left, and with one where the stack has any (notes/assumptions/99.md); a row that is marked, in the pair and outside. -/
theorem wit_CellarRepair (h : 0 < Config.spares 0 49) (k : 0 < Config.spares 1 (4096 * 3 + 1)) : SMap.get 0 State.reset.kept.spareLanes 49 < Config.spares 0 49 ∧
    SMap.get 0 State.reset.kept.spareRows (4096 * 3 + 1) < Config.spares 1 (4096 * 3 + 1) ∧
    Config.spares 0 49 ≤ SMap.get 0 [(49, Config.spares 0 49)] 49 ∧ 64 * 49 + 5 ∈ (larAt 6).cel.implicated ∧ 64 * 49 + 6 ∉ (larAt 6).cel.implicated ∧
    (3, 1, 2) ∈ (larAt 6).cel.markedRows ∧ (larAt 6).pair.member ≠ .outside ∧ (larAt 6).pair.member ≠ .out ∧ upState.pair.member = .outside :=
  ⟨h, k, Nat.le_refl _, by decide, by decide, by decide, by decide, by decide, by decide⟩

/-- The line of the list of keys is bad. -/
def larBad : State := { larAt 6 with cel := { (larAt 6).cel with badLines := [0x20000 / 64] } }
def larQ (b : Bytes) (key : Nat) : State := { larAt key with wings := [(0, { WingSt.reset with larQueue := [⟨5, false, b, 0⟩] })], power := { upState.power with budget := [(0, 20)] } }

/-- A command whose last key is held here, one with a key of another pair, one with a key that names no row, a bad command, and a list that cannot be read. -/
theorem wit_Larder : ((larQ (larBytes 1 2) 6).wing 0).larder = [] ∧ ((larQ (larBytes 1 2) 6).wing 0).larQueue = [⟨5, false, larBytes 1 2, 0⟩] ∧
    (larQ (larBytes 1 2) 6).larOk (larParam (larBytes 1 2)) = true ∧ (larQ (larBytes 1 3) 6).larOk (larParam (larBytes 1 3)) = false ∧
    (larParam (larBytes 1 2)).pool = 0 ∧ srfPkg (larParam (larBytes 1 2)).list = (larQ (larBytes 1 2) 6).me ∧
    (larQ (larBytes 1 2) 6).srfReadable (larParam (larBytes 1 2)).list (8 * (larParam (larBytes 1 2)).keys) = true ∧
    (larQ (larBytes 1 2) 6).larKeys (larParam (larBytes 1 2)) [] = [.row 3] ∧ (larQ (larBytes 1 2) 200).larKeys (larParam (larBytes 1 2)) [] = [.bad] ∧
    (larQ (larBytes 1 2) 7).larKeys (larParam (larBytes 1 2)) [] = [.skip] ∧ (larParam (larBytes 1 2)).lines [.row 3] ≤ SMap.get 0 (larQ (larBytes 1 2) 6).power.budget 0 ∧
    SMap.get 0 ({ larQ (larBytes 1 2) 6 with power := upState.power } : State).power.budget 0 < (larParam (larBytes 1 2)).lines [.row 3] ∧ (larQ (larBytes 1 2) 6).srfInSpace ((larParam (larBytes 1 2)).place 0) = true ∧
    (larQ (larBytes 1 2) 6).srfInSpace ((larParam (larBytes 1 2)).place 0 + BitVec.ofNat 64 ((larParam (larBytes 1 2)).outBytes - 1)) = true ∧
    (∀ b < (larParam (larBytes 1 2)).keys, srfPkg ((larParam (larBytes 1 2)).place b) = (larQ (larBytes 1 2) 6).me ∧
      srfSpace ((larParam (larBytes 1 2)).place b) = 1) ∧
    (larAt 6).srfReadable ((larParam (larBytes 1 2)).rowLines 3).1 ((larParam (larBytes 1 2)).rowLines 3).2 = true ∧ srfPkg ((larParam (larBytes 1 2)).rowLines 3).1 = (larAt 6).me ∧
    srfSpace ((larParam (larBytes 1 2)).rowLines 3).1 = 1 ∧ (larParam (larBytes 1 2)).row 199 < (larParam (larBytes 1 2)).totalRows ∧
    (larParam (larBytes 1 2)).totalRows ≤ (larParam (larBytes 1 2)).row 200 ∧
    (larBad.larOk (larParam (larBytes 1 2)) = true ∧ larBad.srfReadable (larParam (larBytes 1 2)).list (8 * (larParam (larBytes 1 2)).keys) = false) := by decide +kernel

theorem wit_Larder_quiet (b : Bytes) (k : Nat) : Claims.noInjection (larQ b k) :=
  quiet_of_words (larQ b k) (show ∀ e ∈ (pairedUp.wr LAR_CTL.ENABLE 1 0).regs, e.1 % 0x1000 ≠ 0x05C by decide +kernel)

/-- Both slots of core 5 stored whole with none of its commands waiting; completions acknowledged and not. -/
theorem wit_Larder_slots : (∀ o ∈ [0x500, 0x580],
      Claims.served (larAt 6) (pktOf 1 (srfAddr 0 1 o) 128 0 1 5) ∧ (larAt 6).inFootprint o 128 = false ∧ (larAt 6).ringWing o 128 = some 0 ∧
      (larAt 6).larRing 0 ≤ o ∧ larCore 0 ((o - (larAt 6).larRing 0) / 256 % 1024) = 5) ∧ (0 : PkgId) = (larAt 6).me ∧ ((larAt 6).wing 0).larder = [] ∧
    ((larWaits [larHeld []]).wing 0).larder = larHeld [] :: [] ∧ (larHeld []).writes = [] ∧ (larHeld []).reqs = [] ∧ (larHeld [(0, 0)]).reqs ≠ [] ∧ ((larWaits []).wing 0).larder = [] := by
  unfold Claims.served; decide +kernel


/-! Links, the porch, applied commands and results (R273 to R299, R411 to R415, R424, R441 to R443, R513). -/

def laneAt (f : LaneSt → LaneSt) : LaneSt := f { LaneSt.reset with carrying := true, replay := [60, 61, 62, 63], txNext := 0, acked := 59, rxNext := 7 }
def linkHdr (seq ack nak : Nat) : BitVec 20 := BitVec.ofNat 20 (seq * 2 ^ 14 + ack * 2 ^ 8 + nak * 2 ^ 7 + 3)
def linksAt (s : State) (a b : Nat) : State :=
  { (((((s.wr PAIR_PLANn.VALID 1 0 3).wr PAIR_PLANn.IDENTITY 0x1234 0 3).wr PAIR_PLANn.VALID 1 0 2).wr PAIR_PLANn.IDENTITY 0x1235 0 2).wr
      PAIR_PLANn.REMAP_OK a 0 2).wr PAIR_PLANn.REMAP_OK b 0 3 with
    lanes := [(2, laneAt id), (3, laneAt fun l => { l with carrying := false, training := true }), (4, laneAt fun l => { l with spared := some 16 }),
      (16, laneAt fun l => { l with carrying := false, training := true })] }
def trainAt (n : Nat) : State := (List.range 16).foldl (fun s i => s.wr PAIR_PLANn.VALID 1 0 (72 + i)) (State.reset.wr HAL_BOOT_STS.STAGE n)

/-- Codewords at 15 and 16 corrected symbols, in order and not; a spare that trains; each outcome of a trained lane; lanes 87 and 88. -/
theorem wit_Links : ((linksAt upState 1 1).lane (2 : Lane)).carrying = true ∧ Claims.laneQuiet (linksAt upState 1 1) (2 : Lane) ∧
    ((linksAt upState 1 1).lane (3 : Lane)).carrying = false ∧ ((⟨true, 16, linkHdr 7 61 0, [1]⟩ : Codeword).decodes = false ∨ 15 < 16) ∧
    (laneAt id).ueTimes.length < 1000 ∧ ((laneAt id).header (linkHdr 7 61 1)).1.resends < 8 ∧ lkSEQ (linkHdr 7 61 1) = (laneAt id).rxNext ∧
    lkSEQ (linkHdr 8 61 1) ≠ (laneAt id).rxNext ∧ (laneAt id).replay = [60] ++ lkACK (linkHdr 7 61 1) :: [62, 63] ∧ lkACK (linkHdr 7 61 1) ∉ [60] ∧
    (laneAt id).backlog = 0 ∧
    (linksAt upState 1 1).replaces ((linksAt upState 1 1).spareLane (0 : Wing).val 0) = some 4 ∧
    (linksAt upState 1 1).spareLane (0 : Wing).val 0 ≠ 18 * (0 : Wing).val + 4 ∧
    ((linksAt upState 1 1).lane ((linksAt upState 1 1).spareLane (0 : Wing).val 0)).training = true ∧
    ((linksAt upState 1 1).lane ((linksAt upState 1 1).spareLane (1 : Wing).val 0)).training = false ∧
    upState.on PG_PTB_STS.ACTIVE (Block.wng.page (0 : Wing).val) = false ∧ LinkKind.mesh 3 4 ∉ (upState.wing (0 : Wing).val).linkFails ∧ pairedUp.pair.member = .paired ∧
    LinkKind.mesh 3 4 ∈ (({ upState with wings := [(0, { WingSt.reset with linkFails := [.mesh 3 4] })] } : State).wing (0 : Wing).val).linkFails ∧
    ((linksAt upState 1 1).lane (3 : Lane)).training = true ∧ upState.planId (3 : Lane) = none ∧ (linksAt upState 1 1).planId (3 : Lane) = some 0x1234 ∧
    0x1234 = (0x123407 : Word).toNat / 256 ∧ (∀ k < 2, (linksAt upState 1 1).spareLane (laneWing (3 : Lane)) k ≠ (3 : Lane).val) ∧
    ((linksAt upState 1 1).lane (3 : Lane)).trainFrom + 100000000 ≤ (linksAt { upState with rackTime := 100000000 } 1 1).rackTime ∧
    (linksAt { upState with rackTime := 99999999 } 1 1).rackTime < ((linksAt upState 1 1).lane (3 : Lane)).trainFrom + 100000000 ∧ [(1 : Fin 4)] ≠ [] ∧
    (∀ m ∈ List.range 88, m ≠ (3 : Lane).val → (linksAt upState 1 1).planId m ≠ some ((0x999907 : Word).toNat / 256)) ∧
    (∀ n ∈ List.range 88, n ≠ (3 : Lane).val → (linksAt upState 1 1).planId n = some ((0x123507 : Word).toNat / 256) → n = 2) ∧
    (linksAt upState 1 1).planId 2 = some ((0x123507 : Word).toNat / 256) ∧ (linksAt upState 1 1).remappable (3 : Lane) 2 = true ∧
    (linksAt upState 1 0).remappable (3 : Lane) 2 = false ∧ upState.takes .pf .pair = true ∧ (87 : BitVec 7).toNat ≤ 87 ∧ ¬ (88 : BitVec 7).toNat ≤ 87 ∧
    (upState.setMapOut 87 true).mappedOut 87 = true ∧ upState.mappedOut 87 = false := by unfold Claims.laneQuiet; decide +kernel

theorem wit_Links_train : (trainAt 4).rd HAL_BOOT_STS.STAGE = 4 ∧ (trainAt 4).on HAL_BOOT_STS.FAIL = false ∧
    (∀ i ∈ List.range 16, (trainAt 4).on PAIR_PLANn.VALID 0 (72 + i) = true ∧ ((trainAt 4).lane (72 + i)).training = false) ∧
    (trainAt 3).rd HAL_BOOT_STS.STAGE ≠ 4 ∧ upState.on PAIR_PLANn.VALID 0 87 = false ∧
    upState.takes .pf .fab (1 : Wing).val = true ∧ (upState.wr FAB_CTL.ENABLE 0 1).on FAB_CTL.ENABLE (1 : Wing).val = false ∧ (3 : Word).getLsbD 0 = true ∧
    (upState.wr FAB_CTL.ENABLE 1 1).on FAB_CTL.ENABLE (1 : Wing).val = true ∧ (2 : Word).getLsbD 0 = false ∧
    (upState.wr FAB_CTL.ENABLE 1 1).on FAB_CTL.ENABLE (1 : Wing).val = (1 : Word).getLsbD 0 := by decide +kernel

/-- A package in recovery with a link that carries traffic. -/
def recovering : State := { State.reset.wr HAL_BOOT_STS.STAGE 7 with pcie := upState.pcie, mgmt := { State.reset.mgmt with mode := .recovery } }

/-- A page of MSI-X in recovery. -/
theorem wit_RegisterReads_recovery : recovering.hears .pf = true ∧ recovering.inRecovery = true ∧ (msixPage .pf 0xC000).isSome = true ∧ upState.inRecovery = false := by
  decide +kernel

/-- A record of zeros with stamp 1 and the check given. -/
def recordOf (check : Nat) : Bytes := List.replicate 120 0 ++ leBytes 4 check ++ leBytes 4 1
def porchOn (f : Porch → Porch) : State :=
  { upState.wr POR_CTL.PORCH_ENABLE 1 3 with rackTime := 9000000000, porches := [(3, f { Porch.reset with next := 1, mem := cellsOf 128 (recordOf 0) })] }

theorem crc_30 : (List.replicate 30 0#8).foldl crcByte 0xFFFFFFFF = 401818370#32 := by decide +kernel
theorem crc_60 : (List.replicate 30 0#8).foldl crcByte 401818370#32 = 2784295630#32 := by decide +kernel
theorem crc_90 : (List.replicate 30 0#8).foldl crcByte 2784295630#32 = 1476433506#32 := by decide +kernel
theorem crc_120 : (List.replicate 30 0#8).foldl crcByte 1476433506#32 = 157617692#32 := by decide +kernel
theorem crc_124 : (leBytes 4 1).foldl crcByte 157617692#32 = 4121003555#32 := by decide +kernel

theorem recordOf_crc : crc32c (List.replicate 120 0 ++ leBytes 4 1) = 0x0A5E79DC := by
  have e : List.replicate 120 0#8 = List.replicate 30 0#8 ++ (List.replicate 30 0#8 ++ (List.replicate 30 0#8 ++ List.replicate 30 0#8)) := rfl
  unfold crc32c
  rw [show (0 : Byte) = 0#8 from rfl, e]
  simp only [List.foldl_append]
  rw [crc_30, crc_60, crc_90, crc_120, crc_124]
  decide

theorem recordOf_check (n : Nat) (h : leNat (leBytes 4 n) = n) : recordCheck (recordOf n) = decide (0x0A5E79DC = n) := by
  have a : (recordOf n).take 0x78 = List.replicate 120 0 := by simp [recordOf]
  have b : (recordOf n).drop 0x7C = leBytes 4 1 := by simp [recordOf, leBytes]
  have c : fieldAt (recordOf n) 0x78 4 = n := (congrArg leNat (by simp [recordOf, leBytes])).trans h
  simp only [recordCheck, a, b, c, recordOf_crc]
  rfl

/-- A whole record, one whose check fails, a window at 10 µs and one just before, the 255th and the 256th record, and offsets 0x100000 and 0xFFFFF. -/
theorem wit_PorchAccepts : recordCheck (recordOf 0x0A5E79DC) = true ∧ recordCheck (recordOf 0) = false ∧
    (recordOf 0).length = 128 ∧ (porchOn id).power.fire ≠ .smoored ∧ (porchOn id).on POR_CTL.PORCH_ENABLE (3 : Part).val = true ∧ (porchOn id).resting = false ∧
    ((porchOn fun p => { p with accepted := 255 }).porch (3 : Part).val).accepted < 256 ∧ fieldAt (recordOf 0) 0x7C 4 = ((porchOn id).porch (3 : Part).val).next.toNat ∧
    ((porchOn id).porch (3 : Part).val).tornFrom = none ∧ (porchOn id).on POR_CTL.PORCH_ENABLE (4 : Part).val = false ∧
    ((porchOn fun p => { p with tornFrom := some 8999990000 }).porch (3 : Part).val).tornFrom = some 8999990000 ∧
    (porchOn fun p => { p with tornFrom := some 8999990000 }).mayExamine (3 : Part).val = true ∧
    ((porchOn fun p => { p with tornFrom := some 8999990000 }).porch (3 : Part).val).shows = true ∧
    ((porchOn fun p => { p with tornFrom := some 8999990000 }).porch (3 : Part).val).expected = recordOf 0 ∧
    (porchOn id).inRecovery = false ∧ recovering.inRecovery = true ∧ (porchOn id).on PG_PTB_STS.ACTIVE (Block.por.page (3 : Part).val) = false ∧
    recovering.hears .pf = true ∧ 12 * 2 ^ 20 - 4 < 12 * 2 ^ 20 ∧ (0xC00000 : BitVec 24).toNat = 12 * 2 ^ 20 ∧
    (fireAt .smoored .outside 3).power.fire = .smoored ∧ State.reset.pcie.up = false ∧ (porchOn id).pcie.up = true ∧
    256 ≤ ((porchOn fun p => { p with accepted := 256 }).porch (3 : Part).val).accepted ∧
    fieldAt (recordOf 0) 0x7C 4 ≠ ((porchOn fun p => { p with next := 2 }).porch (3 : Part).val).next.toNat ∧
    ((porchOn fun p => { p with next := 2 }).porch (3 : Part).val).shows = false ∧ (fireAt .ember .paired 3).resting = true ∧
    (porchOn id).hears (.vf 3) = true ∧ Requester.vf 4 ≠ .pf ∧ Requester.vf 4 ≠ .vf 3 ∧ 8999990000 + 10000 ≤ (porchOn id).rackTime ∧ (porchOn id).rackTime < 8999990001 + 10000 ∧
    0x100000 ≤ (0x100000 : BitVec 24).toNat ∧ ¬ 0x100000 ≤ (0xFFFFF : BitVec 24).toNat := by
  refine ⟨(recordOf_check _ (by decide)).trans (by decide), (recordOf_check _ (by decide)).trans (by decide), ?_⟩
  decide +kernel

def unwritten : State := { upState with pcie := { upState.pcie with failed := [(3, 9)] } }

def commandAt (st : SeqState) (t : Nat) : State :=
  { ((pairedUp.wr MDL_CTL.ADMIN_MASK 8).wr SEQ_LOFT_CTL.ENABLE 1).wr SEQ_PART_CTLn.PRIO_MAX 3 0 3 with
    clients := [(clientKey 0 9, { Client.reset with owner := 3 })], seated := some 4,
    slots := [(4, mSlot), (5, { mSlot with st := .draining }), (6, Slot.evicted)], table := [(7, { seq7 with part := 3, st := st, ttlEnd := t })] }
def cmdOf (op : Nat) (h : Nat) (pl : Bytes) (res : Nat := 0) : Bytes :=
  pad 0x7C (pad 0x10 (leBytes 1 op ++ leBytes 3 res ++ leBytes 4 h ++ leBytes 8 1234) ++ pl) ++ leBytes 4 9
def recFor (b : Bytes) (torn : Bool) : CmdRec := { part := 3, stamp := 9, time := 7, torn := torn, bytes := b }
def handle7 : Nat := ((commandAt .queued 0).handle 7).toNat

/-- Each command that a sequence, a slot or a client answers, with a TTL of 86,400 s and of one more, slots 63 and 64, and addresses at and off 64 bytes. -/
theorem wit_CommandsApply : (recFor (cmdOf 2 5 []) true).torn = true ∧ (recFor [] false).admin = true ∧ ({ recFor [] false with admin := false } : CmdRec).admin = false ∧
    (commandAt .queued 0).hostOpen = true ∧ paired.hostOpen = false ∧ (payloadUsed (recOp (cmdOf 2 5 [] 1))).isSome = true ∧ reservedZero (cmdOf 2 5 [] 1) = false ∧
    recOp (cmdOf 0 0 []) = 0 ∧ payloadUsed (recOp (cmdOf 0x33 0 [])) = none ∧
    ([0x02, 0x03, 0x04, 0x05, 0x07].contains (recOp (cmdOf 2 5 [])) = true ∧ (commandAt .queued 0).lookup 0 (3 : Part).val (recHandle (cmdOf 2 5 [])) = none) ∧
    ([0x20, 0x21, 0x22, 0x24].contains (recOp (cmdOf 0x20 0 [])) = true) ∧
    (recOp (cmdOf 1 0 []) = 1 ∧ ((commandAt .queued 0).client (clientKey 0 (fieldAt (cmdOf 1 0 [4, 1, 0, 0, 10, 0]) 0x14 2))).owner ≠ (3 : Part).val) ∧
    (fieldAt (cmdOf 6 0 ([9, 0, 0, 0] ++ leBytes 4 5 ++ leBytes 4 77)) 0x18 4 ≠ 0 ∧
      ((commandAt .queued 0).client (clientKey 0 (fieldAt (cmdOf 6 0 ([9, 0, 0, 0] ++ leBytes 4 5 ++ leBytes 4 77)) 0x10 2))).owner = (3 : Part).val) ∧
    (fieldAt (cmdOf 0x10 0 [63]) 0x10 1 ≤ 63 ∧ ¬ fieldAt (cmdOf 0x10 0 [64]) 0x10 1 ≤ 63) ∧
    ((commandAt .queued 0).slot (fieldAt (cmdOf 0x10 0 [63]) 0x10 1)).st ≠ .ready ∧ ((commandAt .queued 0).slot (fieldAt (cmdOf 0x22 0 [4]) 0x10 1)).st = .ready ∧
    (commandAt .queued 0).seated = some (fieldAt (cmdOf 0x22 0 [4]) 0x10 1) ∧ ((commandAt .queued 0).slot (fieldAt (cmdOf 0x24 0 [6]) 0x10 1)).st = .evicted ∧
    fieldAt (cmdOf 0x23 0 (pad 8 [4] ++ leBytes 8 0x40)) 0x18 8 % 64 = 0 ∧ (0 : PkgId) = (commandAt .queued 0).me ∧
    fieldAt (cmdOf 0x20 0 (leBytes 8 63)) 0x10 8 % 64 ≠ 0 ∧ (commandAt .queued 0).lookup 0 (3 : Part).val (recHandle (cmdOf 2 handle7 [])) = some 7 ∧
    86400 < fieldAt (cmdOf 3 handle7 (leBytes 4 86401)) 0x10 4 ∧ fieldAt (cmdOf 3 handle7 (leBytes 4 86400)) 0x10 4 ≤ 86400 ∧
    ((commandAt .queued 0).seq 7).st ≠ .paused ∧ ((commandAt .queued 0).seq 7).st ≠ .expired ∧ ((commandAt .queued 0).seq 7).st ≠ .errored ∧
    (3, 9) ∉ (commandAt .queued 0).pcie.failed ∧ (3, 9) ∈ unwritten.pcie.failed ∧ fieldAt (cmdOf 7 handle7 (leBytes 8 64)) 0x10 8 % 64 = 0 ∧ (commandAt .paused 77).lookup 0 (3 : Part).val (recHandle (cmdOf 3 handle7 [])) = some 7 := by decide +kernel

def batchOf (step n : Nat) : Batch :=
  { part := 3, stepId := BitVec.ofNat 64 step, time := 1, kind := 1, replay := false, arith := {}, expert := {}, entries := List.replicate n ⟨1, 0, 0, 5, 6, 7, 8, 9, 10, false⟩ }
def ringAt (f : Ring → Ring) (on : Nat) : State :=
  { (((upState.wr POR_RING_SIZE.LOG2_SLOTS 8 3).wr POR_CTL.RING_ENABLE on 3).wr POR_IRQ_MOD.TIME_US 50 3).wr POR_RING_BASE_LO.ADDRESS 0x4000 3 with
    rackTime := 9000000000, rings := [(3, f { Ring.reset with prod := 0xFFFFFF80, cons := 0xFFFFFF80, unsignalled := 3, firstUnsignalled := 8999950000 })] }

/-- What a turn asks of the partition's ring: its oldest batch is `b`, with `hs` held and `ds` due after it. -/
def oldest (s : State) (b : Batch) (hs ds : List Batch) : Prop :=
  nextTurn s.resultTurn s.hasResult = some 3 ∧ b.entries ≠ [] ∧ b.alone = false ∧
    (((s.ring 3).held = b :: hs ∧ (s.ring 3).ready = ds) ∨ ((s.ring 3).held = [] ∧ hs = [] ∧ (s.ring 3).ready = b :: ds))

def dueAt (cons : Word) (on : Nat) : State := ringAt (fun r => { r with due := [batchOf 7 5], cons := cons }) on
def waiting5 : Batch := { batchOf 8 1 with entries := [⟨1, 0, 0, 5, 6, 7, 8, 9, 10, true⟩] }

/-- A batch due that fits, alone and before one that waits; one held before another due; rings of six and five free slots; a ring that is off and a host
that is not reached. -/
theorem wit_ResultsReach_turn : oldest (dueAt 0xFFFFFF80 1) (batchOf 7 5) [] [] ∧
    oldest (ringAt (fun r => { r with due := [batchOf 7 5, waiting5] }) 1) (batchOf 7 5) [] [] ∧
    oldest (ringAt (fun r => { r with held := [batchOf 6 2], due := [batchOf 7 5] }) 1) (batchOf 6 2) [] [batchOf 7 5] ∧
    (dueAt 0xFFFFFF80 1).ringOn 3 = true ∧ (dueAt 0xFFFFFF80 1).hostOpen = true ∧
    batchSlots (batchOf 7 5).entries.length ≤ (dueAt 0xFFFFFF80 1).ringFree 3 ∧ (dueAt 0xFFFFFE86 1).ringFree 3 = 6 ∧
    6 < batchSlots (batchOf 7 5).entries.length ∧ (dueAt 0xFFFFFE85 1).ringFree 3 = 5 ∧ (dueAt 0xFFFFFF80 0).ringOn 3 = false ∧ State.reset.hostOpen = false ∧
    (∀ p < 16, (ringAt id 1).hasResult p = false) := by
  unfold oldest; decide +kernel

/-- A vector at its time and just before, masked and not; a step confirmed, one of which more is held, and another; a ring and a porch on and off. -/
theorem wit_ResultsReach : ((ringAt id 1).ring (3 : Part).val).unsignalled ≠ 0 ∧ (ringAt id 1).rd POR_IRQ_MOD.TIME_US (3 : Part).val ≠ 0 ∧
    ((ringAt id 1).ring (3 : Part).val).firstUnsignalled + 1000 * (ringAt id 1).rd POR_IRQ_MOD.TIME_US (3 : Part).val ≤ (ringAt id 1).rackTime ∧
    (ringAt id 1).rackTime < ((ringAt (fun r => { r with firstUnsignalled := 8999950001 }) 1).ring (3 : Part).val).firstUnsignalled +
      1000 * (ringAt id 1).rd POR_IRQ_MOD.TIME_US (3 : Part).val ∧
    (SMap.get (msixDefault (4096 * 4 + 3)) [(4096 * 4 + 3, (0 : Word))] (4096 * 4 + 3)).toNat % 2 = 0 ∧
    (SMap.get (msixDefault (4096 * 4 + 3)) (ringAt id 1).pcie.msix (4096 * 4 + 3)).toNat % 2 = 1 ∧
    (∃ b ∈ ((ringAt (fun r => { r with unconfirmed := [batchOf 5 1, batchOf 6 2] }) 1).ring (3 : Part).val).unconfirmed, b.stepId = 5) ∧
    (∀ b ∈ ((ringAt (fun r => { r with unconfirmed := [batchOf 5 1, batchOf 6 2] }) 1).ring (3 : Part).val).unconfirmed, b.stepId ≠ 7) ∧
    (∃ b ∈ ((dueAt 0xFFFFFF80 1).ring (3 : Part).val).held ++ ((dueAt 0xFFFFFF80 1).ring (3 : Part).val).due, b.stepId = 7) ∧
    (ringAt id 1).takes .pf .por (3 : Part).val = true ∧ (3 : Word).getLsbD 2 = false ∧ (4 : Word).getLsbD 2 = true ∧
    (porchOn id).takes .pf .por (3 : Part).val = true ∧ (porchOn id).on POR_CTL.PORCH_ENABLE (3 : Part).val = true ∧ (6 : Word).getLsbD 3 = false ∧
    (8 : Word).getLsbD 3 = true ∧ (porchOn id).ringOn (3 : Part).val = false ∧
    (ringAt id 0).on POR_CTL.PORCH_ENABLE (3 : Part).val = false ∧ (6 : Word).getLsbD 0 = false := by decide +kernel


/-! Loads and repairs (R304 to R330). The roots, the key and the signature were worked out with another implementation of SHA-512 and RSA. -/

def loadImage : Bytes := pad 128 (mImage.take 64 ++ [5, 0, 5, 0] ++ leBytes 4 0 ++ leBytes 4 48 ++ leBytes 4 128) ++ (List.range 48).map fun i => BitVec.ofNat 8 (i + 1)
def loadObjs : List Bytes := [loadImage, List.replicate 16 0, mAttn]
def loadRoots : List Nat :=
  [0x56e41b3bb404ed2d46f410d969a9e532b9e9438d1b230371709e4ef80bb4a59d36adeeb55bc8e59a874d7bdacdd3a9a55ad7a9ea97a354a9bb92084e7ad9e4a9,
   0x1d1ddba67c614373460ecdf0185069b4758286990e71266176f7483258d94ea404e3a65d7d8d7bc8516fbe2a9f8d9ce1bf27859eb779285199d69316f96453f3,
   0xcc4cb19b62e230abcbc83e584ffca37044824d15d303068630f617384fb004dea628a6f60f7df6df30b355ee470ecece13ab05171bccb70517f9e1dd9e2a9bc4]
def loadKey : Bytes := beBytes 131
  0x1aba3c97a181721972cb61b1c35726b722d0ecbcefa00a891434a6a64435c833319895d0c5cecd237c946e65cd2368d957a8d58c117c83315d5d406c9773815aaff3fac825453d3cf2a32ac5b2c4385a0c8ab2aeaa62fd27d3b2b6d6174c1bc3ff39892fee608975e9df2a49c30fc673d5cb3d4d3044d2b10424284f1784be05eb601
def loadSig : Nat :=
  0x16f59a224d149dbb0acc8012b18ee651c99cafed34d6761b5b2f90db7ff0da1d7d0f943888134fee2ca023b128c0cf1221365d1f807b4a59e029eba191409a0012535a48e35ffb2db16c150e481fa2200b85f2b376f819d1da4cb509baff6954dbfa8ee9df0c3cfa70b0cfbd5fe6b90d0806c0fbdf42e9f555d64018a566a83b4f560
/-- The manifest of an image, an empty plan and a chain, for `np` pairs, with relocations and a signature. -/
def loadManifest (np : Nat) (rel : List Nat) (sig : Nat) : Bytes :=
  pad 128 (leBytes 4 0x4D465354 ++ leBytes 2 1 ++ [0, 0] ++ leBytes 8 1234 ++ leBytes 4 9 ++ leBytes 4 np ++ leBytes 4 3 ++ leBytes 4 3 ++ leBytes 4 rel.length) ++
    ((List.range 3).flatMap fun i => [BitVec.ofNat 8 (i + 2), 0xFF, 0, 0] ++ leBytes 4 i ++ leBytes 4 1 ++ leBytes 4 0 ++ leBytes 8 (0x10000 * i) ++ leBytes 8 0x10000) ++
    ((List.range 3).flatMap fun i => beBytes 64 (loadRoots.getD i 0) ++ leBytes 8 (4096 * i) ++ leBytes 4 (loadObjs.getD i []).length ++ leBytes 4 0) ++
    (rel.flatMap (leBytes 8)) ++ beBytes 512 sig
def loadCellar (fld : Byte) : Memory := cellsOf 0x8000000 loadImage ++ (if fld = 0 then [] else [(0x801000C, fld)]) ++ cellsOf 0x8020000 mAttn
def loadAt (f : Slot → Slot) (fld : Byte := 0) : State :=
  { pairedUp.wr SWP_CTL.ENABLE 1 with
    kept := { pairedUp.kept with mkeys := [(0, some loadKey)] }, rackTime := 9000000000, cellar := loadCellar fld
    slots := [(5, f { Slot.evicted with manifest := loadManifest 1 [] loadSig, manifestLen := (loadManifest 1 [] loadSig).length, base := 2, extents := 1 })] }

/-- A signature that holds; one under no key does not. -/
theorem wit_Loads_signature : sigOk loadKey (manSigned (loadManifest 1 [] loadSig)).1 (manSigned (loadManifest 1 [] loadSig)).2 = true := by decide +kernel

theorem wit_Loads_roots : shardRoot (List.replicate 16 0) = beBytes 64 (loadRoots.getD 1 0) ∧ shardRoot mAttn = beBytes 64 (loadRoots.getD 2 0) := by decide +kernel

theorem wit_Loads_manifest : SMap.get none (loadAt id).kept.mkeys (manKey (loadManifest 1 [] loadSig)) = some loadKey ∧ (State.reset.manSigOk (loadManifest 1 [] loadSig)) = false ∧
    ((loadAt fun m => { m with st := .loadManifest }).slot (5 : SlotIdx).toNat).st = .loadManifest ∧ ((loadAt id).slot (5 : SlotIdx).toNat).report = none ∧
    ((loadAt id).slot (5 : SlotIdx).toNat).home = (loadAt id).me ∧ (loadManifest 1 [] loadSig).length = ((loadAt id).slot (5 : SlotIdx).toNat).manifestLen ∧
    manFormatOk (loadManifest 1 [] loadSig) = true ∧ manFormatOk (loadManifest 0 [] loadSig) = false ∧ manPairs (loadManifest 1 [] loadSig) = (loadAt id).pairs ∧
    manPairs (loadManifest 1 [] loadSig) ≠ twoPairs.pairs := by decide +kernel

/-- Shard 1 arriving the first time and again, the last shard and not, good and bad. -/
theorem wit_Loads_shards : (loadAt id).shardPlace (5 : SlotIdx).toNat 1 = some (1, 0x8010000) ∧
    ((loadAt fun m => { m with st := .loadShards }).slot (5 : SlotIdx).toNat).st = .loadShards ∧ ((loadAt id).slot (5 : SlotIdx).toNat).done.contains 1 = false ∧
    ((loadAt fun m => { m with failedOnce := [2, 3] }).slot (5 : SlotIdx).toNat).failedOnce.contains (2 * 1) = true ∧ (loadAt id).arrivalGood (5 : SlotIdx).toNat 1 [1] = false ∧
    ((loadAt fun m => { m with failedOnce := [2, 3] }).slot (5 : SlotIdx).toNat).failedOnce.contains (2 * 1 + 1) = true ∧
    ((loadAt id).slot (5 : SlotIdx).toNat).failedOnce.contains (2 * 1 + 1) = false ∧
    (∀ j ∈ (loadAt fun m => { m with done := [0, 2] }).slotShards (5 : SlotIdx).toNat, j = 1 ∨ j ∈ ((loadAt fun m => { m with done := [0, 2] }).slot (5 : SlotIdx).toNat).done) ∧
    (∃ j ∈ (loadAt id).slotShards (5 : SlotIdx).toNat, j ≠ 1 ∧ j ∉ ((loadAt id).slot (5 : SlotIdx).toNat).done) := by decide +kernel

theorem wit_Loads_arrival : (loadAt id).arrivalGood (5 : SlotIdx).toNat 1 (List.replicate 16 0) = true := by
  unfold State.arrivalGood
  rw [wit_Loads_roots.1]
  decide +kernel

/-- Objects that pass and an image that does not; a relocated field below its footprint and one past it; a manifest that another package reads. -/
theorem wit_Loads_verify : ((loadAt fun m => { m with st := .verifying }).slot (5 : SlotIdx).toNat).st = .verifying ∧ (loadAt id).verifyCode (5 : SlotIdx).toNat = none ∧
    ((loadAt fun m => { m with base := 1 }).verifyCode (5 : SlotIdx).toNat).isSome = true ∧ manRelocsOk (loadManifest 1 [] loadSig) [] = true ∧
    manRelocsOk (loadManifest 1 [2 ^ 32 + 8] 0) [8] = true ∧ manRelocsOk (loadManifest 1 [2 ^ 32 + 8] 0) [0x4000000] = false ∧
    ((loadAt fun m => { m with home := 2 }).slot (5 : SlotIdx).toNat).home ≠ (loadAt id).me := by decide +kernel

def loadReady (bad : List Nat) : State := loadAt fun m => { m with st := .ready, bad := bad }

theorem wit_Loads_good : (loadReady []).shardGood (5 : SlotIdx).toNat 1 = true := by
  have a : ((loadReady []).shardPlace (5 : SlotIdx).toNat 1) = some (1, 0x8010000) := by decide +kernel
  have b : (loadReady []).relocShard (5 : SlotIdx).toNat 1 (2 ^ 64 - (loadReady []).slotBase (5 : SlotIdx).toNat)
      ((loadReady []).celRead 0x8010000 (manShard ((loadReady []).slot (5 : SlotIdx).toNat).manifest 1).len) = List.replicate 16 0 := by decide +kernel
  unfold State.shardGood
  simp only [a, b, wit_Loads_roots.1]
  decide +kernel

/-- The model stands at another place than its shards, in a package of a pair and in one that serves alone. -/
def loadWrong (mb : Member) : State := { loadAt fun m => { m with base := 3, st := .ready } with pair := { pairedPair with member := mb } }

theorem wit_Loads_bad (mb : Member) : (loadWrong mb).shardGood (5 : SlotIdx).toNat 2 = false := by
  have a : ((loadWrong mb).shardPlace (5 : SlotIdx).toNat 2) = some (2, 0xC020000) := by cases mb <;> decide +kernel
  have b : (loadWrong mb).relocShard (5 : SlotIdx).toNat 2 (2 ^ 64 - (loadWrong mb).slotBase (5 : SlotIdx).toNat)
      ((loadWrong mb).celRead 0xC020000 (manShard ((loadWrong mb).slot (5 : SlotIdx).toNat).manifest 2).len) = List.replicate 16 0 := by cases mb <;> decide +kernel
  have c : (loadWrong mb).shardGood (5 : SlotIdx).toNat 2 =
      (!(loadWrong mb).celBad 0xC020000 (manShard ((loadWrong mb).slot (5 : SlotIdx).toNat).manifest 2).len &&
        decide (shardRoot (List.replicate 16 0) = (manShard ((loadWrong mb).slot (5 : SlotIdx).toNat).manifest 2).root)) := by
    unfold State.shardGood
    simp only [a, b]
  rw [c, wit_Loads_roots.1]
  cases mb <;> decide +kernel

/-- With no injection and every line good the re-hash finds what the shard's bytes give. -/
theorem wit_Loads_quiet (mb : Member) : Claims.noInjection (loadWrong mb) ∧
    (loadWrong mb).celBad 0xC020000 (manShard ((loadWrong mb).slot (5 : SlotIdx).toNat).manifest 2).len = false :=
  ⟨quiet_of_words _ (show ∀ e ∈ (pairedUp.wr SWP_CTL.ENABLE 1).regs, e.1 % 0x1000 ≠ 0x05C by decide +kernel), by cases mb <;> decide +kernel⟩

/-- A shard whose re-hash meets a line that is withheld. -/
theorem wit_Loads_withheld : ((loadReady []).sweepWake.hashShard (5 : SlotIdx).toNat 1 [(0, .uncorrectable)]).1 = none := by
  have a : ((loadReady []).sweepWake.shardPlace (5 : SlotIdx).toNat 1) = some (1, 0x8010000) := by decide +kernel
  have b : ((loadReady []).sweepWake.cellarReads 0x8010000 (manShard ((loadReady []).sweepWake.slot (5 : SlotIdx).toNat).manifest 1).len [(0, .uncorrectable)]).1 = false := by
    decide +kernel
  unfold State.hashShard
  simp only [a, b]
  rfl

theorem wit_Loads_recheck : (loadWrong .paired).recheckNext (5, 2) = true ∧ (loadWrong .paired).sweepMay = true ∧ (loadWrong .alone).recheckNext (5, 2) = true ∧
    (loadReady []).recheckNext (5, 1) = true ∧ (loadReady []).sweepMay = true ∧ (loadReady []).recheckNext (6, 0) = false ∧
    (loadAt fun m => { m with st := .ready, recheckFirst := [1] }).recheckNext (5, 1) = true ∧
    (loadAt fun m => { m with st := .ready, recheckFirst := [1] }).recheckNext (5, 2) = false := by decide +kernel

/-- A context whose shard waits to be re-hashed, with a restart due or not, alone or with another. -/
def rehashAt (st : CtxState) (due : Bool) (others : List Rehash := []) : State :=
  { loadReady [] with cores := [(5, { Core.reset with rehash := ⟨1, 5, 1, 77, 5, 6, false⟩ :: others, ctxs := [(1, { running [] with st := st })] })],
                      step := { pairedStep with active := true, restartDue := due } }

theorem wit_Loads : ((loadReady []).slot (5 : SlotIdx).toNat).bad.contains 1 = false ∧
    ((loadReady []).shardPlace (5 : SlotIdx).toNat 1).isSome = true ∧ ((loadReady [1]).slot (5 : SlotIdx).toNat).bad.contains 1 = true ∧
    ((loadReady [1]).shardPlace (5 : SlotIdx).toNat 1 = some (1, 0x8010000)) ∧ (loadReady [1]).pair.member = .paired ∧
    (4 ≤ SMap.get 0 ((loadAt fun m => { m with tried := [(1, 4)] }).slot (5 : SlotIdx).toNat).tried 1 ∧ ¬ 4 ≤ SMap.get 0 ((loadReady [1]).slot (5 : SlotIdx).toNat).tried 1) ∧
    ((rehashAt .halted false).core 5).rehash.find? (fun r => decide (r.ctx = (1 : CtxId).toNat)) = some ⟨1, 5, 1, 77, 5, 6, false⟩ ∧
    (((rehashAt .halted false).core 5).ctx (1 : CtxId)).st ≠ .faulted ∧ (((rehashAt .faulted false).core 5).ctx (1 : CtxId)).st = .faulted ∧
    (rehashAt .halted false).step.restartDue = false ∧ (rehashAt .halted true).step.restartDue = true ∧ SMap.wf Core.reset (rehashAt .halted true).cores = true ∧
    (rehashAt .halted true).step.attempt < 7 ∧ (∀ r ∈ ((rehashAt .halted true).core 5).rehash, r.ctx ≠ (2 : CtxId).toNat) ∧
    (((rehashAt .halted true [⟨2, 5, 1, 77, 5, 6, false⟩]).core 5).rehash.filter fun q => decide (q ≠ ⟨1, 5, 1, 77, 5, 6, false⟩)) ≠ [] ∧
    (((rehashAt .halted true).core 5).rehash.filter fun q => decide (q ≠ ⟨1, 5, 1, 77, 5, 6, false⟩)) = [] := by decide +kernel

theorem wit_Loads_alone (y : Nat) (h : y ≠ 5) : ((rehashAt .halted true).core y).rehash = [] := by
  show (SMap.get Core.reset [(5, _)] y).rehash = []
  rw [SMap.get, if_neg h]; rfl


/-! Heartbeats, takeovers, membership and resets (R418 to R437, R511 to R527). -/

/-- A package in a step, last heard on the link at `hb` and on PAIR_ALIVE at `al`, with 16 pair lanes or 7. -/
def beatAt (m : Member) (slot : Nat) (hb al lanes : Nat) (fire : Fire := .burning) (ms : List PkgId := [0, 2]) : State :=
  { (act fun p => { p with descs := [descOf 1 .listed] }) with
    regs := upState.regs, pcie := upState.pcie, lanes := (List.range lanes).map fun i => (72 + i, { LaneSt.reset with carrying := true }), power := { PowerSt.reset with fire := fire, budget := [(0, 3)] }
    pair := { pairedPair with member := m, slot := slot, lastHb := hb, lastAlive := al, members := ms, pairNums := ms.map fun p => (p, p.toNat % 2) } }
def silencedAt : State :=
  ((((beatAt .paired 0 5000000000 5000000000 16).wr PG_PTB_STS.ACTIVE 1 (Block.pair.page 0)).wr PG_PTB_INJ.KIND 5 (Block.pair.page 0)).wr PG_PTB_STS.LEFT 3 (Block.pair.page 0))

/-- Both heard, one heard, neither, at the last nanosecond and the next; 8 and 7 lanes; both positions; a household of one pair and of two. -/
theorem wit_Heartbeats : (beatAt .paired 0 5000000000 5000000000 8).beats = true ∧ (beatAt .paired 0 5000000000 5000000000 8).resting = false ∧
    8 ≤ (beatAt .paired 0 5000000000 5000000000 8).pairLanes ∧ (beatAt .paired 0 5000000000 5000000000 8).silenced = false ∧
    (beatAt .paired 0 5000000000 5000000000 7).pairLanes < 8 ∧ silencedAt.silenced = true ∧ silencedAt.beats = true ∧ upState.beats = false ∧
    (beatAt .paired 0 0 0 8 .ember).resting = true ∧ (beatAt .paired 0 4999800002 5000000000 8).linkHeard = true ∧ (beatAt .paired 0 4999800001 5000000000 8).linkHeard = false ∧
    (beatAt .paired 0 4999800001 4999800002 8).aliveHeard = true ∧ (beatAt .paired 0 4999800001 4999800001 8).aliveHeard = false ∧
    (beatAt .paired 0 4999800001 4999800002 8).position = 0 ∧ (beatAt .paired 2 4999800001 4999800002 8).position = 1 ∧
    (beatAt .paired 0 4999800001 4999800001 8).pair.claimAt = none ∧ (beatAt .paired 0 1 1 8).pair.member = .paired ∧ (beatAt .rejoining 0 1 1 8).pair.member = .rejoining ∧
    (beatAt .rejoining 0 1 1 8).aliveHeard = false ∧ (beatAt .rejoining 0 1 1 8).linkHeard = false ∧ (beatAt .paired 0 1 1 8 .glow).power.fire = .glow ∧
    (beatAt .paired 0 1 1 8 .ember).power.fire = .ember ∧ (beatAt .paired 0 1 1 8 .ember).aliveHeard = false ∧ (beatAt .paired 0 1 1 8).pairs ≤ 1 ∧
    1 < (beatAt .paired 0 1 1 8 .burning [0, 2, 1, 3]).pairs ∧
    (beatAt .paired 0 1 1 8 .burning [0, 2, 1, 3]).arbiter (beatAt .paired 0 1 1 8 .burning [0, 2, 1, 3]).pairNum = some 1 := by decide +kernel

/-- A package that woke 110 ms ago and one that woke a nanosecond later. -/
def wokenAt (t : Nat) : State := { beatAt .paired 0 1 1 7 with pair := { (beatAt .paired 0 1 1 7).pair with wokeAt := some t } }

theorem wit_Heartbeats_woken : (wokenAt 4890000000).retraining = false ∧ (wokenAt 4890000001).retraining = true ∧ (beatAt .paired 0 1 1 8).retraining = false ∧
    (wokenAt 4890000001).aliveHeard = false ∧ (wokenAt 4890000001).resting = false ∧ (wokenAt 4890000001).pairLanes < 8 ∧
    (beatAt .alone 0 1 1 8).pair.member ≠ .paired ∧ (beatAt .alone 0 1 1 8).pair.member ≠ .rejoining ∧ (beatAt .paired 0 1 1 7 .ember).resting = true := by decide +kernel

/-- An ALONE member that copies to its REJOINING partner, heard on PAIR_ALIVE and not; a REJOINING one that hears PAIR_ALIVE alone. -/
def copyingAlone (hb al : Nat) : State := { beatAt .alone 0 hb al 8 with pair := { (beatAt .alone 0 hb al 8).pair with copying := true } }

theorem wit_Heartbeats_copying : (copyingAlone 1 5000000000).pair.member = .alone ∧ (copyingAlone 1 5000000000).pair.copying = true ∧
    (copyingAlone 1 5000000000).linkHeard = false ∧ (copyingAlone 1 5000000000).aliveHeard = true ∧ (copyingAlone 1 1).aliveHeard = false ∧
    (copyingAlone 5000000000 1).linkHeard = true ∧ (copyingAlone 5000000000 1).retraining = false ∧ (copyingAlone 1 1).resting = false ∧
    (beatAt .alone 0 1 1 8).pair.copying = false ∧ (beatAt .rejoining 0 1 5000000000 8).aliveHeard = true ∧ (beatAt .rejoining 0 1 5000000000 8).linkHeard = false ∧
    (beatAt .alone 0 1 1 7).pairLanes < 8 ∧ (wokenAt 4890000000).pairLanes < 8 := by decide +kernel

theorem takeover_crc : crc32c ([0x10, 1, 0, 1, 0, 2, 0, 0, 6] ++ List.replicate 23 0) = 4267523030#32 := by decide +kernel
theorem abort_crc : crc32c ([0x11, 0, 0x23, 1, 2, 0, 0, 0, 6] ++ List.replicate 23 0) = 3298541968#32 := by decide +kernel

def takeoverAt : Bytes := [0x10, 1, 0, 1, 0, 2, 0, 0, 6] ++ List.replicate 7 0 ++ leBytes 4 4267523030 ++ List.replicate 12 0
def abortAt : Bytes := [0x11, 0, 0x23, 1, 2, 0, 0, 0, 6] ++ List.replicate 7 0 ++ leBytes 4 3298541968 ++ List.replicate 12 0
def pairs2 : State := beatAt .paired 0 5000000000 5000000000 8 .burning [0, 2, 1, 3]
def claimed (t : Nat) : State := { pairs2 with pair := { pairs2.pair with claimAt := some t, grants := [(1, 0)], lastAbort := [1] } }
def abortedAt : State := { beatAt .paired 0 5000000000 5000000000 8 with seated := some 4, barriers := [(3, { Barrier.reset with count := 7 })] }

theorem halt_crc : crc32c ([0x11, 0, 7, 8, 2, 0, 0, 0, 6] ++ List.replicate 23 0) = 2118572972#32 := by decide +kernel
theorem mirror_crc : crc32c ([0x11, 0, 0xC, 4, 2, 0, 0, 0, 6] ++ List.replicate 23 0) = 2605825671#32 := by decide +kernel
/-- The partner's STEP_ABORT of the household's halt, and of a mirror that differs. -/
def haltAt : Bytes := [0x11, 0, 7, 8, 2, 0, 0, 0, 6] ++ List.replicate 7 0 ++ leBytes 4 2118572972 ++ List.replicate 12 0
def mirrorAbort : Bytes := [0x11, 0, 0xC, 4, 2, 0, 0, 0, 6] ++ List.replicate 7 0 ++ leBytes 4 2605825671 ++ List.replicate 12 0

theorem wit_abortOk_codes : (abortOk haltAt = true ∧ fieldAt haltAt 2 2 = Err.HOUSEHOLD_HALT.toNat) ∧ abortOk mirrorAbort = true ∧
    fieldAt mirrorAbort 2 2 = Err.MIRROR_MISMATCH.toNat ∧ BitVec.ofNat 7 (fieldAt mirrorAbort 4 1) = abortedAt.partner ∧
    abortedAt.step.mirrorAt ≠ some (abortedAt.step.id, abortedAt.step.attempt) ∧
    ({ beatAt .paired 2 5000000000 5000000000 8 with step := { abortedAt.step with mirrorFaults := 1 } } : State).mirrorMine = true ∧
    BitVec.ofNat 7 (fieldAt haltAt 4 1) ∈ abortedAt.pair.members ∧ (claimed 0).pair.abortAt + 20000 ≤ (claimed 0).rackTime ∧
    ({ claimed 0 with rackTime := 19999 } : State).rackTime < (claimed 0).pair.abortAt + 20000 ∧
    (beatAt .out 2 1 1 8).on PAIR_MAINT.FORCE = false ∧ ((beatAt .out 2 1 1 8).wr PAIR_MAINT.FORCE 1).on PAIR_MAINT.FORCE = true := by
  have a : haltAt.take 0x10 ++ [0, 0, 0, 0] ++ haltAt.drop 0x14 = [0x11, 0, 7, 8, 2, 0, 0, 0, 6] ++ List.replicate 23 0 := by decide +kernel
  have b : mirrorAbort.take 0x10 ++ [0, 0, 0, 0] ++ mirrorAbort.drop 0x14 = [0x11, 0, 0xC, 4, 2, 0, 0, 0, 6] ++ List.replicate 23 0 := by decide +kernel
  refine ⟨⟨?_, by decide +kernel⟩, ?_, by decide +kernel⟩
  · simp only [abortOk, a, halt_crc]; decide +kernel
  · simp only [abortOk, b, mirror_crc]; decide +kernel

theorem wit_takeoverOk : takeoverOk takeoverAt = true ∧ abortOk abortAt = true := by
  have a : takeoverAt.take 0x10 ++ [0, 0, 0, 0] ++ takeoverAt.drop 0x14 = [0x10, 1, 0, 1, 0, 2, 0, 0, 6] ++ List.replicate 23 0 := by decide +kernel
  have b : abortAt.take 0x10 ++ [0, 0, 0, 0] ++ abortAt.drop 0x14 = [0x11, 0, 0x23, 1, 2, 0, 0, 0, 6] ++ List.replicate 23 0 := by decide +kernel
  simp only [takeoverOk, abortOk, a, b, takeover_crc, abort_crc]
  decide +kernel

/-- A claim with its arbiter, granted and to be denied, 100 µs old and one less; TAKEOVER and STEP_ABORT for the attempt in progress and not; FORCE. -/
theorem wit_ClaimsAndTakeovers : pairs2.arbiter 1 = some pairs2.me ∧ pairs2.arbiter 0 ≠ some pairs2.me ∧ pairs2.pair.member = .paired ∧
    ((1, 0) ∈ (claimed 0).pair.grants ∧ (1, 1) ∉ (claimed 0).pair.grants) ∧ (claimed 4999900000).pair.claimAt = some 4999900000 ∧
    4999900000 + 100000 ≤ (claimed 4999900000).rackTime ∧ (claimed 4999900001).rackTime < 4999900001 + 100000 ∧ upState.beats = false ∧
    takeoverOk [] = false ∧ abortOk [] = false ∧
    (fieldAt takeoverAt 2 1, fieldAt takeoverAt 8 8, fieldAt takeoverAt 3 1) ∉ abortedAt.pair.takeovers ∧ fieldAt takeoverAt 4 1 = abortedAt.me.toNat ∧
    fieldAt takeoverAt 5 1 = abortedAt.partner.toNat ∧ abortedAt.step.attempt < 7 ∧ abortedAt.pair.lost = [] ∧ abortedAt.me ∉ abortedAt.pair.lost ∧
    abortedAt.partner ≠ abortedAt.me ∧ abortedAt.step.active = true ∧ fieldAt abortAt 8 8 = abortedAt.step.id ∧ fieldAt abortAt 1 1 = abortedAt.step.attempt ∧
    BitVec.ofNat 7 (fieldAt abortAt 4 1) ≠ abortedAt.me ∧ fieldAt abortAt 8 8 ≠ ({ abortedAt with step := { abortedAt.step with id := 7 } } : State).step.id ∧
    abortedAt.seated = some abortedAt.step.modelSlot ∧ abortedAt.step.seating = [] ∧ SMap.wf Barrier.reset abortedAt.barriers = true ∧
    (claimed 0).pair.lastAbort ≠ [] ∧ (2 : PkgId) ∈ (claimed 0).others ∧ (0 : PkgId) ∉ (claimed 0).others ∧ pairs2.takes .pf .pair = true ∧ pairs2.takes .pf .mgt = true ∧
    (beatAt .out 2 1 1 8).pairs = 1 ∧ (beatAt .out 2 1 1 8).position = 1 ∧ (beatAt .out 2 1 1 8).pair.member = .out ∧ pairs2.pairs ≠ 1 := by decide +kernel

/-- Every place of a package in a TAKEOVER: the survivor, the lost one, another, and a household that has lost a pair; a hand-over by one that rejoins and one
that serves alone; a restart that waits for a shard to be re-hashed. -/
theorem wit_ClaimsAndTakeovers_places : BitVec.ofNat 7 (fieldAt takeoverAt 4 1) = abortedAt.me ∧ BitVec.ofNat 7 (fieldAt takeoverAt 5 1) = (beatAt .paired 2 1 1 8).me ∧
    BitVec.ofNat 7 (fieldAt takeoverAt 4 1) ≠ (beatAt .paired 2 1 1 8).me ∧ (beatAt .paired 2 1 1 8).pair.member = .paired ∧
    BitVec.ofNat 7 (fieldAt takeoverAt 4 1) ≠ (beatAt .paired 1 1 1 8 .burning [0, 2, 1, 3]).me ∧
    BitVec.ofNat 7 (fieldAt takeoverAt 5 1) ≠ (beatAt .paired 1 1 1 8 .burning [0, 2, 1, 3]).me ∧ (beatAt .paired 1 1 1 8 .burning [0, 2, 1, 3]).pair.member ≠ .out ∧
    (∃ p ∈ pairs2.pair.members, p ∈ ([1, 3] ++ [2] : List PkgId) ∧ p ^^^ 2 ∈ ([1, 3] ++ [2] : List PkgId)) ∧ abortedAt.step.heldList = none ∧
    (beatAt .rejoining 0 1 1 8).pair.member = .rejoining ∧ (beatAt .alone 0 1 1 8).pair.member = .alone ∧
    abortedAt.cores.any (fun k => decide (k.2.rehash ≠ [])) = false ∧
    ({ abortedAt with cores := [(5, { Core.reset with rehash := [⟨1, 5, 1, 77, 5, 6, false⟩] })] } : State).cores.any (fun k => decide (k.2.rehash ≠ [])) = true := by
  decide +kernel

def outAlone : State := let s := beatAt .out 0 5000000000 5000000000 8; { s with pair := { s.pair with lost := [0] } }
def copyOf (cells : List (Nat × Byte)) (shards : List (Nat × Nat × Bytes)) : RejoinCopy :=
  { step := 9, boundary := 4, digest := 77, active := true, items := [item0], modelSlot := 4, table := [(7, seq7), (3, { seq7 with st := .paused })], kv := { KvSt.empty with slots := [] },
    clients := [(5, Client.reset)], cells := cells, slots := [(4, mSlot), (2, Slot.evicted)], shards := shards, attempt := 1, epoch := 6, peerDigest := 77, mirror := some mirrorOf,
    mirrorFault := false, loading := false }
def maskAt : State := upState.wr HAL_FORM_MASK_RACK0_LO.SLOTS 5
def goneAt (t : Nat) : State := { maskAt with rackTime := 9000000000, pair := { maskAt.pair with goAt := some t } }

/-- REJOIN, LEAVE and GO in each state; a copy good and bad; lanes settled and not; a report without a verdict; a second after GO and one nanosecond less. -/
theorem wit_Membership : outAlone.takes .pf .pair = true ∧ outAlone.pair.member = .out ∧ outAlone.partnerAlone = true ∧ outAlone.kept.condemned = false ∧
    outAlone.power.issueCut = false ∧ outAlone.hhAbi = outAlone.pair.hhAbi ∧ ({ outAlone with pair := { outAlone.pair with hhAbi := 3 } } : State).hhAbi ≠ 3 ∧
    (beatAt .out 0 1 1 8).partnerAlone = false ∧ upState.pair.member = .outside ∧ (beatAt .rejoining 0 1 1 8).pair.member = .rejoining ∧
    (beatAt .rejoining 0 1 1 8).pair.copyDone = false ∧ (beatAt .rejoining 0 1 1 8).copyGood (copyOf [(5, 1), (3, 9)] []) = true ∧
    ((copyOf [(5, 1), (3, 9)] []).table.map (·.1)).Nodup ∧ ((copyOf [(5, 1), (3, 9)] []).slots.map (·.1)).Nodup ∧ ((copyOf [(5, 1), (3, 9)] []).cells.map (·.1)).Nodup ∧
    (copyOf [(5, 1), (3, 9)] []).shards = [] ∧ upState.takes .pf .hal = true ∧ maskAt.rd HAL_BOOT_STS.STAGE = 6 ∧ maskAt.on HAL_BOOT_STS.FAIL = false ∧
    maskAt.pair.member = .outside ∧ maskAt.pair.goAt = none ∧ maskAt.pair.forming = [] ∧ State.reset.rd HAL_BOOT_STS.STAGE ≠ 6 ∧
    (maskAt.wr PAIR_PLANn.VALID 1 0 80).on PAIR_PLANn.VALID 0 80 = true ∧ (maskAt.wr PAIR_PLANn.VALID 1 0 80).rd PAIR_PEERn.OUTCOME 0 80 = 0 ∧
    (∀ l ∈ List.range 88, maskAt.on PAIR_PLANn.VALID 0 l = true → maskAt.rd PAIR_PEERn.OUTCOME 0 l ≠ 0) ∧
    (goneAt 8000000000).pair.goAt.isSome = true ∧ (goneAt 8000000000).pair.formReady = false ∧ 8000000000 + 1000000000 ≤ (goneAt 8000000000).rackTime ∧
    (goneAt 8000000001).rackTime < 8000000001 + 1000000000 := by decide +kernel

/-- A report that asks to join a household whose leader hears it, and one that does not; verdicts; a repair that must come first. -/
def reportOf (v : Option Code) (mask : List PkgId) : FormReport := { maskAt.formReport with src := 2, mask := mask, verdict := v }
def servesAlone : State := { beatAt .alone 0 1 1 8 with pair := { pairedPair with member := .alone, lost := [2] } }

theorem wit_Membership_form : servesAlone.joins (reportOf none [0, 2]) = true ∧ servesAlone.joins (reportOf none [0]) = false ∧ servesAlone.leader = servesAlone.me ∧
    servesAlone.pair.member = .alone ∧ (reportOf (some Err.OK) []).verdict = some Err.OK ∧ Err.CFG_MISMATCH ≠ Err.OK ∧ (goneAt 8000000000).pair.member = .outside ∧
    outAlone.mustRepair = false ∧ ({ outAlone with pair := { outAlone.pair with failedCores := [5] } } : State).mustRepair = true ∧ maskAt.kept.condemned = false ∧
    ({ maskAt with kept := { maskAt.kept with condemned := true } } : State).kept.condemned = true := by decide +kernel

/-- A copy of a partner that still loads a slot, and one whose digest is another. -/
theorem wit_Membership_waits : ({ copyOf [] [] with loading := true } : RejoinCopy).loading = true ∧ (beatAt .rejoining 0 1 1 8).copyGood (copyOf [] []) = true ∧
    ({ copyOf [] [] with peerDigest := 5 } : RejoinCopy).digest ≠ 5 ∧ (copyOf [] []).digest = (copyOf [] []).peerDigest := by decide +kernel

theorem wit_Membership_bad : (beatAt .rejoining 0 1 1 8).copyGood (copyOf [] [(5, 0, [1, 2])]) = false := by decide +kernel

def resettingAt : State := { upState with wings := [(3, { WingSt.reset with resetting := true })] }
def bootAt (t : Int) : State := { upState with rackTime := 86400000000005, mgmt := { upState.mgmt with bootAt := t } }

def flashAt (b : Bytes) : State := { State.reset with kept := { State.reset.kept with flashImage := b } }

/-- The conditions of each reset, retirement and the minimum's 24 hours; slots 35 and 36. An image that verifies is a premise: the digest of the
vendor's key is fused, and no value of the model's. -/
theorem wit_Resets (b : Bytes) (h : State.reset.imageOk b = true) : (flashAt b).imageOk (flashAt b).kept.flashImage = true ∧
    State.reset.imageOk State.reset.kept.flashImage = false ∧
    State.reset.rd HAL_BOOT_STS.STAGE = 0 ∧ State.reset.power.fire ≠ .smoored ∧ upState.rd HAL_BOOT_STS.STAGE ≠ 0 ∧ (35 : BitVec 6).toNat ≤ 35 ∧ ¬ (36 : BitVec 6).toNat ≤ 35 ∧
    upState.takes .pf .hal = true ∧ upState.pair.member = .outside ∧ (outAlone.pair.slot ≤ 35 ∧ outAlone.pair.member = .out) ∧ ({ upState with pins := { upState.pins with refclkOk := true } } : State).pins.refclkOk = true ∧ pairs2.pair.member = .paired ∧ pairs2.takes .pf .hal = true ∧
    (resettingAt.wing (3 : Wing).val).resetting = true ∧ (resettingAt.wing (2 : Wing).val).resetting = false ∧ upState.takes .pf .mgt = true ∧ upState.takes .pf .sec = true ∧
    (bootAt 5).mgmt.bootAt + 86400000000000 ≤ ((bootAt 5).rackTime : Int) ∧ ((bootAt 6).rackTime : Int) < (bootAt 6).mgmt.bootAt + 86400000000000 ∧
    State.reset.kept.faulty = none ∧ State.reset.cel.markedRows = [] ∧ upState.kept.faulty = none ∧
    (SMap.get (msixDefault 3) [(3, (0 : Word))] 3).toNat % 2 = 0 ∧ (SMap.get (msixDefault 3) upState.pcie.msix 3).toNat % 2 = 1 ∧ upState.pcie.perst = true ∧ 2 ≤ upState.rd HAL_BOOT_STS.STAGE ∧ ({ upState with pcie := { upState.pcie with perst := false } } : State).pcie.perst = false := by
  exact ⟨h, by decide +kernel⟩


/-- Nothing is found anew at a reset; a wing whose lanes retrain after its reset; a partition of a member. -/
theorem wit_Resets_found : upState.retest = {} ∧ outAlone.retest = {} ∧ (resettingAt.wr FAB_CTL.ENABLE 1 3).on FAB_CTL.ENABLE (3 : Wing).val = true ∧
    (resettingAt.wr FAB_CTL.ENABLE 1 3).mappedOut (18 * (3 : Wing).val) = false ∧ resettingAt.on FAB_CTL.ENABLE (3 : Wing).val = false ∧
    paired.me ∈ paired.pair.members := by decide +kernel

/-! Management, firmware and trust (R480 to R510, R573). -/

def eventOf (tries sent : Nat) : PldmEvent := { sensor := 0x300, value := 2, tries := tries, sentAt := sent }
def eventsAt (es : List PldmEvent) : State :=
  { upState with rackTime := 9000000000, mgmt := { upState.mgmt with events := es, receiver := some (.pcie, 7), grant := some (2, 0) } }

/-- Sensors that are numeric and state; a resend at 250 ms and a nanosecond before, the last and one too many; the test port in Glow and not. -/
theorem wit_SidebandQueries : (0x105 : BitVec 16).toNat ∈ numericSensors ∧ (0x300 : BitVec 16).toNat ∈ stateSensors ∧ (0x300 : BitVec 16).toNat ∉ numericSensors ∧
    (eventsAt [eventOf 1 8750000000]).mgmt.events[0]? = some (eventOf 1 8750000000) ∧ (eventOf 1 8750000000).sentAt + 250000000 ≤ (eventsAt []).rackTime ∧
    (eventsAt []).rackTime < (eventOf 1 8750000001).sentAt + 250000000 ∧ (eventsAt []).mgmt.receiver = some (.pcie, 7) ∧ 0 < (eventOf 3 0).tries ∧ (eventOf 3 0).tries < 4 ∧
    (eventOf 4 0).tries = 4 ∧ (eventsAt []).mgmt.events = [] ∧ (eventsAt []).pair.member = .outside ∧ (eventsAt []).power.fire = .glow ∧
    (∀ b ∈ [Binding.i3c, .pcie], (eventsAt []).hearsOn b = true) ∧ State.reset.hearsOn .pcie = false ∧ Claims.bindingOf (.getTid .pcie) = some .pcie ∧
    pairedUp.pair.member ≠ .outside ∧ (eventsAt []).mgmt.grant = some (2, 0) ∧ (2 : Nat) / 2 % 2 = 1 ∧ pairedUp.mgmt.grant = none := by decide +kernel

def updateAt (f : MgmtSt → MgmtSt) : State :=
  { upState with
    rackTime := 900000000000
    mgmt := f { upState.mgmt with updBinding := some .pcie, updSize := 4096, updTransfer := 4096, updBuf := [], mode := .update, updLast := 780000000000 } }
def recoverAt (t : Option Nat) (m : Member) : State :=
  { (State.reset.wr HAL_BOOT_STS.STAGE 7).wr MGT_RECOVERY.LENGTH 4096 with
    rackTime := 900000000000, pcie := upState.pcie, pair := { State.reset.pair with slot := 3, member := m }, mgmt := { State.reset.mgmt with mode := .recovery, recoveryFrom := t } }

/-- An update asked for, in hand and not; its pieces, the last one good and bad; 120 s and less; recovery before and after 2 s. -/
theorem wit_FirmwareUpdate (b : Bytes) (h : State.reset.imageOk b = true) : (updateAt id).imageOk b = true ∧ (recoverAt none .outside).imageOk b = true ∧
    upState.mgmt.updBinding = none ∧ upState.mgmt.recoveryFrom = none ∧ upState.rd HAL_BOOT_STS.STAGE ≠ 7 ∧ (updateAt id).mgmt.updBinding = some .pcie ∧
    (updateAt id).mgmt.updBinding ≠ some .i3c ∧ (updateAt id).mgmt.updVerified = false ∧ 12 * 2 ^ 20 ≤ 12 * 2 ^ 20 ∧ (updateAt id).mgmt.mode ≠ .applying ∧
    (updateAt fun m => { m with mode := .applying }).mgmt.mode = .applying ∧ (updateAt id).mgmt.cancelWaits = none ∧ (updateAt id).mgmt.updBuf.length < (updateAt id).mgmt.updSize ∧
    ((updateAt id).mgmt.updBuf ++ [1, 2].take (min (updateAt id).mgmt.updTransfer 4096)).length < (updateAt id).mgmt.updSize ∧
    (updateAt fun m => { m with updSize := 4 }).mgmt.updSize ≤ ((updateAt id).mgmt.updBuf ++ [3, 3, 3, 3].take (min (updateAt id).mgmt.updTransfer 4)).length ∧
    (updateAt id).imageOk [3, 3, 3, 3] = false ∧
    (updateAt id).mgmt.updLast + 120000000000 ≤ (updateAt id).rackTime ∧ (updateAt id).rackTime < (updateAt fun m => { m with updLast := 780000000001 }).mgmt.updLast + 120000000000 ∧
    (updateAt fun m => { m with pendingAct := true }).mgmt.pendingAct = true ∧ pairs2.pair.member = .paired ∧ outAlone.pair.member = .out ∧ outAlone.pair.slot ≤ 35 ∧
    (recoverAt none .outside).rd HAL_BOOT_STS.STAGE = 7 ∧ (updateAt fun m => { m with image := [1] }).mgmt.image ≠ [] ∧
    (recoverAt (some 898000000000) .outside).mgmt.recoveryFrom = some 898000000000 ∧ 898000000000 + 2000000000 ≤ (recoverAt none .outside).rackTime ∧
    (recoverAt none .outside).rackTime < 898000000001 + 2000000000 ∧ (recoverAt none .outside).takes .pf .mgt = true ∧
    (∀ b ∈ [Binding.i3c, .pcie], (updateAt id).hearsOn b = true) ∧ (updateAt id).mgmt.updBinding.isSome = true ∧ (recoverAt none .outside).mgmt.mode ≠ .applying ∧
    (recoverAt none .outside).rd MGT_RECOVERY.LENGTH = 4096 ∧ (recoverAt none .outside).pair.slot ≤ 35 ∧ outAlone.kept.faulty = none ∧ (recoverAt none .outside).kept.faulty = none :=
  ⟨h, h, by decide +kernel⟩

/-- The last piece of a good image of one page makes it whole, and so does the host's length in recovery. -/
theorem wit_FirmwareUpdate_piece (b : Bytes) (h : b.length = 4096) : (updateAt id).mgmt.updBuf ++ b.take (min (updateAt id).mgmt.updTransfer 4096) = b ∧
    b.take ((recoverAt none .outside).rd MGT_RECOVERY.LENGTH) = b := by
  have a : min (updateAt id).mgmt.updTransfer 4096 = 4096 := by decide
  have c : (recoverAt none .outside).rd MGT_RECOVERY.LENGTH = 4096 := by decide +kernel
  have d : (updateAt id).mgmt.updBuf = [] := rfl
  rw [a, c, d, List.take_of_length_le (by omega)]
  exact ⟨rfl, rfl⟩

/-- The host has written `b` to the update buffer. -/
def windowAt (b : Bytes) : State :=
  let s := recoverAt none .outside
  { s with mgmt := { s.mgmt with window := (List.range 1024).map fun m => (m, BitVec.ofNat 32 (fieldAt b (4 * m) 4)) } }

theorem window_get (d : Word) (v : Nat → Word) (m : Nat) : ∀ l : List Nat, m ∈ l → SMap.get d (l.map fun m => (m, v m)) m = v m
  | [], h => by simp at h
  | x :: l, h => by
    by_cases e : m = x
    · simp [SMap.get, e]
    · have := window_get d v m l (by simpa [e] using h)
      simp only [List.map_cons, SMap.get, this]
      rw [if_neg e]

/-- A record under the key of the manifest's signature (R500). -/
def ownerRec (ty ix : Nat) (nonce : Bytes) (seq : Nat) (sig : Nat) : Bytes :=
  pad 16 (leBytes 4 0x52454353 ++ [BitVec.ofNat 8 ty, BitVec.ofNat 8 ix]) ++ pad 16 nonce ++ pad 32 (leBytes 8 0 ++ leBytes 4 seq) ++ beBytes 512 (beNat loadKey) ++
    beBytes 512 (if ty = 1 then beNat loadKey else 0) ++ beBytes 512 sig
def debugNonce : Bytes := (List.range 16).map (BitVec.ofNat 8)
def ownerR : Bytes :=
  ownerRec 1 0 [] 0 0x2c90f2f429eaea977ecae94806ee82bc5ba2e137758869ca2b3cc3cc058df4731b529ce517ec5d3356329fb203cc5f9bc4a18cc36ac3f0a47d2d081554b1f468767aec9d0d855b80a4334d4f9276b81be72fafaa8696c386ff97f5809b28c966444c5ac9465eaa10b86f470ee39887a3dd638f254f4f56970c8f4e37e1610dfef3e6
def keyR : Bytes :=
  ownerRec 2 3 [] 6 0xa6e6014ae7e8b58d3c9133cc8666a1f6164bbeec39bdb7f872ffd92b13162e9381324586e009bf55b1471de2942bc1d349cf3c208b9b7ca715d44999775fbf482b396606a945126d3de4af21a8a00923ac92b4c28215d9d54239122cb92d672bc41bc5b50cba8645d8c36b59c956a2986cd4efc7d3540d3340a2eb65766ff2abae05
def debugR : Bytes :=
  ownerRec 3 2 debugNonce 0 0xd09d5ebafcbb6dbb9534c9a9e28fa4b770b0cbeac5626ce56c322fa0bfcf93956c5d2a2e516f1989cd315f276641545e84c93e382bb5231429de1947c0b3dc5e0e7941efb3a32a019129e3779f349ed4f416641a8eb7eb7b52e8f75a3d644c71c6beb4abdfc326bf7b0c9377f06aee78c8817471f4c1c6a3cac2ec5b9f24867826fb
/-- The record stands in MGT_REC_WIN. -/
def recordAt (r : Bytes) (own : Option Bytes) (nonce : Option Bytes) (busy : Word := 0) : State :=
  { upState with
    regs := (4352, 0xC0000000) :: (MGT_REC_CTL.BUSY.addr 0 0, busy) :: (List.range 400).map fun m => (0x2400 + 4 * m, BitVec.ofNat 32 (fieldAt r (4 * m) 4))
    kept := { upState.kept with ownerDigest := own }, mgmt := { upState.mgmt with nonce := nonce } }

theorem recordAt_get (d : Word) (v : Nat → Word) (m : Nat) : ∀ l : List Nat, m ∈ l → SMap.get d (l.map fun m => (0x2400 + 4 * m, v m)) (0x2400 + 4 * m) = v m
  | [], h => by simp at h
  | x :: l, h => by
    by_cases e : m = x
    · simp [SMap.get, e]
    · have := recordAt_get d v m l (by simpa [e] using h)
      simp only [List.map_cons, SMap.get, this]
      rw [if_neg (by omega)]

theorem recordAt_word (r : Bytes) (own nonce : Option Bytes) (busy : Word) (m : Nat) (h : m < 400) :
    (recordAt r own nonce busy).rd MGT_REC_WIN.WORD 0 m = fieldAt r (4 * m) 4 % 2 ^ 32 := by
  have a : MGT_REC_WIN.WORD.addr 0 m = 0x2400 + 4 * m := by simp [Fld.addr, MGT_REC_WIN.WORD]
  have b : 0x2400 + 4 * m ≠ 4352 := by omega
  have c : 0x2400 + 4 * m ≠ MGT_REC_CTL.BUSY.addr 0 0 := by simp [Fld.addr, MGT_REC_CTL.BUSY]; omega
  unfold State.rd State.regWord
  simp only [recordAt, a, SMap.get, if_neg b, if_neg c]
  rw [recordAt_get _ _ m _ (List.mem_range.2 h)]
  simp [bitsN, MGT_REC_WIN.WORD]

theorem leBytes_four (a b c d : Byte) : leBytes 4 (leNat [a, b, c, d] % 2 ^ 32) = [a, b, c, d] := by
  have := a.isLt; have := b.isLt; have := c.isLt; have := d.isLt
  simp only [leBytes, leNat, List.cons.injEq, and_true]
  refine ⟨?_, ?_, ?_, ?_⟩ <;> (apply BitVec.eq_of_toNat_eq; simp only [BitVec.toNat_ofNat]; omega)

theorem words_of (n : Nat) : ∀ r : Bytes, r.length = 4 * n → (List.range n).flatMap (fun m => leBytes 4 (fieldAt r (4 * m) 4 % 2 ^ 32)) = r := by
  induction n with
  | zero => intro r h; simpa using (List.length_eq_zero_iff.1 h).symm
  | succ n ih =>
    intro r h
    match r, h with
    | a :: b :: c :: d :: r, h =>
      rw [List.range_succ_eq_map, List.flatMap_cons, List.flatMap_map]
      have e : ∀ m, fieldAt (a :: b :: c :: d :: r) (4 * (m + 1)) 4 = fieldAt r (4 * m) 4 := by
        intro m; simp only [fieldAt, Nat.mul_add, Nat.mul_one]; rfl
      have z : fieldAt (a :: b :: c :: d :: r) (4 * 0) 4 = leNat [a, b, c, d] := rfl
      simp only [Nat.succ_eq_add_one, e, z, leBytes_four]
      rw [ih r (by simp only [List.length_cons] at h; omega)]
      rfl

/-- The words of `b` read back from the window as `b`. -/
theorem window_bytes (n : Nat) (b : Bytes) (h : b.length = 4 * n) (s : State) (e : s.mgmt.window = (List.range n).map fun m => (m, BitVec.ofNat 32 (fieldAt b (4 * m) 4))) :
    s.windowImage (4 * n) = b := by
  unfold State.windowImage
  have c : ceilDiv (4 * n) 4 = n := by unfold ceilDiv; omega
  rw [c, e, List.flatMap, List.map_congr_left fun m x => by rw [window_get _ (fun m => BitVec.ofNat 32 (fieldAt b (4 * m) 4)) m _ x, BitVec.toNat_ofNat]]
  show List.take _ ((List.range n).flatMap fun m => leBytes 4 (fieldAt b (4 * m) 4 % 2 ^ 32)) = b
  rw [words_of n b h, List.take_of_length_le (Nat.le_of_eq h)]

theorem recover_with (w : SMap Word) :
    let s : State := { recoverAt none .outside with mgmt := { (recoverAt none .outside).mgmt with window := w } }
    s.rd MGT_RECOVERY.LENGTH = 4096 ∧ s.rd HAL_BOOT_STS.STAGE = 7 ∧ s.mgmt.recoveryFrom = none ∧ s.mgmt.mode ≠ .applying ∧ s.takes .pf .mgt = true ∧ s.retest = {} := by
  show (recoverAt none .outside).rd MGT_RECOVERY.LENGTH = 4096 ∧ (recoverAt none .outside).rd HAL_BOOT_STS.STAGE = 7 ∧ (recoverAt none .outside).mgmt.recoveryFrom = none ∧
    (recoverAt none .outside).mgmt.mode ≠ .applying ∧ (recoverAt none .outside).takes .pf .mgt = true ∧ (recoverAt none .outside).retest = {}
  decide +kernel

/-- What the host has written is what recovery takes (R490). -/
theorem wit_FirmwareUpdate_window (b : Bytes) (h : b.length = 4096) : (windowAt b).windowImage 4096 = b ∧
    (windowAt b).rd MGT_RECOVERY.LENGTH = 4096 ∧ (windowAt b).rd HAL_BOOT_STS.STAGE = 7 ∧ (windowAt b).mgmt.recoveryFrom = none ∧
    (windowAt b).mgmt.mode ≠ .applying ∧ (windowAt b).takes .pf .mgt = true ∧ (windowAt b).retest = {} := by
  exact ⟨window_bytes 1024 b h _ (by simp only [windowAt]), recover_with _⟩

theorem recordAt_win (r : Bytes) (own nonce : Option Bytes) (busy : Word) (h : r.length = 1600) : (recordAt r own nonce busy).recordWin = r := by
  have e : (recordAt r own nonce busy).recordWin = (List.range 400).flatMap fun m => leBytes 4 (fieldAt r (4 * m) 4 % 2 ^ 32) := by
    unfold State.recordWin List.flatMap
    rw [List.map_congr_left fun m x => by rw [recordAt_word r own nonce busy m (List.mem_range.1 x)]]
  rw [e, words_of 400 r h]

theorem ownerR_signature : sigOk (recOwnerKey ownerR) (ownerR.take 0x440) ((ownerR.drop 0x440).take 512) = true := by decide +kernel
theorem keyR_signature : sigOk (recOwnerKey keyR) (keyR.take 0x440) ((keyR.drop 0x440).take 512) = true := by decide +kernel
theorem debugR_signature : sigOk (recOwnerKey debugR) (debugR.take 0x440) ((debugR.drop 0x440).take 512) = true := by decide +kernel

theorem wit_Trust_fields : (ownerR.length = 1600 ∧ recFormat ownerR = true ∧ fieldAt ownerR 4 1 = 1 ∧ fieldAt ownerR 8 8 = 0) ∧
    (keyR.length = 1600 ∧ recFormat keyR = true ∧ fieldAt keyR 4 1 = 2 ∧ fieldAt keyR 8 8 = 0 ∧ fieldAt keyR 0x28 4 = 6) ∧
    debugR.length = 1600 ∧ recFormat debugR = true ∧ fieldAt debugR 4 1 = 3 ∧ fieldAt debugR 8 8 = 0 ∧ fieldAt debugR 0x20 8 = 0 ∧
    (debugR.drop 0x10).take 16 = debugNonce ∧ fieldAt debugR 5 1 / 4 % 2 = 0 := by decide +kernel

/-- A record of each type that is accepted. -/
theorem wit_Trust_accepted : (recordAt ownerR none none).recordResult ownerR = 0 ∧
    (recordAt keyR (some (sha512 (recOwnerKey keyR))) none).recordResult keyR = 0 ∧
    (recordAt debugR (some (sha512 (recOwnerKey debugR))) (some debugNonce)).recordResult debugR = 0 := by
  obtain ⟨⟨-, a1, a2, a3⟩, ⟨-, b1, b2, b3, b4⟩, -, c1, c2, c3, c4, c5, -⟩ := wit_Trust_fields
  have serial : ∀ r o n w, (recordAt r o n w).kept.serial.toNat = 0 := by intro r o n w; show upState.kept.serial.toNat = 0; decide +kernel
  have seqs : ∀ r o n w i, SMap.get 0 (recordAt r o n w).kept.mkeySeq i = 0 := by intro r o n w i; rfl
  have owner : ∀ r o n w, (recordAt r o n w).kept.ownerDigest = o := by intro r o n w; rfl
  have nonce : ∀ r o n w, (recordAt r o n w).mgmt.nonce = n := by intro r o n w; rfl
  refine ⟨?_, ?_, ?_⟩
  · simp [State.recordResult, a1, a2, a3, ownerR_signature, serial, owner]
  · simp [State.recordResult, b1, b2, b3, b4, keyR_signature, serial, seqs, owner]
  · simp [State.recordResult, c1, c2, c3, c4, c5, debugR_signature, serial, owner, nonce]

theorem wit_Trust_refused : ∀ ty ∈ [1, 2, 3], fieldAt (ownerRec ty 9 [] 0 0) 4 1 = ty ∧ (ownerRec ty 9 [] 0 0).length = 1600 ∧ recFormat (ownerRec ty 9 [] 0 0) = false := by
  decide +kernel

def spdmIn (n : Nat) (g : Option (Nat × Nat)) : State :=
  { upState with rackTime := 9000000000, mgmt := { upState.mgmt with spdm := [(0, n), (1, n)], grant := g, record := some 5 } }

/-- SPDM at each place of its order; measurements at 6, 7 and 0xFF; a grant without an end, at its end and a nanosecond before. -/
theorem wit_Trust : (spdmIn 0 none).spdmAt .i3c < 3 ∧ 1 ≤ (spdmIn 1 none).spdmAt .pcie ∧ 2 ≤ (spdmIn 2 none).spdmAt .i3c ∧ 3 ≤ (spdmIn 3 none).spdmAt .pcie ∧
    ((6 : Byte).toNat ≤ 6 ∧ ¬ ((7 : Byte).toNat ≤ 6 ∨ (7 : Byte) = 255)) ∧ ([1] : Bytes) ≠ [] ∧ upState.takes .pf .mgt = true ∧ upState.takes .pf .sec = true ∧
    (recordAt ownerR none none).on MGT_REC_CTL.BUSY = false ∧ (recordAt ownerR none none 0xFFFFFFFF).on MGT_REC_CTL.BUSY = true ∧
    (recordAt keyR none none).pair.members = [] ∧ (recordAt keyR none none).kept.mkeysDue = [] ∧ (recordAt debugR none none).pair.member = .outside ∧
    (recordAt keyR none none).takes .pf .mgt = true ∧ (recordAt keyR none none 0xFFFFFFFF).takes .pf .mgt = true ∧ pairedUp.pair.members ≠ [] ∧ pairedUp.pair.member = .paired ∧
    (spdmIn 0 none).mgmt.record = some 5 ∧ upState.mgmt.record = none ∧ (spdmIn 0 (some (3, 9000000000))).mgmt.grant = some (3, 9000000000) ∧
    (∀ b ∈ [Binding.i3c, .pcie], (spdmIn 3 none).hearsOn b = true) ∧ 9000000000 ≤ (spdmIn 0 none).rackTime ∧ (spdmIn 0 none).rackTime < 9000000001 ∧ (spdmIn 0 none).mgmt.grant = none := by decide +kernel


/-! Ill-formed commands, one for each check. -/

theorem ill_record : (Instr.query 0 (List.replicate 127 0)).wellFormed = false ∧ (Instr.query 0 (List.replicate 128 0)).wellFormed = true := by decide +kernel
theorem ill_packet : (Instr.storePacket { pktOf 1 0 8 0 1 5 with payload := [1] }).wellFormed = false ∧
    (Instr.loadPacket { pktOf 0 0 8 0 1 5 with payload := [1] } []).wellFormed = false ∧ (Instr.loadPacket { pktOf 0 0 8 0 1 5 with payload := [] } []).wellFormed = true := by decide +kernel
theorem ill_chimney : (Instr.takeover []).wellFormed = false ∧ (Instr.stepAbort (List.replicate 33 0)).wellFormed = false ∧ (Instr.takeover (List.replicate 32 0)).wellFormed = true := by decide +kernel
theorem ill_irqWrite : (Instr.pgIrqWrite .pf 0x7010 0).wellFormed = false ∧ (Instr.pgIrqWrite .pf 0x7014 0).wellFormed = true := by decide +kernel

/-! The spec's worked examples. -/

/-- The example under R361. -/
theorem ex_cellar_hash : ((celHash 0x10300).1, (celHash 0x10300).2.1, (celHash 0x10300).2.2.1) = (6, 21, 7) := by decide
/-- The example under R398. -/
theorem ex_fabric_address : srfAddr (64 + 17) 0 (1234 * 2 ^ 20 + 0x4C40) = 0x028800004D204C40 ∧ srfCore 0x028800004D204C40 = 1234 ∧ srfByte 0x028800004D204C40 = 0x4C40 := by decide
/-- The MMA4 word of the projection example. -/
theorem ex_mma4_word : fCLASS 0x401014C02003D817 = 4 ∧ fOP 0x401014C02003D817 = 1 ∧ fRA 0x401014C02003D817 = 5 ∧ fRB 0x401014C02003D817 = 6 ∧
    immBits 0x401014C02003D817 7 0 = 0x17 := by decide
/-- A SHA-512 that the standard gives. -/
theorem ex_sha512 : (sha512 [0x61, 0x62, 0x63]).take 8 = [0xDD, 0xAF, 0x35, 0xA1, 0x93, 0x61, 0x7A, 0xBA] := by decide +kernel
/-- The check value that CRC-32C is published with. -/
theorem ex_crc32c : crc32c [0x31, 0x32, 0x33, 0x34, 0x35, 0x36, 0x37, 0x38, 0x39] = 0xE3069283 := by decide +kernel
/-- The example of pace-locked mode. -/
theorem ex_held_point : heldOp 1500 = 9 := by decide
/-- The example of a cap of 1,800 W, at the millisecond decision. -/
theorem ex_cap_ceiling : capCeiling 1800 1 1800 920 1880 920 10 = 3 := by decide +kernel
/-- The example of the wear ledger: 2.828 and twice as much with 0.05 V more. -/
theorem ex_wear : stressMs 900 640 * 1000 / 2 ^ 32 = 2828 ∧ stressMs 950 640 * 1000 / 2 ^ 32 = 5656 := by decide +kernel

def exBlock : List EncVal :=
  [(false, 3, -2), (true, 3, -1), (false, 3, 0), (false, 13421773, -26), (false, 6, 0), (true, 5, -1), (false, 40, 0), (false, 0, 0), (false, 1, 0), (true, 1, -1),
    (false, 2, 0), (false, 9, -1), (true, 3, 0), (false, 1, -3), (false, 5, -2), (true, 6, 0)].map fun x => .num (.fin x.1 x.2.1 x.2.2)
/-- The example of the block encoder, with room in the sidecar and without. -/
theorem ex_encoder : (encBlock 0 2 8 exBlock).codes = [2, 0xB, 5, 0, 7, 0xC, 0, 0, 2, 9, 4, 6, 0xD, 0, 2, 0xF] ∧ (encBlock 0 2 8 exBlock).scale = 0x7F ∧
    (encBlock 0 2 8 exBlock).side = [(6, 0x4220)] ∧ (encBlock 0 2 0 exBlock).scale = 0x82 ∧ (encBlock 0 2 0 exBlock).codes.getD 6 0 = 6 ∧
    (encBlock 0 2 0 exBlock).ovf = 1 ∧ ((encBlock 0 2 0 exBlock).codes.filter fun c => decide (c = 0)).length = 9 := by decide +kernel
/-- The example of a block header. -/
theorem ex_block_header : (blockBytes 1 5 0x2A 0 0x107 3 0x9C3E51D2 (List.replicate 3120 0)).take 16 = leBytes 8 0x01070C30002A0501 ++ leBytes 8 0x9C3E51D200000003 ∧
    storedSize 3120 = 3136 := by decide +kernel
/-- The example of a refused write of SEQ_KV_SIZE. -/
theorem ex_conflict : (upState.conflict (Block.seq.page 0 * 0x1000 + 0x804) Err.KV_LIVE).readWord .pf .seq 0 (Block.seq.page 0) 0x060 = 0x88040D01 := by decide +kernel
/-- The example of the directory and of core 1,234's page. -/
theorem ex_directory : upState.readWord .pf .dir 0 0 0x188 = 0x03001000 ∧ upState.readWord .pf .dir 0 0 0x18C = 0x00001000 ∧ Block.core.page 1234 = 5330 ∧
    upState.readWord .pf .core 1234 5330 0 = 0x0304D201 ∧ upState.readWord .pf .core 1234 5330 8 = 0x80000003 := by decide +kernel
/-- The example of a batch of three entries. -/
theorem ex_batch_slots : batchSlots 3 = 8 := by decide

/-! The machine as a whole. -/

theorem reset_memOk : State.reset.memOk = true := by decide +kernel
/-- Where the premises of CelHashOneToOne hold. -/
theorem wit_CelHashOneToOne : 0x10300 < 8583 * 2 ^ 26 ∧ (celHash 0x10300).1 = (celHash 0x10300).1 ∧ 0x10300 % 256 = 0x10300 % 256 := by decide
/-- A state that meets the premises of StepKeepsMemories, with its step. -/
theorem wit_StepKeepsMemories : State.reset.memOk = true ∧ step State.reset = .next { State.reset with rackTime := 10 } := ⟨reset_memOk, by rfl⟩
theorem wit_StepRunsFront : State.reset.pending = [] ∧ State.reset.kind.settling = [] ∧ State.reset.fab.transits = [] ∧ State.reset.fab.chimney = [] ∧
    State.reset.fab.seen = State.reset.out.length := ⟨rfl, rfl, rfl, rfl, rfl⟩
theorem wit_EveryCommandCompletes : ({ State.reset with kept := { State.reset.kept with ownerDigest := some [1] } } : State).kept.ownerDigest = some [1] := rfl


end Sys2Proof.Tests
end

section
/-!
PROOFS. Fields of a register word, and what messages to the host and error records change.
-/
namespace Sys2Proof.Machine

/-! Fields of a register word. -/

/-- A write leaves every other key, read with whatever default. -/
theorem SMap.get_set_other {α : Type} [DecidableEq α] (d e : α) (m : SMap α) {i j : Nat} (x : α) (h : j ≠ i) :
    SMap.get e (SMap.set d m i x) j = SMap.get e m j := by
  unfold SMap.set
  split
  · rw [SMap.get_drop, if_neg h]
  · rw [SMap.get_ins, if_neg h, SMap.get_drop, if_neg h]
    exact fun e he => of_decide_eq_true (List.mem_filter.mp he).2

/-- A field after it is replaced holds the new value's low bits. -/
theorem bitsN_setBitsN (w hi lo x : Nat) : bitsN (setBitsN w hi lo x) hi lo = x % 2 ^ (hi - lo + 1) := by
  unfold setBitsN bitsN
  rw [Nat.add_mul_div_right _ _ (Nat.two_pow_pos lo), Nat.mul_comm (w / 2 ^ lo % _), Nat.sub_mul_div, ← Nat.mod_add_div (w / 2 ^ lo) (2 ^ (hi - lo + 1)),
    Nat.add_mul_mod_self_left, Nat.mod_mod, Nat.add_sub_cancel_left, Nat.mul_add_mod, Nat.mod_mod]

/-- A word of 32 bits keeps every field that lies in them. -/
theorem bitsN_mod_word (v : Nat) {hi lo : Nat} (h : lo ≤ hi) (hw : hi < 32) : bitsN (v % 2 ^ 32) hi lo = bitsN v hi lo := by
  have hs : 2 ^ 32 = 2 ^ lo * 2 ^ (32 - lo) := by rw [← Nat.pow_add]; congr 1; omega
  unfold bitsN
  rw [hs, Nat.mod_mul_right_div_self, Nat.mod_mod_of_dvd _ (Nat.pow_dvd_pow 2 (by omega))]

/-- A field reads back what was written, cut to its width. -/
theorem State.rd_wr_same (s : State) (f : Fld) (v i j : Nat) (h : f.lo ≤ f.hi) (hw : f.hi < 32) : (s.wr f v i j).rd f i j = v % 2 ^ f.width := by
  unfold State.rd State.regWord State.wr
  rw [SMap.get_set_same, BitVec.toNat_ofNat, bitsN_mod_word _ h hw, bitsN_setBitsN]
  rfl

/-- A write leaves the fields of every other word. -/
theorem State.rd_wr_ne (s : State) {f g : Fld} (v : Nat) {i j k l : Nat} (h : g.addr k l ≠ f.addr i j) : (s.wr f v i j).rd g k l = s.rd g k l := by
  unfold State.rd State.regWord State.wr
  rw [SMap.get_set_other _ _ _ _ h]

/-- A count goes up by what is added and stops at its largest value. -/
theorem State.rd_bump_same (s : State) (f : Fld) (n i j : Nat) (h : f.lo ≤ f.hi) (hw : f.hi < 32) :
    (s.bump f n i j).rd f i j = min (s.rd f i j + n) (2 ^ f.width - 1) := by
  have : 0 < 2 ^ f.width := Nat.two_pow_pos _
  rw [State.bump, State.rd_wr_same _ _ _ _ _ h hw, Nat.mod_eq_of_lt (by omega)]

theorem State.rd_bump_ne (s : State) {f g : Fld} (n : Nat) {i j k l : Nat} (h : g.addr k l ≠ f.addr i j) :
    (s.bump f n i j).rd g k l = s.rd g k l := s.rd_wr_ne _ h

theorem State.rd_wr64_ne (s : State) {f g : Fld} (v : Nat) {i j k l : Nat} (h : g.addr k l ≠ f.addr i j) (hn : g.addr k l ≠ f.next.addr i j) :
    (s.wr64 f v i j).rd g k l = s.rd g k l := by rw [State.wr64, State.rd_wr_ne _ _ hn, State.rd_wr_ne _ _ h]

/-- A field is read from the register words alone. -/
theorem State.rd_congr {s t : State} (h : t.regs = s.regs) (f : Fld) (i j : Nat) : t.rd f i j = s.rd f i j := by
  unfold State.rd State.regWord
  rw [h]

/-! Messages to the host and error records: what they change. -/

/-- The PCIe state and messages added to what has been sent are all that differs. -/
def SendsOnly (s t : State) : Prop := t = { s with pcie := t.pcie, out := t.out } ∧ s.out <+: t.out

/-- Registers, management and PCIe state, what is held for flash, and messages added to what has been sent are all that differs. -/
def ReportsOnly (s t : State) : Prop :=
  t = { s with regs := t.regs, mgmt := t.mgmt, kept := t.kept, pcie := t.pcie, out := t.out } ∧ s.out <+: t.out

theorem SendsOnly.refl (s : State) : SendsOnly s s := ⟨rfl, List.prefix_rfl⟩

theorem SendsOnly.trans {s t u : State} (h : SendsOnly s t) (k : SendsOnly t u) : SendsOnly s u :=
  ⟨k.1.trans (by rw [h.1]), h.2.trans k.2⟩

theorem SendsOnly.regs {s t : State} (h : SendsOnly s t) : t.regs = s.regs := by rw [h.1]
theorem SendsOnly.mgmt {s t : State} (h : SendsOnly s t) : t.mgmt = s.mgmt := by rw [h.1]
theorem SendsOnly.kept {s t : State} (h : SendsOnly s t) : t.kept = s.kept := by rw [h.1]

theorem SendsOnly.rd {s t : State} (h : SendsOnly s t) (f : Fld) (i j : Nat) : t.rd f i j = s.rd f i j := State.rd_congr h.regs f i j

theorem SendsOnly.reportsOnly {s t : State} (h : SendsOnly s t) : ReportsOnly s t :=
  ⟨h.1.trans (by rw [h.regs, h.mgmt, h.kept]), h.2⟩

theorem ReportsOnly.refl (s : State) : ReportsOnly s s := (SendsOnly.refl s).reportsOnly

theorem ReportsOnly.trans {s t u : State} (h : ReportsOnly s t) (k : ReportsOnly t u) : ReportsOnly s u :=
  ⟨k.1.trans (by rw [h.1]), h.2.trans k.2⟩

theorem ReportsOnly.ite {s t u : State} (c : Prop) [Decidable c] (h : ReportsOnly s t) (k : ReportsOnly s u) : ReportsOnly s (if c then t else u) :=
  iteInduction (fun _ => h) fun _ => k

theorem State.rd_ite {s t u : State} {g : Fld} {k l : Nat} (c : Prop) [Decidable c] (h : t.rd g k l = s.rd g k l) (h' : u.rd g k l = s.rd g k l) :
    (if c then t else u).rd g k l = s.rd g k l := iteInduction (motive := fun t : State => t.rd g k l = s.rd g k l) (fun _ => h) fun _ => h'

theorem State.mgmt_ite {t u : State} {m : MgmtSt} (c : Prop) [Decidable c] (h : t.mgmt = m) (h' : u.mgmt = m) : (if c then t else u).mgmt = m :=
  iteInduction (motive := fun t : State => t.mgmt = m) (fun _ => h) fun _ => h'

theorem State.linkActive_sendsOnly (s : State) : SendsOnly s s.linkActive := by
  unfold State.linkActive
  split
  · exact .refl s
  · exact ⟨rfl, List.prefix_rfl⟩

theorem State.emit_sendsOnly (s : State) (o : Out) : SendsOnly s (s.emit o) := ⟨rfl, List.prefix_append ..⟩

theorem State.sendMsix_sendsOnly (s : State) (fn v : Nat) : SendsOnly s (s.sendMsix fn v) := by
  unfold State.sendMsix
  dsimp only
  split
  · split
    · exact .refl s
    · exact ⟨rfl, List.prefix_rfl⟩
  · exact s.linkActive_sendsOnly.trans (State.emit_sendsOnly ..)

/-- A vector raised in several functions, in each on a condition. -/
theorem State.foldl_sendMsix_sendsOnly (s : State) (l : List Nat) (c : Nat → Bool) (v : Nat) :
    SendsOnly s (l.foldl (fun s n => if c n then s.sendMsix (n + 1) v else s) s) := by
  induction l generalizing s with
  | nil => exact .refl s
  | cons n l ih =>
    rw [List.foldl_cons]
    refine SendsOnly.trans ?_ (ih _)
    split
    · exact s.sendMsix_sendsOnly _ _
    · exact .refl s

theorem State.wr_reportsOnly (s : State) (f : Fld) (v i j : Nat) : ReportsOnly s (s.wr f v i j) := ⟨rfl, List.prefix_rfl⟩
theorem State.bump_reportsOnly (s : State) (f : Fld) (n i j : Nat) : ReportsOnly s (s.bump f n i j) := ⟨rfl, List.prefix_rfl⟩
theorem State.wr64_reportsOnly (s : State) (f : Fld) (v i j : Nat) : ReportsOnly s (s.wr64 f v i j) := ⟨rfl, List.prefix_rfl⟩
theorem State.updMgmt_reportsOnly (s : State) (f : MgmtSt → MgmtSt) : ReportsOnly s (s.updMgmt f) := ⟨rfl, List.prefix_rfl⟩
theorem State.updKept_reportsOnly (s : State) (f : Kept → Kept) : ReportsOnly s (s.updKept f) := ⟨rfl, List.prefix_rfl⟩

theorem State.raiseIrq_reportsOnly (s : State) (b : Block) (i n : Nat) : ReportsOnly s (s.raiseIrq b i n) := by
  unfold State.raiseIrq
  extract_lets page was u
  have hu : ReportsOnly s u := s.wr_reportsOnly ..
  exact .ite _ (hu.trans (u.sendMsix_sendsOnly ..).reportsOnly) hu

/-- An interrupt source changes its own PG_IRQ_STS alone among the registers. -/
theorem State.rd_raiseIrq_ne (s : State) (b : Block) (i n : Nat) {g : Fld} {k l : Nat} (h : g.addr k l ≠ PG_IRQ_STS.SOURCES.addr (b.page i) 0) :
    (s.raiseIrq b i n).rd g k l = s.rd g k l := by
  unfold State.raiseIrq
  extract_lets page was u
  have hu : u.rd g k l = s.rd g k l := s.rd_wr_ne _ h
  split
  · rw [(u.sendMsix_sendsOnly ..).rd, hu]
  · exact hu

theorem State.raiseIrq_mgmt (s : State) (b : Block) (i n : Nat) : (s.raiseIrq b i n).mgmt = s.mgmt := by
  unfold State.raiseIrq
  extract_lets page was u
  split
  · exact (u.sendMsix_sendsOnly ..).mgmt
  · rfl

theorem State.writeErr_reportsOnly (s : State) (page : Nat) (r : ErrRec) : ReportsOnly s (s.writeErr page r) := by
  unfold State.writeErr
  extract_lets log a b c d e f
  have ha : ReportsOnly s a := .ite _ (s.bump_reportsOnly ..) (.refl s)
  have hb : ReportsOnly a b := a.updMgmt_reportsOnly _
  have hc : ReportsOnly b c := .ite _ (b.updKept_reportsOnly _) (.refl b)
  have hd : ReportsOnly c d := .ite _ (c.wr64_reportsOnly ..) (.refl c)
  have he : ReportsOnly d e := .ite _ (d.raiseIrq_reportsOnly ..) (.refl d)
  have hf : SendsOnly e f := e.sendMsix_sendsOnly ..
  exact ((((ha.trans hb).trans hc).trans hd).trans he).trans (hf.trans (f.foldl_sendMsix_sendsOnly ..)).reportsOnly

/-- A record takes the next number and the end of the log, which keeps its last 65,536 records (R529, R530). -/
theorem State.writeErr_mgmt (s : State) (page : Nat) (r : ErrRec) :
    (s.writeErr page r).mgmt =
      { s.mgmt with log := (s.mgmt.log ++ [r]).drop ((s.mgmt.log ++ [r]).length - 65536), nextSeq := s.mgmt.nextSeq + 1 } := by
  unfold State.writeErr
  extract_lets log a b c d e f
  have ha : a.mgmt = s.mgmt := State.mgmt_ite _ rfl rfl
  clear_value a
  have hb : b.mgmt = { a.mgmt with log := log.drop (log.length - 65536), nextSeq := a.mgmt.nextSeq + 1 } := a.updMgmt_mgmt _
  clear_value b
  have hc : c.mgmt = b.mgmt := State.mgmt_ite _ rfl rfl
  clear_value c
  have hd : d.mgmt = c.mgmt := State.mgmt_ite _ rfl rfl
  clear_value d
  have he : e.mgmt = d.mgmt := State.mgmt_ite _ (d.raiseIrq_mgmt ..) rfl
  have hf : SendsOnly e f := e.sendMsix_sendsOnly ..
  rw [(hf.trans (f.foldl_sendMsix_sendsOnly ..)).mgmt, he, hd, hc, hb, ha]

/-- Writing a record leaves every register but MGT_LOG_STS, the page's PG_ERR_FIRST and PG_IRQ_STS of the MGT page. -/
theorem State.rd_writeErr_ne (s : State) (page : Nat) (r : ErrRec) {g : Fld} {k l : Nat} (hlost : g.addr k l ≠ MGT_LOG_STS.LOST.addr 0 0)
    (hlo : g.addr k l ≠ PG_ERR_FIRST_LO.SEQ.addr page 0) (hhi : g.addr k l ≠ PG_ERR_FIRST_LO.SEQ.next.addr page 0)
    (hirq : g.addr k l ≠ PG_IRQ_STS.SOURCES.addr (Block.mgt.page 0) 0) : (s.writeErr page r).rd g k l = s.rd g k l := by
  unfold State.writeErr
  extract_lets log a b c d e f
  have ha : a.rd g k l = s.rd g k l := State.rd_ite _ (s.rd_bump_ne _ hlost) rfl
  clear_value a
  have hb : b.rd g k l = a.rd g k l := State.rd_congr (a.updMgmt_regs _) g k l
  clear_value b
  have hc : c.rd g k l = b.rd g k l := State.rd_ite _ (State.rd_congr (b.updKept_regs _) g k l) rfl
  clear_value c
  have hd : d.rd g k l = c.rd g k l := State.rd_ite _ (c.rd_wr64_ne _ hlo hhi) rfl
  clear_value d
  have he : e.rd g k l = d.rd g k l := State.rd_ite _ (d.rd_raiseIrq_ne _ _ _ hirq) rfl
  have hf : SendsOnly e f := e.sendMsix_sendsOnly ..
  rw [(hf.trans (f.foldl_sendMsix_sendsOnly ..)).rd, he, hd, hc, hb, ha]

theorem State.logErr_reportsOnly (s : State) (r : ErrRec) (scope : Nat) : ReportsOnly s (s.logErr r scope) := by
  unfold State.logErr
  extract_lets page a b c
  have ha : ReportsOnly s a := s.bump_reportsOnly ..
  have hb : ReportsOnly a b := .ite _ (a.bump_reportsOnly ..) (.refl a)
  have hc : ReportsOnly b c := .ite _ (b.updMgmt_reportsOnly _) (.refl b)
  have hs : ReportsOnly s b := ha.trans hb
  split
  · exact .refl s
  · split
    · exact hs
    · split
      · exact hs
      · exact hs.trans (hc.trans (c.writeErr_reportsOnly ..))

/-- REG_ACCESS counts in the HAL page, and its record is written unless R530 holds it back (R12, R552, R556). -/
theorem State.logRegAccess_eq (s : State) (off : Nat) :
    s.logRegAccess off =
      let u := s.bump PG_ERR_CNT.COUNT 1 (Block.hal.page 0)
      let r := s.mkErr Err.REG_ACCESS sevInfo nodeHall off
      if u.suppressed r then u else u.writeErr (Block.hal.page 0) r := by
  have hcls : Err.cls Err.REG_ACCESS = 0x0E := by decide
  have honce : onceCode Err.REG_ACCESS = false := by decide
  have hpage : errPage nodeHall Err.REG_ACCESS none = Block.hal.page 0 := by decide
  simp [State.logRegAccess, State.logErr, State.mkErr, hcls, honce, hpage]

end Sys2Proof.Machine
end

section
/-!
PROOFS (O35). Reads of registers, and accesses that no page takes (R5, R12, R13, R272, R475, R490, R514, R549, R556, R557, R559).
-/
namespace Sys2Proof.Machine

/-! REG_ACCESS (R12, R530, R552, R556). -/

/-- Nothing holds a record back when every one of its code and node lies more than 1 ms back (R530). -/
theorem State.suppressed_eq_false {s : State} {r : ErrRec}
    (h : ∀ o ∈ s.mgmt.log, o.code = r.code → o.node = r.node → o.time + 1000000 < r.time) : s.suppressed r = false := by
  have hany : (s.mgmt.log.any fun o =>
      decide (o.code = r.code) && decide (o.node = r.node) && decide (o.time ≤ r.time) && decide (r.time ≤ o.time + 1000000)) = false := by
    rw [List.any_eq_false]
    intro o ho
    simp only [Bool.and_eq_true, decide_eq_true_eq]
    rintro ⟨⟨⟨hcode, hnode⟩, -⟩, htime⟩
    exact absurd (h o ho hcode hnode) (by omega)
  rw [State.suppressed, hany, Bool.and_false]

theorem State.getLast_writeErr_log (s : State) (page : Nat) (r : ErrRec) : (s.writeErr page r).mgmt.log.getLast? = some r := by
  rw [State.writeErr_mgmt, List.getLast?_drop, if_neg, List.getLast?_concat]
  simp only [List.length_append, List.length_singleton]
  omega

theorem State.rd_errCnt_logRegAccess (s : State) (off : Nat) :
    (s.logRegAccess off).rd PG_ERR_CNT.COUNT (Block.hal.page 0) = min (s.rd PG_ERR_CNT.COUNT (Block.hal.page 0) + 1) 0xFFFFFF := by
  have hcount := s.rd_bump_same PG_ERR_CNT.COUNT 1 (Block.hal.page 0) 0 (by decide) (by decide)
  rw [State.logRegAccess_eq]
  dsimp only
  split
  · exact hcount
  · exact (State.rd_writeErr_ne _ _ _ (by decide) (by decide) (by decide) (by decide)).trans hcount

theorem State.logRegAccess_reportsOnly (s : State) (off : Nat) : ReportsOnly s (s.logRegAccess off) := s.logErr_reportsOnly _ _

theorem State.logRegAccess_accessLogged (s : State) (off : Nat) : Claims.accessLogged s (s.logRegAccess off) off := by
  obtain ⟨hframe, -⟩ := s.logRegAccess_reportsOnly off
  refine ⟨s.rd_errCnt_logRegAccess off, by rw [hframe], by rw [hframe], by rw [hframe], by rw [hframe], fun hold => ?_⟩
  have hfree : (s.bump PG_ERR_CNT.COUNT 1 (Block.hal.page 0)).suppressed (s.mkErr Err.REG_ACCESS sevInfo nodeHall off) = false :=
    State.suppressed_eq_false hold
  refine ⟨s.mkErr Err.REG_ACCESS sevInfo nodeHall off, ?_, rfl, rfl, rfl, rfl⟩
  rw [State.logRegAccess_eq]
  dsimp only
  rw [if_neg (by rw [hfree]; exact Bool.false_ne_true), State.getLast_writeErr_log]

/-- Messages before and after a report change none of what the claim speaks of. -/
theorem accessLogged_of_sendsOnly {s u t v : State} {off : Nat} (h : SendsOnly s u) (k : SendsOnly t v) (hl : Claims.accessLogged u t off) :
    Claims.accessLogged s v off := by
  unfold Claims.accessLogged at hl ⊢
  rw [h.rd, h.1] at hl
  rw [k.rd, k.1]
  exact hl

/-! Accesses of a requester. -/

/-- A TLP changes the PCIe link's state at most (R475). -/
theorem touched_eq (s : State) (q : Requester) : ∃ p, Claims.touched s q = { s with pcie := p } := by
  unfold Claims.touched State.linkActive
  split
  · exact ⟨_, rfl⟩
  · split
    · exact ⟨_, rfl⟩
    · exact ⟨_, rfl⟩

theorem touched_out (s : State) (q : Requester) : (Claims.touched s q).out = s.out := by
  obtain ⟨p, hp⟩ := touched_eq s q
  rw [hp]

theorem touched_sendsOnly (s : State) (q : Requester) : SendsOnly s (Claims.touched s q) := by
  obtain ⟨p, hp⟩ := touched_eq s q
  rw [hp]
  exact ⟨rfl, List.prefix_rfl⟩

theorem touched_msixWord (s : State) (q : Requester) (fn : Nat) (pba : Bool) (o : Nat) :
    (Claims.touched s q).msixWord fn pba o = s.msixWord fn pba o := by
  unfold Claims.touched State.linkActive
  split
  · rfl
  · split <;> rfl

theorem SendsOnly.latch {s t : State} (h : SendsOnly s t) : t.latch = s.latch := by rw [h.1]

theorem SendsOnly.inRecovery {s t : State} (h : SendsOnly s t) : t.inRecovery = s.inRecovery := by
  rw [State.inRecovery, State.inRecovery, h.rd]

theorem SendsOnly.serves {s t : State} (h : SendsOnly s t) (b : Block) : t.serves b = s.serves b := by
  have hfire : t.power = s.power := by rw [h.1]
  unfold State.serves
  rw [h.rd, h.mgmt, hfire]

theorem State.missed_reportsOnly (s : State) (q : Requester) (off : Nat) : ReportsOnly s (s.missed q off) :=
  .ite _ (s.logRegAccess_reportsOnly off) (.refl s)

theorem State.arrives_of_hears {s : State} {q : Requester} (f : State → State) (h : s.hears q = true) :
    s.arrives q f = .next (f (Claims.touched s q)) := by
  rw [State.arrives, if_pos h]
  rfl

theorem State.arrives_of_not_hears {s : State} {q : Requester} (f : State → State) (h : s.hears q = false) : s.arrives q f = .next s := by
  rw [State.arrives, h]
  rfl

theorem ReportsOnly.emit_out {s t : State} (h : ReportsOnly s t) (o : Out) : ∃ l, (t.emit o).out = s.out ++ l ++ [o] := by
  obtain ⟨l, hl⟩ := h.2
  exact ⟨l, by rw [State.emit_out, hl]⟩

/-! Words at reserved offsets (R5, R549, R553). -/

theorem not_holds_of_regAt_none {b : Block} {o : Nat} (h : regAt b o = none) :
    ∀ r ∈ (if o < 0x100 then headerRegs else b.regs), r.holds o = false := by
  have hfind : (if o < 0x100 then headerRegs else b.regs).find? (fun r => r.holds o) = none := by
    rw [← h, regAt]
    split <;> rfl
  simpa only [List.find?_eq_none, Bool.not_eq_true] using hfind

/-- A reserved header offset reads zero. -/
theorem State.headerWord_reserved (s : State) {b : Block} {o : Nat} (i page w : Nat) (h : regAt b o = none) (ho : o < 0x100) :
    (s.headerWord b i page o w).getD 0 = 0 := by
  have hr := not_holds_of_regAt_none h
  rw [if_pos ho] at hr
  simp [headerRegs, RegDesc.holds] at hr
  simp [State.headerWord, hr]
  split <;> rfl

/-- No machine state shows where a page has no register: the page's registers name every offset that shows some, but for the directory's entries. -/
theorem State.liveWord_reserved (s : State) (q : Requester) {b : Block} {o : Nat} (i w : Nat) (h : regAt b o = none) (ho : 0x100 ≤ o)
    (h4 : o % 4 = 0) (hb : b = .dir → o < 0x108) : s.liveWord q b i o w = none := by
  have hr := not_holds_of_regAt_none h
  rw [if_neg (by omega)] at hr
  cases b with
  | dir =>
    have h108 := hb rfl
    simp [Block.regs, dirRegs, RegDesc.holds] at hr
    omega
  | hal | thm => rfl
  | pwr | swp | pair | cel | por | lar | fab | core =>
    simp [Block.regs, pwrRegs, swpRegs, pairRegs, celRegs, porRegs, larRegs, fabRegs, coreRegs, RegDesc.holds] at hr
    simp [State.liveWord, hr]
  | mgt | mdl | cmp =>
    simp [Block.regs, mgtRegs, mdlRegs, cmpRegs, RegDesc.holds] at hr
    simp [State.liveWord, hr]
    omega
  | sec | seq | wng =>
    simp [Block.regs, secRegs, seqRegs, wngRegs, RegDesc.holds] at hr
    simp [State.liveWord, hr]
    repeat rw [if_neg (by omega)]

theorem State.readWord_reserved (s : State) (q : Requester) {b : Block} {o : Nat} (i page : Nat) (h : regAt b o = none) (h4 : o % 4 = 0)
    (hb : b = .dir → o < 0x108) : s.readWord q b i page o = 0 := by
  unfold State.readWord
  simp only [h]
  split
  · next hlt => exact s.headerWord_reserved i page 0 h hlt
  · rw [s.liveWord_reserved q i 0 h (by omega) h4 hb]
    rfl

/-- PG_ID as the directory says (R549, R553). -/
theorem State.readWord_zero (s : State) (q : Requester) (b : Block) (i page : Nat) :
    s.readWord q b i page 0 = b.code * 2 ^ 24 + i * 2 ^ 8 + 1 := rfl

/-! Reads (R12, R13, R556, R559). -/

/-- Every page begins with PG_ID, a word of its own (R549). -/
theorem regAt_zero (b : Block) : ∃ r, regAt b 0 = some r ∧ r.pairing = .single := ⟨_, rfl, rfl⟩

/-- A word that is not one of a pair is read as it is in effect, and nothing changes. -/
theorem State.readReg_plain (s : State) (q : Requester) {b : Block} {o : Nat} (i page : Nat) (h : ∀ r, regAt b o = some r → r.pairing = .single) :
    s.readReg q b i page o = (s.readWord q b i page o, s) := by
  unfold State.readReg
  cases hr : regAt b o with
  | none => rfl
  | some r => simp only [Option.map_some, h r hr]

theorem State.readReg_low (s : State) (q : Requester) {b : Block} {o : Nat} (i page : Nat) {r : RegDesc} (h : regAt b o = some r)
    (hp : r.pairing = .low) :
    s.readReg q b i page o = (s.readWord q b i page o, { s with
      latch := SMap.set none s.latch (latchKey q (page * 0x1000 + o)) (some (BitVec.ofNat 32 (s.readWord q b i page (o + 4)))) }) := by
  unfold State.readReg
  simp only [h, Option.map_some, hp]

theorem State.readReg_high_latched (s : State) (q : Requester) {b : Block} {o : Nat} (i page : Nat) {r : RegDesc} {x : Word}
    (h : regAt b o = some r) (hp : r.pairing = .high) (hx : SMap.get none s.latch (latchKey q (page * 0x1000 + o - 4)) = some x) :
    s.readReg q b i page o = (x.toNat, s) := by
  unfold State.readReg
  simp only [h, Option.map_some, hp, hx]

theorem State.readReg_high_unlatched (s : State) (q : Requester) {b : Block} {o : Nat} (i page : Nat) {r : RegDesc}
    (h : regAt b o = some r) (hp : r.pairing = .high) (hx : SMap.get none s.latch (latchKey q (page * 0x1000 + o - 4)) = none) :
    s.readReg q b i page o = (if b = .sec ∧ o = 0x108 then s.readWord q b i page o else r.reset, s) := by
  unfold State.readReg State.highReset
  simp only [h, Option.map_some, hp, hx]

theorem State.readBar_served (s : State) {q : Requester} {off : Nat} {b : Block} {i g : Nat} (hm : msixPage q off = none) (h4 : off % 4 = 0)
    (hg : reqPage q off = some g) (hb : pageBlock g = some (b, i)) (hs : s.serves b = true) :
    s.readBar q off = s.readReg q b i g (off % 0x1000) := by
  simp only [State.readBar, hm, h4, hg, Option.bind_some, hb, Option.map_some, hs, ne_eq, not_true_eq_false, if_false, if_true]

theorem State.readBar_unserved (s : State) {q : Requester} {off : Nat} {b : Block} (hm : msixPage q off = none) (h4 : off % 4 = 0)
    (hb : ((reqPage q off).bind pageBlock).map (·.1) = some b) (hs : s.serves b = false) : s.readBar q off = (0xFFFFFFFF, s.missed q off) := by
  obtain ⟨⟨c, i⟩, hp, rfl⟩ := Option.map_eq_some_iff.mp hb
  obtain ⟨g, hg, hgb⟩ := Option.bind_eq_some_iff.mp hp
  simp only [State.readBar, hm, h4, hg, Option.bind_some, hgb, Option.map_some, hs, ne_eq, not_true_eq_false, if_false, Bool.false_eq_true]

theorem State.readBar_msix (s : State) {q : Requester} {off fn : Nat} {pba : Bool} (hm : msixPage q off = some (fn, pba)) :
    s.readBar q off = if s.inRecovery then (0xFFFFFFFF, s.missed q off) else (s.msixWord fn pba (off % 0x1000), s) := by
  simp only [State.readBar, hm]

theorem exec_lowWordRead (q : Requester) (off : BarOff) (s : State) : exec (.lowWordRead q off) s = execLowWordRead q off s := rfl

theorem exec_regMisalignedAccess (q : Requester) (off : BarOff) (w : Bool) (s : State) :
    exec (.regMisalignedAccess q off w) s = execRegMisalignedAccess q off w s := rfl

theorem exec_unassignedPageAccess (q : Requester) (off : BarOff) (w : Bool) (s : State) :
    exec (.unassignedPageAccess q off w) s = execUnassignedPageAccess q off w s := rfl

/-- A read answers the word that `readBar` gives, in the state that it leaves. -/
theorem does_lowWordRead {s t : State} {q : Requester} {off : BarOff} {v : Nat} {P : State → Prop} (hh : s.hears q = true)
    (hr : (Claims.touched s q).readBar q off.toNat = (v, t)) (hP : P (t.emit (.readData q (BitVec.ofNat 32 v)))) :
    Does (.lowWordRead q off) s P := by
  refine ⟨_, (exec_lowWordRead ..).trans (State.arrives_of_hears _ hh), ?_⟩
  rw [hr]
  exact hP

/-- A read of a page that the requester reaches answers what the register reads as. -/
theorem does_lowWordRead_reg {s t : State} {q : Requester} {off : BarOff} {b : Block} {i g v : Nat} {P : State → Prop}
    (h : Claims.reaches s q off b i g) (hr : (Claims.touched s q).readReg q b i g (off.toNat % 0x1000) = (v, t))
    (hP : P (t.emit (.readData q (BitVec.ofNat 32 v)))) : Does (.lowWordRead q off) s P := by
  obtain ⟨hh, hm, h4, hg, hb, hs⟩ := h
  have hserves : (Claims.touched s q).serves b = true := by rw [(touched_sendsOnly s q).serves, hs]
  exact does_lowWordRead hh ((State.readBar_served _ hm h4 hg hb hserves).trans hr) hP

/-- An access of a page that is not served reads all ones, and work goes on (R474, R475, R490, R514). -/
theorem work_kept_of_missed (s : State) (q : Requester) (off : Nat) (o : Out) :
    let t := ((Claims.touched s q).missed q off).emit o
    t.cores = s.cores ∧ t.table = s.table ∧ ∃ l, t.out = s.out ++ l ++ [o] := by
  have h : ReportsOnly s ((Claims.touched s q).missed q off) := (touched_sendsOnly s q).reportsOnly.trans (State.missed_reportsOnly ..)
  refine ⟨?_, ?_, h.emit_out o⟩
  · rw [State.emit_cores, h.1]
  · rw [State.emit_table, h.1]

/-- A command that logs REG_ACCESS when its access arrives, and answers all ones to a read, meets the claim of a refused access. -/
theorem refusedAccess_of_exec {k : Bool → Instr} {q : Requester} {off : BarOff} {s : State}
    (h : ∀ w, exec (k w) s = .next (let t := (Claims.touched s q).logRegAccess off.toNat; if w then t else t.emit (.readData q 0xFFFFFFFF))) :
    Claims.refusedAccess k q off s := by
  have hu := touched_sendsOnly s q
  have hlog := (Claims.touched s q).logRegAccess_accessLogged off.toNat
  have hrep := hu.reportsOnly.trans ((Claims.touched s q).logRegAccess_reportsOnly off.toNat)
  exact ⟨⟨_, h true, accessLogged_of_sendsOnly hu (.refl _) hlog⟩,
    ⟨_, h false, accessLogged_of_sendsOnly hu (State.emit_sendsOnly ..) hlog, hrep.emit_out _⟩⟩

/-! The clauses of O35. -/

section
variable {q : Requester} {off : BarOff} {b : Block} {i g : Nat} {s : State} (h : Claims.reaches s q off b i g)
include h

theorem does_read_reserved (hr : regAt b (off.toNat % 0x1000) = none) :
    Does (.lowWordRead q off) s fun t => t = (Claims.touched s q).emit (.readData q
      (if b = .dir ∧ 0x108 ≤ off.toNat % 0x1000 then BitVec.ofNat 32 ((Claims.touched s q).readWord q b i g (off.toNat % 0x1000)) else 0)) := by
  refine does_lowWordRead_reg h (State.readReg_plain _ q i g fun r hr' => by simp [hr] at hr') ?_
  split
  · rfl
  · rename_i hdir
    obtain ⟨-, -, haligned, -⟩ := h
    have h4 : off.toNat % 0x1000 % 4 = 0 := by omega
    rw [State.readWord_reserved _ q i g hr h4 fun hb => by simpa [hb] using hdir]
    rfl

theorem does_read_pageId (ho : off.toNat % 0x1000 = 0) :
    Does (.lowWordRead q off) s fun t =>
      t = (Claims.touched s q).emit (.readData q (BitVec.ofNat 32 (b.code * 2 ^ 24 + i * 2 ^ 8 + 1))) := by
  refine does_lowWordRead_reg h (State.readReg_plain _ q i g fun r hr => ?_) ?_
  · obtain ⟨r', hr', hp⟩ := regAt_zero b
    rw [ho, hr', Option.some_inj] at hr
    rw [← hr, hp]
  · rw [ho, State.readWord_zero]

variable {r : RegDesc} (hr : regAt b (off.toNat % 0x1000) = some r)
include hr

theorem does_read_single (hp : r.pairing = .single) :
    Does (.lowWordRead q off) s fun t =>
      t = (Claims.touched s q).emit (.readData q (BitVec.ofNat 32 ((Claims.touched s q).readWord q b i g (off.toNat % 0x1000)))) := by
  refine does_lowWordRead_reg h (State.readReg_plain _ q i g fun r' hr' => ?_) rfl
  rw [hr, Option.some_inj] at hr'
  rw [← hr', hp]

theorem does_read_low (hp : r.pairing = .low) :
    Does (.lowWordRead q off) s fun t =>
      t = { Claims.touched s q with
        latch := t.latch
        out := s.out ++ [.readData q (BitVec.ofNat 32 ((Claims.touched s q).readWord q b i g (off.toNat % 0x1000)))] } ∧
      ∀ k, SMap.get none t.latch k = if k = latchKey q (g * 0x1000 + off.toNat % 0x1000) then
        some (BitVec.ofNat 32 ((Claims.touched s q).readWord q b i g (off.toNat % 0x1000 + 4))) else SMap.get none s.latch k := by
  refine does_lowWordRead_reg h (State.readReg_low _ q i g hr hp) ⟨?_, fun k => ?_⟩
  · rw [← touched_out s q]
    rfl
  · rw [State.emit_latch, SMap.get_set, (touched_sendsOnly s q).latch]

theorem does_read_high_latched (hp : r.pairing = .high) {x : Word}
    (hx : SMap.get none s.latch (latchKey q (g * 0x1000 + off.toNat % 0x1000 - 4)) = some x) :
    Does (.lowWordRead q off) s fun t => t = (Claims.touched s q).emit (.readData q x) := by
  rw [← (touched_sendsOnly s q).latch] at hx
  refine does_lowWordRead_reg h (State.readReg_high_latched _ q i g hr hp hx) ?_
  rw [BitVec.ofNat_toNat, BitVec.setWidth_eq]

theorem does_read_high_unlatched (hp : r.pairing = .high)
    (hx : SMap.get none s.latch (latchKey q (g * 0x1000 + off.toNat % 0x1000 - 4)) = none) :
    Does (.lowWordRead q off) s fun t => t = (Claims.touched s q).emit (.readData q
      (if b = .sec ∧ off.toNat % 0x1000 = 0x108 then BitVec.ofNat 32 ((Claims.touched s q).readWord q b i g (off.toNat % 0x1000))
        else BitVec.ofNat 32 r.reset)) := by
  rw [← (touched_sendsOnly s q).latch] at hx
  refine does_lowWordRead_reg h (State.readReg_high_unlatched _ q i g hr hp hx) ?_
  rw [apply_ite (BitVec.ofNat 32)]

end

section
variable {q : Requester} {off : BarOff} {s : State} (hh : s.hears q = true)
include hh

section
variable {fn : Nat} {pba : Bool} (hm : msixPage q off.toNat = some (fn, pba))
include hm

theorem does_read_msix (hrec : s.inRecovery = false) :
    Does (.lowWordRead q off) s fun t =>
      t = (Claims.touched s q).emit (.readData q (BitVec.ofNat 32 (s.msixWord fn pba (off.toNat % 0x1000)))) := by
  rw [← (touched_sendsOnly s q).inRecovery] at hrec
  refine does_lowWordRead hh ((State.readBar_msix _ hm).trans (if_neg (by rw [hrec]; exact Bool.false_ne_true))) ?_
  rw [touched_msixWord]

theorem does_read_msix_recovery (hrec : s.inRecovery = true) :
    Does (.lowWordRead q off) s fun t => t.cores = s.cores ∧ t.table = s.table ∧ ∃ l, t.out = s.out ++ l ++ [.readData q 0xFFFFFFFF] := by
  rw [← (touched_sendsOnly s q).inRecovery] at hrec
  exact does_lowWordRead hh ((State.readBar_msix _ hm).trans (if_pos hrec)) (work_kept_of_missed s q off.toNat _)

/-- An access of an MSI-X page that is not a naturally aligned 32-bit one (R557). -/
theorem exec_misaligned_msix (w : Bool) :
    exec (.regMisalignedAccess q off w) s = .next
      (let u := Claims.touched s q
      if s.inRecovery then if w then u.missed q off.toNat else (u.missed q off.toNat).emit (.readData q 0xFFFFFFFF)
      else if w then u else u.draw.2.emit (.readData q (u.draw.1.setWidth 32))) := by
  rw [exec_regMisalignedAccess, execRegMisalignedAccess, State.arrives_of_hears _ hh]
  simp only [hm, (touched_sendsOnly s q).inRecovery]

theorem does_misaligned_msix_write (hrec : s.inRecovery = false) : Does (.regMisalignedAccess q off true) s fun t => t = Claims.touched s q := by
  refine ⟨_, exec_misaligned_msix hh hm true, ?_⟩
  simp only [hrec, Bool.false_eq_true, if_false, if_true]

theorem does_misaligned_msix_read (hrec : s.inRecovery = false) :
    Does (.regMisalignedAccess q off false) s fun t =>
      ∃ v, t = { Claims.touched s q with freeCtr := t.freeCtr, out := s.out ++ [.readData q v] } := by
  refine ⟨_, exec_misaligned_msix hh hm false, (Claims.touched s q).draw.1.setWidth 32, ?_⟩
  simp only [hrec, Bool.false_eq_true, if_false]
  rw [← touched_out s q]
  rfl

theorem does_misaligned_msix_recovery (hrec : s.inRecovery = true) :
    Does (.regMisalignedAccess q off false) s fun t =>
      t.cores = s.cores ∧ t.table = s.table ∧ ∃ l, t.out = s.out ++ l ++ [.readData q 0xFFFFFFFF] := by
  refine ⟨_, exec_misaligned_msix hh hm false, ?_⟩
  simp only [hrec, if_true, Bool.false_eq_true, if_false]
  exact work_kept_of_missed s q off.toNat _

end

section
variable (hm : msixPage q off.toNat = none)
include hm

theorem refusedAccess_misaligned : Claims.refusedAccess (Instr.regMisalignedAccess q off) q off s := by
  refine refusedAccess_of_exec fun w => ?_
  rw [exec_regMisalignedAccess, execRegMisalignedAccess, State.arrives_of_hears _ hh]
  simp only [hm]

theorem refusedAccess_unassigned (hp : (reqPage q off.toNat).bind pageBlock = none) :
    Claims.refusedAccess (Instr.unassignedPageAccess q off) q off s := by
  refine refusedAccess_of_exec fun w => ?_
  rw [exec_unassignedPageAccess, execUnassignedPageAccess, State.arrives_of_hears _ hh]
  simp only [hm, hp, Option.isSome_none, Bool.false_eq_true, or_self, if_false]

theorem does_read_unserved {b : Block} (h4 : off.toNat % 4 = 0) (hb : ((reqPage q off.toNat).bind pageBlock).map (·.1) = some b)
    (hs : s.serves b = false) :
    Does (.lowWordRead q off) s fun t => t.cores = s.cores ∧ t.table = s.table ∧ ∃ l, t.out = s.out ++ l ++ [.readData q 0xFFFFFFFF] := by
  rw [← (touched_sendsOnly s q).serves] at hs
  exact does_lowWordRead hh (State.readBar_unserved _ hm h4 hb hs) (work_kept_of_missed s q off.toNat _)

end
end

/-- No access of a function arrives over a link that carries no traffic (R272). -/
theorem does_nothing_of_not_hears {q : Requester} {s : State} (hh : s.hears q = false) (off : BarOff) :
    ∀ k ∈ [Instr.lowWordRead q off, .regMisalignedAccess q off true, .regMisalignedAccess q off false, .unassignedPageAccess q off true,
      .unassignedPageAccess q off false], Does k s fun t => t = s := by
  have hread : exec (.lowWordRead q off) s = .next s := (exec_lowWordRead ..).trans (State.arrives_of_not_hears _ hh)
  have hmis (w : Bool) : exec (.regMisalignedAccess q off w) s = .next s := (exec_regMisalignedAccess ..).trans (State.arrives_of_not_hears _ hh)
  have hun (w : Bool) : exec (.unassignedPageAccess q off w) s = .next s :=
    (exec_unassignedPageAccess ..).trans (State.arrives_of_not_hears _ hh)
  simp only [List.forall_mem_cons, List.not_mem_nil, false_imp_iff, implies_true, and_true]
  exact ⟨⟨s, hread, rfl⟩, ⟨s, hmis true, rfl⟩, ⟨s, hmis false, rfl⟩, ⟨s, hun true, rfl⟩, ⟨s, hun false, rfl⟩⟩

/-- Settles O35, clause by clause: a served page by what `readReg` does with the register at the offset, a refused access by what `logRegAccess` records, and
an access that does not arrive by `arrives`. -/
theorem registerReads : Obligations.RegisterReads := by
  unfold Obligations.RegisterReads
  refine ⟨fun q off b i g s h => ?_, fun q off s => ⟨fun hh => ⟨fun fn pba hm => ?_, fun hm => ?_⟩, fun hh => does_nothing_of_not_hears hh off⟩⟩
  · refine ⟨does_read_reserved h, does_read_pageId h, fun r hr => ⟨does_read_single h hr, does_read_low h hr, fun hp => ?_⟩⟩
    exact ⟨fun x => does_read_high_latched h hr hp, does_read_high_unlatched h hr hp⟩
  · refine ⟨fun hrec => ⟨does_read_msix hh hm hrec, does_misaligned_msix_write hh hm hrec, does_misaligned_msix_read hh hm hrec⟩, fun hrec => ?_⟩
    simp only [List.forall_mem_cons, List.not_mem_nil, false_imp_iff, implies_true, and_true]
    exact ⟨does_read_msix_recovery hh hm hrec, does_misaligned_msix_recovery hh hm hrec⟩
  · exact ⟨refusedAccess_misaligned hh hm, refusedAccess_unassigned hh hm, fun b => does_read_unserved hh hm⟩

end Sys2Proof.Machine
end

section
/-!
PROOFS. What the instructions of a core share: issue, finishing, a context fault, reads of local store, fences and the sending of a packet (R67, R73, R80,
R102, R106, R110, R126, R533, R561).
-/
namespace Sys2Proof.Machine

/-! Issue. -/

/-- A core has eight contexts (R67). -/
theorem Core.running_lt {k : Core} {x : Nat} (h : k.running = some x) : x < 8 :=
  List.mem_range.mp (List.mem_of_find?_eq_some h)

theorem State.executes.issue_eq {s : State} {c x : Nat} {w : Insn} (h : s.executes c x w) (f : Nat → State → State) :
    s.issue c w f = f x s := by
  obtain ⟨hheld, hrun, hclass⟩ := h
  exact State.issue_running f hheld hrun (decide_eq_false (Nat.not_le.mpr hclass))

theorem State.executes.ctx_lt {s : State} {c x : Nat} {w : Insn} (h : s.executes c x w) : x < 8 :=
  have ⟨_, hrun, _⟩ := h
  Core.running_lt hrun

/-! An instruction that finishes. -/

/-- The core after an instruction that finishes: its context advanced, one more issue handshake (R102, R110). -/
theorem State.core_retire (s : State) (c x d : Nat) :
    (s.retire c x).core d = if d = c then { (s.core c).updCtx x Ctx.advance with hsCnt := (s.core c).hsCnt + 1 } else s.core d := by
  rw [State.retire, State.issued, State.core_updCtx]
  by_cases hd : d = c
  · rw [if_pos hd, if_pos hd, State.core_updCore_same]
    rfl
  · rw [if_neg hd, if_neg hd, State.core_updCore, if_neg hd]

/-- An instruction that changes its core beside the contexts, and finishes. -/
theorem State.retire_updCore (s : State) (c x : Nat) (f : Core → Core) (hf : ∀ k, (f k).ctxs = k.ctxs) :
    s.onlyCore ((s.updCore c f).retire c x) c ∧ (∀ y, y ≠ x → ((s.updCore c f).retire c x).ctxOf c y = s.ctxOf c y) ∧
      ((s.updCore c f).retire c x).ctxOf c x = (s.ctxOf c x).advance ∧
      ((s.updCore c f).retire c x).core c =
        { f (s.core c) with ctxs := (((s.updCore c f).retire c x).core c).ctxs, hsCnt := (f (s.core c)).hsCnt + 1 } := by
  have hsame : ((s.updCore c f).retire c x).core c = { (f (s.core c)).updCtx x Ctx.advance with hsCnt := (f (s.core c)).hsCnt + 1 } := by
    rw [State.core_retire, if_pos rfl, State.core_updCore_same]
  have hctx (y : Nat) : ((s.updCore c f).retire c x).ctxOf c y = if y = x then (s.ctxOf c x).advance else s.ctxOf c y := by
    have hf' (z : Nat) : (f (s.core c)).ctx z = s.ctxOf c z := by rw [Core.ctx, hf]; rfl
    rw [State.ctxOf, hsame, ← hf' x, ← hf' y]
    exact Core.ctx_updCtx ..
  refine ⟨⟨rfl, fun d hd => ?_⟩, fun y hy => (hctx y).trans (if_neg hy), (hctx x).trans (if_pos rfl), by rw [hsame]; rfl⟩
  rw [State.core_retire, if_neg hd, State.core_updCore, if_neg hd]

/-! Fields that share a word, and words that lie at different offsets of their pages. -/

/-- Replacing a field leaves the fields above it. -/
theorem bitsN_setBitsN_above (w x : Nat) {hi lo hi' lo' : Nat} (h : lo ≤ hi) (h' : hi < lo') :
    bitsN (setBitsN w hi lo x) hi' lo' = bitsN w hi' lo' := by
  have hpow : 2 ^ lo' = 2 ^ lo * (2 ^ (hi - lo + 1) * 2 ^ (lo' - hi - 1)) := by rw [← Nat.pow_add, ← Nat.pow_add]; congr 1; omega
  have hlow : setBitsN w hi lo x / 2 ^ lo = 2 ^ (hi - lo + 1) * (w / 2 ^ lo / 2 ^ (hi - lo + 1)) + x % 2 ^ (hi - lo + 1) := by
    unfold setBitsN bitsN
    have hsplit := Nat.div_add_mod (w / 2 ^ lo) (2 ^ (hi - lo + 1))
    rw [Nat.add_mul_div_right _ _ (Nat.two_pow_pos lo), Nat.mul_comm (w / 2 ^ lo % _), Nat.sub_mul_div]
    omega
  unfold bitsN
  rw [hpow, ← Nat.div_div_eq_div_mul, ← Nat.div_div_eq_div_mul, ← Nat.div_div_eq_div_mul, ← Nat.div_div_eq_div_mul, hlow,
    Nat.mul_add_div (Nat.two_pow_pos _), Nat.div_eq_of_lt (Nat.mod_lt _ (Nat.two_pow_pos _)), Nat.add_zero]

/-- A write leaves the fields above it in its word. -/
theorem State.rd_wr_above (s : State) {f g : Fld} (v i j : Nat) (hword : g.word = f.word) (haddr : g.addr i j = f.addr i j) (h : f.lo ≤ f.hi)
    (h' : f.hi < g.lo) (hg : g.lo ≤ g.hi) (hw : g.hi < 32) : (s.wr f v i j).rd g i j = s.rd g i j := by
  unfold State.rd State.regWord State.wr
  rw [hword, haddr, SMap.get_set_same, BitVec.toNat_ofNat, bitsN_mod_word _ hg hw, bitsN_setBitsN_above _ _ h h']
  rfl

theorem Fld.addr_ne_of_offset {f g : Fld} {i k l : Nat} (h : g.addr k l % 0x1000 ≠ f.base % 0x1000) : g.addr k l ≠ f.addr i 0 := by
  intro heq
  refine h ?_
  rw [heq, Fld.addr, Nat.mul_zero, Nat.add_zero, Nat.add_mul_mod_self_left]

/-- An interrupt and a logged occurrence change, in whatever page, PG_IRQ_STS, PG_ERR_CNT, PG_ERR_FIRST or MGT_LOG_STS, by offset in the page. -/
def reportOffsets : List Nat := [0x14, 0x20, 0x24, 0x28, 0x120]

section
variable {g : Fld} {k l : Nat} (h : g.addr k l % 0x1000 ∉ reportOffsets)
include h

theorem addr_ne_of_reportOffset {f : Fld} {i : Nat} (hf : f.base % 0x1000 ∈ reportOffsets) : g.addr k l ≠ f.addr i 0 :=
  Fld.addr_ne_of_offset fun heq => h (heq ▸ hf)

theorem State.rd_raiseIrq_of_offset (s : State) (b : Block) (i n : Nat) : (s.raiseIrq b i n).rd g k l = s.rd g k l :=
  s.rd_raiseIrq_ne b i n (addr_ne_of_reportOffset h (by decide))

/-- Logging an occurrence leaves every register but its page's counts and first record, the log's count of lost records and Wainil's interrupt
(R529, R530, R552). -/
theorem State.rd_logErr_of_offset (s : State) (r : ErrRec) (scope : Nat) : (s.logErr r scope).rd g k l = s.rd g k l := by
  have hcnt (p : Nat) : g.addr k l ≠ PG_ERR_CNT.COUNT.addr p 0 := addr_ne_of_reportOffset h (by decide)
  have hinj (p : Nat) : g.addr k l ≠ PG_ERR_CNT.INJECTED.addr p 0 := addr_ne_of_reportOffset h (by decide)
  unfold State.logErr
  extract_lets page a b c
  have ha : a.rd g k l = s.rd g k l := s.rd_bump_ne _ (hcnt _)
  have hb : b.rd g k l = s.rd g k l := State.rd_ite _ ((a.rd_bump_ne _ (hinj _)).trans ha) ha
  have hc : c.rd g k l = s.rd g k l := State.rd_ite _ ((State.rd_congr (b.updMgmt_regs _) g k l).trans hb) hb
  have hwrite : (c.writeErr page r).rd g k l = c.rd g k l :=
    c.rd_writeErr_ne page r (addr_ne_of_reportOffset h (by decide)) (addr_ne_of_reportOffset h (by decide))
      (addr_ne_of_reportOffset h (by decide)) (addr_ne_of_reportOffset h (by decide))
  exact State.rd_ite _ rfl (State.rd_ite _ hb (State.rd_ite _ hb (hwrite.trans hc)))

end

/-! What leaves every core and its CORE_FAULT. -/

/-- Every core is as before, and every field of every CORE_FAULT. -/
def CoresKept (s t : State) : Prop := t.cores = s.cores ∧ ∀ (g : Fld) (c : Nat), g.base = CORE_FAULT.WORD.base → t.rd g c = s.rd g c

theorem CoresKept.refl (s : State) : CoresKept s s := ⟨rfl, fun _ _ _ => rfl⟩

theorem CoresKept.trans {s t u : State} (h : CoresKept s t) (k : CoresKept t u) : CoresKept s u :=
  ⟨k.1.trans h.1, fun g c hg => (k.2 g c hg).trans (h.2 g c hg)⟩

theorem CoresKept.ite {s t u : State} (c : Prop) [Decidable c] (h : CoresKept s t) (k : CoresKept s u) : CoresKept s (if c then t else u) :=
  iteInduction (fun _ => h) fun _ => k

theorem CoresKept.of_regs {s t : State} (hcores : t.cores = s.cores) (hregs : t.regs = s.regs) : CoresKept s t :=
  ⟨hcores, fun g c _ => State.rd_congr hregs g c 0⟩

theorem CoresKept.core {s t : State} (h : CoresKept s t) (c : Nat) : t.core c = s.core c := by rw [State.core, State.core, h.1]

theorem coreFault_offset {g : Fld} (hg : g.base = CORE_FAULT.WORD.base) (c : Nat) : g.addr c 0 % 0x1000 ∉ reportOffsets := by
  have hoff : g.addr c 0 % 0x1000 = 0x104 := by
    rw [Fld.addr, hg, Nat.mul_zero, Nat.add_zero, Nat.add_mul_mod_self_left]
    decide
  rw [hoff]
  decide

theorem State.raiseIrq_coresKept (s : State) (b : Block) (i n : Nat) : CoresKept s (s.raiseIrq b i n) :=
  ⟨by rw [(s.raiseIrq_reportsOnly b i n).1], fun _ c hg => s.rd_raiseIrq_of_offset (coreFault_offset hg c) b i n⟩

theorem State.logErr_coresKept (s : State) (r : ErrRec) (scope : Nat) : CoresKept s (s.logErr r scope) :=
  ⟨by rw [(s.logErr_reportsOnly r scope).1], fun _ c hg => s.rd_logErr_of_offset (coreFault_offset hg c) r scope⟩

theorem State.updStep_coresKept (s : State) (f : StepSt → StepSt) : CoresKept s (s.updStep f) := .of_regs rfl rfl

theorem State.sendAbort_coresKept (s : State) (code : Code) : CoresKept s (s.sendAbort code) := .of_regs rfl rfl

/-- A fault of the step is a record, and a mark on its sequences or a STEP_ABORT to every member: no core stops before its own package takes
that (R533, R535). -/
theorem State.raiseFault_coresKept (s : State) (code : Code) (node : Nat) (ctx : Option Nat) (desc : Option (Nat × Nat)) (addr layer : Nat)
    (detail : Bytes) (seqs : List Nat) : CoresKept s (s.raiseFault code node ctx desc addr layer detail seqs) := by
  unfold State.raiseFault
  extract_lets r u
  have hmark : CoresKept s ((s.logErr (r sevSequence)).markErrored code seqs) := (s.logErr_coresKept _ _).trans (State.updStep_coresKept ..)
  have habort : CoresKept s u := s.logErr_coresKept _ _
  exact .ite _ (s.logErr_coresKept _ _) (.ite _ hmark (habort.trans ((u.updStep_coresKept _).trans (State.sendAbort_coresKept ..))))

/-! Context faults. -/

/-- CORE_FAULT of core `c` shows the fault of context `x` where it shows none, and the core's interrupt occurs (R561). -/
def State.showFault (s : State) (c x : Nat) (code : Code) : State :=
  (if s.on CORE_FAULT.VALID c then s
    else ((s.wr CORE_FAULT.VALID 1 c).wr CORE_FAULT.CTX x c).wr CORE_FAULT.CODE code.toNat c).raiseIrq .core c 0

/-- A context as it stands FAULTED (R73). -/
def Ctx.faulted (t : Ctx) : Ctx := { t with st := .faulted, wait := .none, sink := none }

theorem State.enterFaulted_eq (s : State) (c x : Nat) (code : Code) :
    s.enterFaulted c x code = (s.updCtx c x Ctx.faulted).showFault c x code := rfl

theorem State.showFault_cores (s : State) (c x : Nat) (code : Code) : (s.showFault c x code).cores = s.cores := by
  rw [State.showFault, (State.raiseIrq_coresKept ..).1, apply_ite State.cores, State.wr_cores, State.wr_cores, State.wr_cores, ite_self]

/-- The three fields of CORE_FAULT, written from the highest down. -/
theorem State.rd_coreFault_wr (s : State) (c : Nat) {x : Nat} (code : Code) (hx : x < 8) :
    let t := ((s.wr CORE_FAULT.VALID 1 c).wr CORE_FAULT.CTX x c).wr CORE_FAULT.CODE code.toNat c
    t.rd CORE_FAULT.VALID c = 1 ∧ t.rd CORE_FAULT.CTX c = x ∧ t.rd CORE_FAULT.CODE c = code.toNat := by
  have hcode (u : State) (g : Fld) (hword : g.word = 0) (haddr : g.addr c 0 = CORE_FAULT.CODE.addr c 0) (hlo : 15 < g.lo) (hg : g.lo ≤ g.hi)
      (hw : g.hi < 32) : (u.wr CORE_FAULT.CODE code.toNat c).rd g c = u.rd g c := u.rd_wr_above _ c 0 hword haddr (by decide) hlo hg hw
  have hctx : ((s.wr CORE_FAULT.VALID 1 c).wr CORE_FAULT.CTX x c).rd CORE_FAULT.VALID c = (s.wr CORE_FAULT.VALID 1 c).rd CORE_FAULT.VALID c :=
    State.rd_wr_above _ _ c 0 rfl rfl (by decide) (by decide) (by decide) (by decide)
  refine ⟨?_, ?_, ?_⟩
  · rw [hcode _ CORE_FAULT.VALID rfl rfl (by decide) (by decide) (by decide), hctx]
    exact s.rd_wr_same CORE_FAULT.VALID 1 c 0 (by decide) (by decide)
  · rw [hcode _ CORE_FAULT.CTX rfl rfl (by decide) (by decide) (by decide)]
    exact (State.rd_wr_same _ CORE_FAULT.CTX x c 0 (by decide) (by decide)).trans (Nat.mod_eq_of_lt hx)
  · exact (State.rd_wr_same _ CORE_FAULT.CODE code.toNat c 0 (by decide) (by decide)).trans (Nat.mod_eq_of_lt code.isLt)

theorem State.showFault_coreFault {s : State} {c x : Nat} (code : Code) (hx : x < 8) (h : s.on CORE_FAULT.VALID c = false) :
    (s.showFault c x code).rd CORE_FAULT.VALID c = 1 ∧ (s.showFault c x code).rd CORE_FAULT.CTX c = x ∧
      (s.showFault c x code).rd CORE_FAULT.CODE c = code.toNat := by
  have hkept (g : Fld) (hg : g.base = CORE_FAULT.WORD.base) (t : State) : (t.raiseIrq .core c 0).rd g c = t.rd g c :=
    (t.raiseIrq_coresKept .core c 0).2 g c hg
  rw [State.showFault, if_neg (by rw [h]; exact Bool.false_ne_true), hkept CORE_FAULT.VALID rfl, hkept CORE_FAULT.CTX rfl,
    hkept CORE_FAULT.CODE rfl]
  exact s.rd_coreFault_wr c code hx

/-- Beyond the context's entry into FAULTED, a context fault changes no core (R73, R535). -/
theorem State.ctxFaultAt_coresKept (s : State) (c x : Nat) (code : Code) (addr : Nat) (w : Insn) (pc : BitVec 18) :
    CoresKept (s.enterFaulted c x code) (s.ctxFaultAt c x code addr w pc) := by
  unfold State.ctxFaultAt
  extract_lets rep u
  have hu : CoresKept (s.enterFaulted c x code) u := State.raiseFault_coresKept ..
  exact .ite _ (hu.trans (u.updStep_coresKept _)) hu

theorem State.ctxFaultAt_faulted (s : State) {c x : Nat} (code : Code) (addr : Nat) (w : Insn) (pc : BitVec 18) (hx : x < 8) :
    Claims.faulted s (s.ctxFaultAt c x code addr w pc) c x code := by
  obtain ⟨hcores, hkept⟩ := s.ctxFaultAt_coresKept c x code addr w pc
  have hcore (d : Nat) : (s.ctxFaultAt c x code addr w pc).core d =
      if d = c then (s.core c).updCtx x Ctx.faulted else s.core d := by
    rw [← State.core_updCtx, State.core, hcores, State.enterFaulted_eq, State.showFault_cores, State.core]
  have hsame := (hcore c).trans (if_pos rfl)
  refine ⟨fun d hd => (hcore d).trans (if_neg hd), ?_, fun y hy => ?_, ?_, fun hfree => ?_⟩
  · rw [hsame]
    rfl
  · rw [State.ctxOf, hsame, Core.ctx_updCtx, if_neg hy]
    rfl
  · rw [State.ctxOf, hsame, Core.ctx_updCtx_same]
    rfl
  · obtain ⟨hvalid, hctx, hcode⟩ := State.showFault_coreFault (s := s.updCtx c x Ctx.faulted) code hx hfree
    exact ⟨decide_eq_true ((hkept CORE_FAULT.VALID c rfl).trans hvalid), (hkept CORE_FAULT.CTX c rfl).trans hctx,
      (hkept CORE_FAULT.CODE c rfl).trans hcode⟩

/-- An instruction that faults leaves what `Claims.faulted` says (R73, R561). -/
theorem State.executes.ctxFault_faulted {s : State} {c x : Nat} {w : Insn} (h : s.executes c x w) (code : Code) (addr : Nat) :
    Claims.faulted s (s.ctxFault c x code addr w) c x code := s.ctxFaultAt_faulted code addr w _ h.ctx_lt

/-! Reads of a local store whose codes show clean (R80). -/

section
variable {s : State} {page : Nat} (h : s.on PG_PTB_STS.ACTIVE page = false)
include h

theorem State.inject_inactive (pt kind addr : Nat) : s.inject page pt kind addr = (false, s) := by
  rw [State.inject, if_neg fun hc => Bool.false_ne_true (h.symm.trans hc.1)]

theorem State.eccWith_inactive (pt addr : Nat) : s.eccWith page pt addr .clean = (.clean, false, s) := by
  simp only [State.eccWith, State.inject_inactive h, reduceCtorEq, Bool.false_eq_true, or_self, and_false, if_false, Bool.or_self]

end

theorem State.lsRead_clean {s : State} {c : Nat} (h : s.on PG_PTB_STS.ACTIVE (Block.core.page c) = false) (off : Nat) :
    s.lsRead c off .clean = (true, s) := by
  rw [State.lsRead, State.eccWith_inactive h]

/-- A read none of whose words shows an error, with no perturbation active, gives every word and changes nothing. -/
theorem State.lsReads_clean {s : State} {c : Nat} {es : Errs} (h : s.on PG_PTB_STS.ACTIVE (Block.core.page c) = false)
    (hes : ∀ k, es.at k = .clean) (off n : Nat) : s.lsReads c off n es = (true, s) := by
  unfold State.lsReads
  generalize s.errWords (Block.core.page c) off n 8 es = ks
  induction ks with
  | nil => rfl
  | cons k ks ih => rw [List.foldl_cons, if_pos rfl, hes, State.lsRead_clean h, ih]

/-! Fences. -/

/-- A fence that clears changes contexts alone (R126). -/
theorem Core.checkFences_eq (k : Core) : k.checkFences = { k with ctxs := k.checkFences.ctxs } := by
  unfold Core.checkFences
  generalize List.range 8 = xs
  induction xs generalizing k with
  | nil => rfl
  | cons x xs ih =>
    rw [List.foldl_cons, ih]
    split <;> rfl

/-! Packets. -/

theorem State.sendPacket_here {s : State} {p : Packet} (h : srfPkg p.address = s.me) : s.sendPacket p = s.emit (.packet s.me p) := by
  rw [State.sendPacket, if_pos h, h]

end Sys2Proof.Machine
end

section
/-!
PROOFS (O15). SEND, and the send that leaves its queue (R86 to R88, R112, R126, R160, R402).
-/
namespace Sys2Proof.Machine

/-! The address of a MESSAGE packet (R402): the destination of its SEND with the tag above the queue's number. -/

/-- The address that a message to `dest` with tag `tag` goes to, as `execSendComplete` composes it. -/
def messageAddress (dest : BitVec 64) (tag : BitVec 16) : BitVec 64 := dest &&& ~~~(3 : BitVec 64) ||| BitVec.ofNat 64 (4 * tag.toNat)

theorem bits64_eq_extractLsb' (v : BitVec 64) (hi lo : Nat) : bits64 v hi lo = (v.extractLsb' lo (hi - lo + 1)).toNat := by
  rw [bits64, bitsN, BitVec.extractLsb'_toNat, Nat.shiftRight_eq_div_pow]

theorem getLsbD_messageAddress (dest : BitVec 64) (tag : BitVec 16) {i : Nat} (h : 2 ≤ i) (hi : i < 64) :
    (messageAddress dest tag).getLsbD i = (dest.getLsbD i || tag.getLsbD (i - 2)) := by
  have hthree : (3 : BitVec 64).getLsbD i = false := by
    have hlt : 3 < 2 ^ i := Nat.lt_of_lt_of_le (by decide : 3 < 2 ^ 2) (Nat.pow_le_pow_right (by decide) h)
    exact (BitVec.getLsbD_ofNat ..).trans (by rw [Nat.testBit_lt_two_pow hlt, Bool.and_false])
  have htag : (BitVec.ofNat 64 (4 * tag.toNat)).getLsbD i = tag.getLsbD (i - 2) := by
    rw [BitVec.getLsbD_ofNat, decide_eq_true hi, Bool.true_and, show 4 * tag.toNat = 2 ^ 2 * tag.toNat from rfl, Nat.testBit_two_pow_mul,
      decide_eq_true h, Bool.true_and]
    rfl
  rw [messageAddress, BitVec.getLsbD_or, BitVec.getLsbD_and, BitVec.getLsbD_not, hthree, htag, decide_eq_true hi, Bool.not_false,
    Bool.true_and, Bool.and_true]

/-- The fields of the destination above its tag stand in the message's address. -/
theorem bits64_messageAddress_above (dest : BitVec 64) (tag : BitVec 16) {hi lo : Nat} (h : 18 ≤ lo) (hl : lo ≤ hi) (hh : hi < 64) :
    bits64 (messageAddress dest tag) hi lo = bits64 dest hi lo := by
  rw [bits64_eq_extractLsb', bits64_eq_extractLsb']
  congr 1
  ext i hi'
  rw [BitVec.getElem_extractLsb', BitVec.getElem_extractLsb', getLsbD_messageAddress _ _ (by omega) (by omega),
    BitVec.getLsbD_of_ge tag _ (by omega), Bool.or_false]

/-- The tag of a message to a destination that SEND takes. -/
theorem bits64_messageAddress_tag {dest : BitVec 64} (tag : BitVec 16) (h : bits64 dest 19 2 = 0) :
    bits64 (messageAddress dest tag) 17 2 = tag.toNat := by
  rw [bits64_eq_extractLsb'] at h ⊢
  congr 1
  ext i hi
  have hzero : dest.getLsbD (2 + i) = false := by
    have hfield : dest.extractLsb' 2 18 = 0#18 := BitVec.eq_of_toNat_eq h
    have hbit := congrArg (BitVec.getLsbD · i) hfield
    simpa only [BitVec.getLsbD_extractLsb', BitVec.getLsbD_zero, decide_eq_true (by omega : i < 18), Bool.true_and] using hbit
  rw [BitVec.getElem_extractLsb', getLsbD_messageAddress _ _ (by omega) (by omega), hzero, Bool.false_or, Nat.add_sub_cancel_left]
  exact BitVec.getLsbD_eq_getElem hi

theorem srfPkg_messageAddress (dest : BitVec 64) (tag : BitVec 16) : srfPkg (messageAddress dest tag) = srfPkg dest := by
  have hrack : srfRack (messageAddress dest tag) = srfRack dest := by
    rw [srfRack, getLsbD_messageAddress _ _ (by decide) (by decide), BitVec.getLsbD_of_ge tag _ (by decide), Bool.or_false]
    rfl
  have hslot : srfSlot (messageAddress dest tag) = srfSlot dest := bits64_messageAddress_above _ _ (by decide) (by decide) (by decide)
  rw [srfPkg, hrack, hslot, srfPkg]

theorem srfCore_eq_bits64 (a : BitVec 64) : srfCore a = bits64 a 31 20 := by
  simp only [srfCore, srfOff, bits64, bitsN]
  omega

theorem srfCore_messageAddress (dest : BitVec 64) (tag : BitVec 16) : srfCore (messageAddress dest tag) = srfCore dest := by
  rw [srfCore_eq_bits64, srfCore_eq_bits64, bits64_messageAddress_above _ _ (by decide) (by decide) (by decide)]

/-- The bits between a destination's queue and its core are zero (R112). -/
theorem bits64_of_sendDest {a : BitVec 64} (h : sendDest a = true) : bits64 a 19 2 = 0 := by
  simp only [sendDest, Bool.and_eq_true, decide_eq_true_eq] at h
  exact h.2

/-! SEND (R87, R112). -/

/-- The descriptor that SEND makes in context `x`. -/
def State.sendDesc (s : State) (c x : Nat) (w : Insn) (es : Errs) : SendDesc :=
  let u := s.ctxOf c x
  { id := (s.core c).nextId, ctx := x, queue := immBits w 17 16, dest := u.sreg (fRA w), off := (u.sreg (fRB w)).toNat,
    len := (u.sreg (fRC w)).toNat, tag := BitVec.ofNat 16 (immBits w 15 0), errs := es }

/-- What SEND does with the descriptor it makes: a fault, a wait in issue, or a place at the end of its core's queue (`exec_send`). -/
def State.placeSend (s : State) (c x : Nat) (w : Insn) (d : SendDesc) : State :=
  if !sendDest d.dest then s.ctxFault c x Err.REMOTE_ADDR d.dest.toNat w
  else if sqMax d.queue < d.len then s.ctxFault c x Err.MSG_SIZE 0 w
  else if d.len ≠ 0 ∧ lsBytes < d.off + d.len then s.ctxFault c x Err.LS_RANGE 0 w
  else if 16 ≤ (s.core c).sqUsed d.queue ∨ (s.core c).sendWaits x then s
  else (s.updCore c fun k => { k with sends := k.sends ++ [d], nextId := k.nextId + 1 }).retire c x

/-- Of a legal send, only the queue decides whether it is queued or waits in issue (R87, R160). -/
theorem State.placeSend_legal {s : State} {c x : Nat} {w : Insn} {d : SendDesc} (hdest : sendDest d.dest = true) (hlen : d.len ≤ sqMax d.queue)
    (hin : d.len = 0 ∨ d.off + d.len ≤ lsBytes) : s.placeSend c x w d =
    if 16 ≤ (s.core c).sqUsed d.queue ∨ (s.core c).sendWaits x then s
    else (s.updCore c fun k => { k with sends := k.sends ++ [d], nextId := k.nextId + 1 }).retire c x := by
  rw [State.placeSend, hdest, if_neg (by decide), if_neg (Nat.not_lt.mpr hlen), if_neg fun hout => hin.elim hout.1 (Nat.not_le.mpr hout.2)]

section
variable {c : CoreId} {w : Insn} {x : Nat} {s : State} {es : Errs} (h : s.executes c x w)
include h

theorem exec_send : exec (.send c w es) s = .next (s.placeSend c x w (s.sendDesc c x w es)) := congrArg Host.Outcome.next (h.issue_eq _)

theorem does_send {t : State} {P : State → Prop} (ht : s.placeSend c x w (s.sendDesc c x w es) = t) (hp : P t) : Does (.send c w es) s P :=
  ⟨t, (exec_send h).trans (congrArg _ ht), hp⟩

theorem does_send_badDest (hdest : sendDest (s.sendDesc c x w es).dest = false) :
    Does (.send c w es) s fun t => Claims.faulted s t c x Err.REMOTE_ADDR :=
  does_send h (by rw [State.placeSend, hdest, Bool.not_false, if_pos rfl]) (h.ctxFault_faulted ..)

section
variable (hdest : sendDest (s.sendDesc c x w es).dest = true)
include hdest

theorem does_send_tooLong (hlen : sqMax (s.sendDesc c x w es).queue < (s.sendDesc c x w es).len) :
    Does (.send c w es) s fun t => Claims.faulted s t c x Err.MSG_SIZE :=
  does_send h (by rw [State.placeSend, hdest, if_neg (by decide), if_pos hlen]) (h.ctxFault_faulted ..)

variable (hlen : (s.sendDesc c x w es).len ≤ sqMax (s.sendDesc c x w es).queue)
include hlen

theorem does_send_outside (hne : (s.sendDesc c x w es).len ≠ 0) (hout : lsBytes < (s.sendDesc c x w es).off + (s.sendDesc c x w es).len) :
    Does (.send c w es) s fun t => Claims.faulted s t c x Err.LS_RANGE :=
  does_send h (by rw [State.placeSend, hdest, if_neg (by decide), if_neg (Nat.not_lt.mpr hlen), if_pos ⟨hne, hout⟩]) (h.ctxFault_faulted ..)

variable (hin : (s.sendDesc c x w es).len = 0 ∨ (s.sendDesc c x w es).off + (s.sendDesc c x w es).len ≤ lsBytes)
include hin

/-- A full queue leaves everything as it is: the context stays RUNNING at its instruction (R87). -/
theorem does_send_full (hfull : 16 ≤ (s.core c).sqUsed (s.sendDesc c x w es).queue) : Does (.send c w es) s fun t => t = s :=
  does_send h ((State.placeSend_legal hdest hlen hin).trans (if_pos (.inl hfull))) rfl

theorem does_send_queued (hroom : (s.core c).sqUsed (s.sendDesc c x w es).queue < 16) (hready : (s.core c).sendWaits x = false) :
    Does (.send c w es) s fun t =>
      s.onlyCore t c ∧ (∀ y, y ≠ x → t.ctxOf c y = s.ctxOf c y) ∧ t.ctxOf c x = (s.ctxOf c x).advance ∧
      t.core c = { s.core c with ctxs := (t.core c).ctxs, hsCnt := (s.core c).hsCnt + 1, nextId := (s.core c).nextId + 1,
                                 sends := (s.core c).sends ++ [s.sendDesc c x w es] } := by
  refine does_send h ((State.placeSend_legal hdest hlen hin).trans (if_neg ?_)) ?_
  · rintro (hfull | hwaits)
    · exact Nat.not_le.mpr hroom hfull
    · exact Bool.false_ne_true (hready.symm.trans hwaits)
  · exact s.retire_updCore c x _ fun _ => rfl

end
end

/-! The send that leaves (R88, R126). -/

/-- The MESSAGE packet of a send (R402). -/
def State.messageOf (s : State) (c : Nat) (d : SendDesc) : Packet :=
  s.request (messageAddress d.dest d.tag) tMESSAGE (if d.queue < 2 then 2 else 3) c 0 d.len (bits64 d.dest 1 0) ((s.core c).rdLs d.off d.len)

/-- A send leaves its core's queue. -/
def Core.dropSend (k : Core) (id : Nat) : Core := { k with sends := k.sends.filter fun e => decide (e.id ≠ id) }

theorem exec_sendComplete (c : CoreId) (id : Nat) (s : State) : exec (.sendComplete c id) s = execSendComplete c id s := rfl

/-- The oldest send of its queue, read without an error and for a core of this package. -/
theorem execSendComplete_oldest {c : CoreId} {id : Nat} {d : SendDesc} {s : State}
    (hfind : (s.core c).sends.find? (fun e => decide (e.id = id)) = some d) (hold : ∀ e ∈ (s.core c).sends, e.queue = d.queue → id ≤ e.id)
    (hptb : s.on PG_PTB_STS.ACTIVE (Block.core.page c) = false) (herrs : ∀ k, d.errs.at k = .clean) (hme : srfPkg d.dest = s.me) :
    execSendComplete c id s =
      .next (((s.updCore c (Core.dropSend · id)).emit (.packet s.me (s.messageOf c d))).updCore c Core.checkFences) := by
  have hnone : ¬ ((s.core c).sends.any fun e => decide (e.queue = d.queue) && decide (e.id < id)) = true := by
    rw [List.any_eq_true]
    rintro ⟨e, he, hlt⟩
    rw [Bool.and_eq_true, decide_eq_true_eq, decide_eq_true_eq] at hlt
    exact absurd hlt.2 (Nat.not_lt.mpr (hold e he hlt.1))
  have hhere : srfPkg (s.messageOf c d).address = (s.updCore c (Core.dropSend · id)).me := (srfPkg_messageAddress ..).trans hme
  rw [execSendComplete, hfind]
  dsimp only
  rw [if_neg hnone, State.lsReads_clean hptb herrs]
  exact congrArg (fun t : State => Host.Outcome.next (t.updCore c Core.checkFences)) (State.sendPacket_here hhere)

theorem State.core_sendLeft (s : State) (c d id : Nat) (o : Out) :
    (((s.updCore c (Core.dropSend · id)).emit o).updCore c Core.checkFences).core d =
      if d = c then ((s.core c).dropSend id).checkFences else s.core d := by
  have hemit (e : Nat) : ((s.updCore c (Core.dropSend · id)).emit o).core e = if e = c then (s.core c).dropSend id else s.core e :=
    s.core_updCore c e (Core.dropSend · id)
  by_cases hd : d = c
  · rw [State.core_updCore, if_pos hd, if_pos hd, hemit, if_pos rfl]
  · rw [State.core_updCore, if_neg hd, if_neg hd, hemit, if_neg hd]

/-- What the packet of a send carries (R88, R402). -/
theorem State.messageOf_carries (s : State) (c : CoreId) {d : SendDesc} (hdest : sendDest d.dest = true) :
    let p := s.messageOf c d
    p.type.toNat = 3 ∧ p.vc.toNat = (if d.queue < 2 then 2 else 3) ∧ p.payload = (s.core c).rdLs d.off d.len ∧
      bits64 p.address 17 2 = d.tag.toNat ∧ p.arg.toNat = bits64 d.dest 1 0 ∧ srfCore p.address = srfCore d.dest ∧ p.node.toNat = c.val := by
  refine ⟨rfl, ?_, rfl, bits64_messageAddress_tag _ (bits64_of_sendDest hdest), ?_, srfCore_messageAddress .., ?_⟩
  · rw [State.messageOf, State.request]
    split <;> rfl
  · have hqueue : bits64 d.dest 1 0 < 4 := Nat.mod_lt _ (by decide)
    exact Nat.mod_eq_of_lt (by omega)
  · exact Nat.mod_eq_of_lt (by omega)

/-- Settles O15: SEND by the descriptor it makes (`placeSend`), and the oldest send of a queue by the packet that carries it (`messageOf`). -/
theorem sendsQueueAndLeave : Obligations.SendsQueueAndLeave := by
  unfold Obligations.SendsQueueAndLeave
  refine ⟨fun c w x es s h => does_send_queued h,
    fun c w x es s h => ⟨does_send_badDest h, fun hdest => ⟨does_send_tooLong h hdest, does_send_outside h hdest, does_send_full h hdest⟩⟩, ?_⟩
  intro c id d s hfind hold hptb herrs hme hdest
  refine ⟨_, (exec_sendComplete c id s).trans (execSendComplete_oldest hfind hold hptb herrs hme), fun e he => ?_, ?_, ?_,
    s.messageOf c d, rfl, s.messageOf_carries c hdest⟩
  · rw [State.core_sendLeft, if_neg he]
  · rw [State.core_sendLeft, if_pos rfl, Core.checkFences_eq]
    rfl
  · rw [State.core_sendLeft, if_pos rfl, Core.checkFences_eq]
    rfl

end Sys2Proof.Machine
end

section
/-!
PROOFS (O4). Branches, jumps and counted loops (R110, R111).
-/
namespace Sys2Proof.Machine

/-! Where the context goes. -/

/-- An advance changes the pc and the loops alone. -/
theorem Ctx.advance_eq (u : Ctx) : u.advance = { u with pc := u.advance.pc, loops := u.advance.loops } := Ctx.fall_eq 3 u

/-- Instruction memory holds 32,768 instructions: below that, an instruction's pc is its byte address (R105). -/
theorem idxPc_of_lt {i : Nat} (h : i < 32768) : idxPc i = BitVec.ofNat 18 (8 * i) := by
  rw [idxPc, Nat.mod_eq_of_lt h]

theorem branchTarget_lt (u : Ctx) (w : Insn) : branchTarget u w < 32768 := by
  unfold branchTarget
  omega

/-- A jump to an instruction of instruction memory: every loop whose body does not hold it is abandoned (R111). -/
theorem Ctx.jumpTo_of_lt (u : Ctx) {i : Nat} (h : i < 32768) :
    u.jumpTo i = { u with pc := BitVec.ofNat 18 (8 * i), loops := u.loops.dropWhile fun l => decide (i < l.first) || decide (l.last < i) } := by
  rw [Ctx.jumpTo, idxPc_of_lt h]

/-- An instruction that only moves its context, and counts as a handshake (R102, R110). -/
theorem State.movedTo_of_eq {s : State} {c x : Nat} {f : Ctx → Ctx} {pc : BitVec 18} {ls : List Loop}
    (hf : f (s.ctxOf c x) = { s.ctxOf c x with pc := pc, loops := ls }) : Claims.movedTo s ((s.issued c).updCtx c x f) c x pc ls := by
  have hcore : ((s.issued c).updCtx c x f).core c = { s.core c with hsCnt := (s.core c).hsCnt + 1 }.updCtx x f := by
    rw [State.core_updCtx, if_pos rfl, State.issued, State.core_updCore_same]
  refine ⟨⟨rfl, fun d hd => ?_⟩, ⟨?_, fun y hy => ?_⟩, ?_⟩
  · rw [State.core_updCtx, if_neg hd, State.issued, State.core_updCore, if_neg hd]
  · rw [hcore]
    rfl
  · rw [hcore, Core.ctx_updCtx, if_neg hy]
    rfl
  · rw [State.ctxOf, hcore, Core.ctx_updCtx_same]
    exact hf

/-! Branches (R110). -/

/-- Every relative branch is the shared branch under its own condition. -/
theorem exec_branch (c : CoreId) (w : Insn) (s : State) : ∀ p ∈ Claims.branches, exec (p.1 c w) s = .next (s.branch c w p.2) := by
  simp only [Claims.branches, List.forall_mem_cons, List.not_mem_nil, false_imp_iff, implies_true, and_true]
  exact ⟨rfl, rfl, rfl, rfl, rfl⟩

section
variable {c : CoreId} {w : Insn} {x : Nat} {s : State} (h : s.executes c x w)
include h

theorem State.executes.branch_taken {p : BitVec 64 → BitVec 64 → Bool} (hp : p ((s.ctxOf c x).sreg (fRA w)) ((s.ctxOf c x).sreg (fRB w)) = true) :
    let i := branchTarget (s.ctxOf c x) w
    Claims.movedTo s (s.branch c w p) c x (BitVec.ofNat 18 (8 * i))
      ((s.ctxOf c x).loops.dropWhile fun l => decide (i < l.first) || decide (l.last < i)) := by
  rw [State.branch, h.issue_eq]
  exact State.movedTo_of_eq ((if_pos hp).trans (Ctx.jumpTo_of_lt _ (branchTarget_lt ..)))

theorem State.executes.branch_falls {p : BitVec 64 → BitVec 64 → Bool} (hp : p ((s.ctxOf c x).sreg (fRA w)) ((s.ctxOf c x).sreg (fRB w)) ≠ true) :
    Claims.movedTo s (s.branch c w p) c x (s.ctxOf c x).advance.pc (s.ctxOf c x).advance.loops := by
  rw [State.branch, h.issue_eq]
  exact State.movedTo_of_eq ((if_neg hp).trans (Ctx.advance_eq _))

/-! JMP (R110). -/

theorem exec_jmp :
    let a := ((s.ctxOf c x).sreg (fRA w)).toNat
    exec (.jmp c w) s = .next
      (if a % 8 ≠ 0 ∨ imemBytes ≤ a then s.ctxFault c x Err.ILLEGAL_OP 0 w else (s.issued c).updCtx c x fun u => u.jumpTo (a / 8)) :=
  congrArg Host.Outcome.next (h.issue_eq _)

theorem does_jmp_badTarget (hbad : ((s.ctxOf c x).sreg (fRA w)).toNat % 8 ≠ 0 ∨ 0x40000 ≤ ((s.ctxOf c x).sreg (fRA w)).toNat) :
    Does (.jmp c w) s fun t => Claims.faulted s t c x Err.ILLEGAL_OP :=
  ⟨_, (exec_jmp h).trans (congrArg _ (if_pos hbad)), h.ctxFault_faulted ..⟩

theorem does_jmp {a : Nat} (ha : ((s.ctxOf c x).sreg (fRA w)).toNat = a) (hword : a % 8 = 0) (hin : a < 0x40000) :
    Does (.jmp c w) s fun t =>
      Claims.movedTo s t c x (BitVec.ofNat 18 a) ((s.ctxOf c x).loops.dropWhile fun l => decide (a / 8 < l.first) || decide (l.last < a / 8)) := by
  subst ha
  have hgood := not_or.mpr ⟨not_not_intro hword, Nat.not_le.mpr hin⟩
  refine ⟨_, (exec_jmp h).trans (congrArg _ (if_neg hgood)), State.movedTo_of_eq ((Ctx.jumpTo_of_lt _ (by omega)).trans ?_)⟩
  rw [Nat.mul_div_cancel' (Nat.dvd_of_mod_eq_zero hword)]

/-! REP (R111). -/

theorem exec_rep :
    exec (.rep c w) s = .next
      (if 2 ≤ (s.ctxOf c x).loops.length then s.ctxFault c x Err.LOOP_DEPTH 0 w
      else if immBits w 15 0 = 0 then s.ctxFault c x Err.ILLEGAL_OP 0 w
      else (s.issued c).updCtx c x fun u => u.rep (u.sreg (fRA w)).toNat (immBits w 15 0)) :=
  congrArg Host.Outcome.next (h.issue_eq _)

theorem does_rep_full (hfull : 2 ≤ (s.ctxOf c x).loops.length) : Does (.rep c w) s fun t => Claims.faulted s t c x Err.LOOP_DEPTH :=
  ⟨_, (exec_rep h).trans (congrArg _ (if_pos hfull)), h.ctxFault_faulted ..⟩

/-- With room on the loop stack and a body, REP moves its context as `Ctx.rep` does. -/
theorem does_rep (hroom : (s.ctxOf c x).loops.length < 2) (hbody : immBits w 15 0 ≠ 0) {P : State → Prop}
    (hp : P ((s.issued c).updCtx c x fun u => u.rep (u.sreg (fRA w)).toNat (immBits w 15 0))) : Does (.rep c w) s P :=
  ⟨_, (exec_rep h).trans (congrArg _ ((if_neg (Nat.not_le.mpr hroom)).trans (if_neg hbody))), hp⟩

end

/-- A count of zero passes the body over, as if its last instruction had been passed. -/
theorem Ctx.rep_zero (u : Ctx) (body : Nat) :
    let v := Ctx.advance { u with pc := idxPc (pcIdx u.pc + body) }
    u.rep 0 body = { u with pc := v.pc, loops := v.loops } := Ctx.advance_eq _

theorem Ctx.rep_pos (u : Ctx) {n : Nat} (body : Nat) (hn : n ≠ 0) :
    u.rep n body = { u with
      pc := idxPc (pcIdx u.pc + 1)
      loops := { first := pcIdx u.pc + 1, last := pcIdx u.pc + body, left := min n 0xFFFFFFFF } :: u.loops } := if_neg hn

theorem branchesAndJumps : Claims.branchesAndJumps := by
  unfold Claims.branchesAndJumps
  refine ⟨fun p hp c w x s h => ⟨_, exec_branch c w s p hp, ?_⟩, fun c w x s h => ⟨does_jmp h rfl, does_jmp_badTarget h⟩⟩
  dsimp only
  split
  case isTrue htaken => exact h.branch_taken htaken
  case isFalse hnot => exact h.branch_falls hnot

theorem repEntersOrSkips : Claims.repEntersOrSkips := by
  unfold Claims.repEntersOrSkips
  refine fun c w x s h => ⟨does_rep_full h, fun hroom hbody => does_rep h hroom hbody ?_⟩
  split
  case isTrue hzero => exact State.movedTo_of_eq ((congrArg (Ctx.rep _ · _) hzero).trans (Ctx.rep_zero ..))
  case isFalse hcount => exact State.movedTo_of_eq (Ctx.rep_pos _ _ hcount)

/-- Settles O4: branches and JMP, and REP, each by the pc and the loops it gives its context. -/
theorem controlFlow : Obligations.ControlFlow := by
  unfold Obligations.ControlFlow
  exact ⟨branchesAndJumps, repEntersOrSkips⟩

end Sys2Proof.Machine
end
